-- ==== Sys2Proof/Word.lean ====
section
/-! DEFINITION. Word: the word types of the device (R3, R6, R9). -/

namespace Sys2Proof

/-- A register of the device is 32 bits wide (R9). -/
abbrev Word := BitVec 32

/-- A byte. -/
abbrev Byte := BitVec 8

/-- A T64 time: bits [63:6] count CCLK cycles, bits [5:0] are the fine part (R3). -/
abbrev Stamp := BitVec 64

/-- An A32 angle, a revolution count in [31:24] and a fraction of a revolution below (R6). -/
abbrev Angle := BitVec 32

end Sys2Proof
end

