-- ==== Sys2Proof/Syntax.lean ====
section
/-! DEFINITION. Syntax: the commands of the block, one constructor for each row of the table of
operations and events, with the operands the sender supplies (a port, an address, a value, what an
input brings). Operand types stand first. -/

namespace Sys2Proof

/-- Where a host access comes from (R24, R71): PCI Express with its requester id, or the SPI sideband. -/
inductive Port where
  | pcie (rid : BitVec 16)
  | spi
  deriving DecidableEq, Repr

/-- The latched register pairs that a requester shadow can hold (R71, R72). -/
inductive Pair where
  | tbNow
  | tbFrame
  | chCapt (n : Fin 256)
  | chTgt (n : Fin 256)
  | chCnt (k : Fin 128)
  | chCap (k : Fin 128)
  | wtTooth (t : Fin 4)
  | wellPop (k : Fin 64)
  deriving DecidableEq, Repr

/-- What the host's root complex answers to a pump's read of host memory (R312): the dwords with
a poison mark each, or an error completion. -/
inductive HostRead where
  | data (dwords : List (BitVec 32 × Bool))
  | error
  deriving DecidableEq, Repr

/-- The supply bands of a line-pin bank: 1.8 V, 2.5 V, 3.3 V (R450, Table 16.2). -/
inductive VioBand where
  | v18 | v25 | v33
  deriving DecidableEq, Repr

/-- The supply of a line-pin bank has become valid, in a band (R450). -/
structure BankSupply where
  bank : Fin 8
  band : VioBand
  deriving DecidableEq, Repr

/-- A power-on: the straps as sampled, and the band of each line-pin bank whose supply is valid (R408, R450). -/
structure PowerUp where
  straps : BitVec 3
  vio    : Vector (Option VioBand) 8
  deriving DecidableEq, Repr

/-- The words of a sideband read: of each, whether it is late at its first bit; and whether chip select rises in the middle
of a further one (R405, R406). -/
structure SpiWords where
  late : List Bool
  cut  : Bool
  deriving DecidableEq, Repr

/-- An interrupt source: shared, or private to a target (R319). -/
inductive SrcId where
  | shared (s : Fin 496)
  | priv (h : Fin 32) (j : Fin 16)
  deriving DecidableEq, Repr

/-- The 24 bytes of a wheel slot (Table 13.3). State 0 marks an empty slot. -/
structure WheelSlot where
  st    : BitVec 3 := 0
  syn   : Bool := false
  big   : Bool := false
  rev   : BitVec 8 := 0
  idx   : BitVec 12 := 0
  nm1   : BitVec 12 := 0
  stamp : BitVec 64 := 0
  e     : BitVec 48 := 0
  a     : BitVec 40 := 0
  deriving DecidableEq, Repr

/-- A message of the line link (R394). -/
structure LinkMsg where
  bcast : Bool := false
  type  : BitVec 8 := 0
  dst   : BitVec 20 := 0
  src   : BitVec 20 := 0
  data  : Vector (BitVec 32) 8 := Vector.replicate 8 0
  deriving DecidableEq, Repr

/-- The counts of a subtree summary (R390). -/
structure SubtreeSum where
  devices : Nat := 0
  observe : Nat := 0
  safe    : Nat := 0
  timef   : Nat := 0
  deriving DecidableEq, Repr

/-- The control section of a downward link frame (Table 13.2): the domain state broadcast (R388),
the root's digest and version (R387), the time reply r2 (R375) and the assigned path (R370). -/
structure DownCtl where
  state   : BitVec 3 := 0
  pend    : Bool := false
  pstate  : BitVec 3 := 0
  eff     : BitVec 48 := 0
  digest  : BitVec 32 := 0
  version : BitVec 32 := 0
  /-- None where the parent accepted no frame of the child (R375). -/
  r2      : Option Int := none
  path    : BitVec 20 := 0
  deriving DecidableEq, Repr

/-- A link frame (Table 13.2). The first three fields say how it came over the lane (R372), `stamp`
is the receiver's stamp of its time marker (R375). -/
structure LinkFrame where
  marker  : Bool := true
  codeOk  : Bool := true
  crcOk   : Bool := true
  stamp   : BitVec 64 := 0
  frame   : BitVec 32 := 0
  path    : BitVec 20 := 0
  tvalid  : Bool := false
  version : BitVec 2 := 0
  slots   : Vector WheelSlot 16 := Vector.replicate 16 {}
  down    : DownCtl := {}
  up      : SubtreeSum := {}
  msgs    : List LinkMsg := []
  deriving DecidableEq, Repr

/-- A character of the line link's lane: the K28.5 of the time marker, a data byte, or idle (Table 13.2). -/
inductive LinkChar where
  | marker
  | data (b : BitVec 8)
  | idle
  deriving DecidableEq, Repr

/-- A register of the function's configuration space, by what it holds (Table 14.1): identity, command and status, class
and revision, header type, BAR `k`, expansion ROM, capabilities and control of power management, MSI-X, the PCI Express
capability and Advanced Error Reporting: status, mask and severity of uncorrectable errors, status and mask of correctable
ones, control, dword `k` of the header log. Any other register reads 0. -/
inductive CfgReg where
  | identity | command | revision | header
  | bar (k : Fin 6)
  | rom
  | pmCap | pmControl
  | msixCap | msixTable | msixPba
  | devCap | devControl | linkCap | linkStatus
  | aerCap | aerStatus | aerMask | aerSeverity | aerCorrectable | aerCorrectableMask | aerControl
  | aerHeader (k : Fin 4)
  | other
  deriving DecidableEq, Repr

/-- A PCI Express configuration request (R398, R400 to R402, R410). -/
inductive CfgReq where
  | read (r : CfgReg)
  | memorySpace (on : Bool)
  | bar (second : Bool) (base : BitVec 64)
  | payload (code : BitVec 3)
  | readRequest (code : BitVec 3)
  | extendedTag (on : Bool)
  | errorReporting (v : BitVec 4)
  | linkControl (v : BitVec 16)
  | clearErrors (mask : BitVec 32)
  | errorMask (v : BitVec 32)
  | errorSeverity (v : BitVec 32)
  | clearCorrectable (mask : BitVec 32)
  | correctableMask (v : BitVec 32)
  | busMaster (on : Bool)
  | dstate (d : BitVec 2)
  | pmeEn (on : Bool)
  | clearPmeStatus
  | msixControl (enable mask : Bool)
  deriving DecidableEq, Repr

/-- The core supply rails whose loss resets the core (R408, R451). -/
inductive CoreRail where
  | vcore
  | vsd09
  | vsd18
  deriving DecidableEq, Repr

/-- The commands: the rows of the table of operations and events. -/
inductive Instr where
  /-- `DOMAIN_ARM` (R27) -/
  | domainArm (p : Port)
  /-- `DOMAIN_RUN` (R27) -/
  | domainRun (p : Port)
  /-- `DOMAIN_HOLD` (R27) -/
  | domainHold (p : Port)
  /-- `DOMAIN_STOP` (R27) -/
  | domainStop (p : Port)
  /-- `DOMAIN_DISARM` (R27) -/
  | domainDisarm (p : Port)
  /-- `DOMAIN_SAFE` (R31) -/
  | domainSafe (p : Port)
  /-- `DOMAIN_CLEAR` (R29) -/
  | domainClear (p : Port)
  /-- `DOMAIN_TRANSITION_EFFECT` (R30) -/
  | domainTransitionEffect
  /-- `FRAME_BOUNDARY` (R21) -/
  | frameBoundary (calErr : List Int)
  /-- `HOST_LOSS` (R403) -/
  | hostLoss
  /-- `TB_LOAD` (R38) -/
  | tbLoad (p : Port)
  /-- `TB_LOAD_EFFECT` (R40) -/
  | tbLoadEffect
  /-- `COUNTER_STEP` (R41) -/
  | counterStep (n : Fin 256)
  /-- `OUTPUT_EDGE_AT_BALL` (R235) -/
  | outputEdgeAtBall (pin : Fin 288)
  /-- `CH_CNT_WRITE` (R42) -/
  | chCntWrite (p : Port) (n : Fin 256) (v : BitVec 32)
  /-- `CH_TOP_WRITE` (R42) -/
  | chTopWrite (p : Port) (n : Fin 256) (v : BitVec 32)
  /-- `CH_CMP_WRITE` (R44) -/
  | chCmpWrite (p : Port) (n : Fin 256) (v : BitVec 32)
  /-- `CH_TGT_LO_WRITE` (R51) -/
  | chTgtLoWrite (p : Port) (n : Fin 256) (v : BitVec 32)
  /-- `CH_TGT_HI_WRITE` (R51) -/
  | chTgtHiWrite (p : Port) (n : Fin 256) (v : BitVec 32)
  /-- `CH_FILT_WRITE` (R52) -/
  | chFiltWrite (p : Port) (n : Fin 256) (v : BitVec 32)
  /-- `PLACEMENT_HORIZON` (R49) -/
  | placementHorizon (n : Fin 256)
  /-- `TARGET_EDGE` (R58) -/
  | targetEdge (n : Fin 256)
  /-- `PULSE_END` (R60) -/
  | pulseEnd (n : Fin 256)
  /-- `CAPTURE` (R55) -/
  | capture (n : Fin 256) (level : Bool) (stamp : BitVec 64)
  /-- `CH_START` (R67) -/
  | chStart (p : Port) (n : Fin 256)
  /-- `CH_STOP` (R67) -/
  | chStop (p : Port) (n : Fin 256)
  /-- `CH_ARM` (R67) -/
  | chArm (p : Port) (n : Fin 256)
  /-- `CH_DISARM` (R67) -/
  | chDisarm (p : Port) (n : Fin 256)
  /-- `CH_RELOAD` (R67) -/
  | chReload (p : Port) (n : Fin 256)
  /-- `LOW_READ_LATCH` (R71) -/
  | lowReadLatch (rid : BitVec 16) (pair : Pair)
  /-- `HIGH_READ_SHADOW` (R71) -/
  | highReadShadow (rid : BitVec 16) (pair : Pair)
  /-- `RC_READ` (R12) -/
  | rcRead (p : Port) (addr : Nat) (be : BitVec 4)
  /-- `REGISTER_WRITE` (R12) -/
  | registerWrite (p : Port) (addr : Nat) (be : BitVec 4) (v : BitVec 32)
  /-- `TE_START` (R105) -/
  | teStart (p : Port) (e : Fin 16)
  /-- `TE_STOP` (R105) -/
  | teStop (p : Port) (e : Fin 16)
  /-- `TE_HALT` (R105) -/
  | teHalt (p : Port) (e : Fin 16)
  /-- `TE_VERIFY` (R103) -/
  | teVerify (p : Port) (e : Fin 16)
  /-- `VERIFY_DONE` (R103) -/
  | verifyDone (e : Fin 16)
  /-- `TE_CLEAR` (R104) -/
  | teClear (p : Port) (e : Fin 16)
  /-- `TE_DOORBELL_WRITE` (R81) -/
  | teDoorbellWrite (p : Port) (e : Fin 16) (k : Fin 8) (v : BitVec 32)
  /-- `REQUEST_POST` (R81) -/
  | requestPost (e : Fin 16) (num : Fin 64) (arg : BitVec 32)
  /-- `DISPATCH` (R88) -/
  | dispatch (e : Fin 16)
  /-- `PREEMPTION` (R90) -/
  | preemption (e : Fin 16)
  /-- `HOUSEKEEPING_END` (R92) -/
  | housekeepingEnd (e : Fin 16)
  /-- `RUNAWAY` (R95) -/
  | runaway (e : Fin 16)
  /-- `MACHINE_CHECK` (R101) -/
  | machineCheck (e : Fin 16)
  /-- `DRAIN_QUEUE_DELIVERY` (R97) -/
  | drainQueueDelivery (e : Fin 16)
  /-- `PENDING_VALUE_ARRIVAL` (R130) -/
  | pendingValueArrival (e : Fin 16)
  /-- `MICROCODE_DWORD_STAGE` (R140) -/
  | microcodeDwordStage (p : Port) (e : Fin 16) (w : Fin 2048) (j : Fin 3) (v : BitVec 32)
  /-- `MICROCODE_WORD_STORE` (R140) -/
  | microcodeWordStore (p : Port) (e : Fin 16) (w : Fin 2048) (v : BitVec 32)
  /-- `MICROCODE_PARITY_READ` (R140) -/
  | microcodeParityRead (p : Port) (e : Fin 16) (w : Fin 2048)
  /-- `SEQ_NEXT` (R116) -/
  | seqNext (e : Fin 16)
  /-- `SEQ_GOTO` (R116) -/
  | seqGoto (e : Fin 16)
  /-- `SEQ_BRT` (R116) -/
  | seqBrt (e : Fin 16)
  /-- `SEQ_BRF` (R116) -/
  | seqBrf (e : Fin 16)
  /-- `SEQ_DISP` (R116) -/
  | seqDisp (e : Fin 16)
  /-- `SEQ_LOOP` (R116) -/
  | seqLoop (e : Fin 16)
  /-- `SEQ_WAITF` (R91) -/
  | seqWaitf (e : Fin 16)
  /-- `SEQ_EXIT` (R89) -/
  | seqExit (e : Fin 16)
  /-- `SEQ_HALT` (R116) -/
  | seqHalt (e : Fin 16)
  /-- `ALU_NOP` (R119) -/
  | aluNop (e : Fin 16)
  /-- `ALU_PASSA` (R119) -/
  | aluPassa (e : Fin 16)
  /-- `ALU_PASSB` (R119) -/
  | aluPassb (e : Fin 16)
  /-- `ALU_ADD` (R119) -/
  | aluAdd (e : Fin 16)
  /-- `ALU_ADC` (R119) -/
  | aluAdc (e : Fin 16)
  /-- `ALU_SUB` (R119) -/
  | aluSub (e : Fin 16)
  /-- `ALU_SBC` (R119) -/
  | aluSbc (e : Fin 16)
  /-- `ALU_RSB` (R119) -/
  | aluRsb (e : Fin 16)
  /-- `ALU_AND` (R119) -/
  | aluAnd (e : Fin 16)
  /-- `ALU_OR` (R119) -/
  | aluOr (e : Fin 16)
  /-- `ALU_XOR` (R119) -/
  | aluXor (e : Fin 16)
  /-- `ALU_ANDN` (R119) -/
  | aluAndn (e : Fin 16)
  /-- `ALU_NOT` (R119) -/
  | aluNot (e : Fin 16)
  /-- `ALU_NEG` (R119) -/
  | aluNeg (e : Fin 16)
  /-- `ALU_SHL` (R119) -/
  | aluShl (e : Fin 16)
  /-- `ALU_SHR` (R119) -/
  | aluShr (e : Fin 16)
  /-- `ALU_SAR` (R119) -/
  | aluSar (e : Fin 16)
  /-- `ALU_ROL` (R119) -/
  | aluRol (e : Fin 16)
  /-- `ALU_ROR` (R119) -/
  | aluRor (e : Fin 16)
  /-- `ALU_CMP` (R119) -/
  | aluCmp (e : Fin 16)
  /-- `ALU_TST` (R119) -/
  | aluTst (e : Fin 16)
  /-- `ALU_MINU` (R119) -/
  | aluMinu (e : Fin 16)
  /-- `ALU_MAXU` (R119) -/
  | aluMaxu (e : Fin 16)
  /-- `ALU_MINS` (R119) -/
  | aluMins (e : Fin 16)
  /-- `ALU_MAXS` (R119) -/
  | aluMaxs (e : Fin 16)
  /-- `ALU_MUL` (R119) -/
  | aluMul (e : Fin 16)
  /-- `ALU_MULHU` (R119) -/
  | aluMulhu (e : Fin 16)
  /-- `ALU_MULHS` (R119) -/
  | aluMulhs (e : Fin 16)
  /-- `ALU_CLZ` (R119) -/
  | aluClz (e : Fin 16)
  /-- `ALU_POPC` (R119) -/
  | aluPopc (e : Fin 16)
  /-- `ALU_EXT` (R119) -/
  | aluExt (e : Fin 16)
  /-- `ALU_SEL` (R119) -/
  | aluSel (e : Fin 16)
  /-- `CHOP_RD_CFG` (R123) -/
  | chopRdCfg (e : Fin 16)
  /-- `CHOP_RD_CNT` (R123) -/
  | chopRdCnt (e : Fin 16)
  /-- `CHOP_RD_TOP` (R123) -/
  | chopRdTop (e : Fin 16)
  /-- `CHOP_RD_CMP` (R123) -/
  | chopRdCmp (e : Fin 16)
  /-- `CHOP_RD_PRE` (R123) -/
  | chopRdPre (e : Fin 16)
  /-- `CHOP_RD_CAP` (R123) -/
  | chopRdCap (e : Fin 16)
  /-- `CHOP_RD_WIDTH` (R123) -/
  | chopRdWidth (e : Fin 16)
  /-- `CHOP_RD_PER` (R123) -/
  | chopRdPer (e : Fin 16)
  /-- `CHOP_RD_FILT` (R123) -/
  | chopRdFilt (e : Fin 16)
  /-- `CHOP_RD_IE` (R123) -/
  | chopRdIe (e : Fin 16)
  /-- `CHOP_RD_TGT` (R123) -/
  | chopRdTgt (e : Fin 16)
  /-- `CHOP_RD_CAPT` (R123) -/
  | chopRdCapt (e : Fin 16)
  /-- `CHOP_RD_CNT64` (R123) -/
  | chopRdCnt64 (e : Fin 16)
  /-- `CHOP_RD_CAP64` (R123) -/
  | chopRdCap64 (e : Fin 16)
  /-- `CHOP_RD_CMD` (R123) -/
  | chopRdCmd (e : Fin 16)
  /-- `CHOP_WR_CFG` (R123) -/
  | chopWrCfg (e : Fin 16)
  /-- `CHOP_WR_CNT` (R123) -/
  | chopWrCnt (e : Fin 16)
  /-- `CHOP_WR_TOP` (R123) -/
  | chopWrTop (e : Fin 16)
  /-- `CHOP_WR_CMP` (R123) -/
  | chopWrCmp (e : Fin 16)
  /-- `CHOP_WR_PRE` (R123) -/
  | chopWrPre (e : Fin 16)
  /-- `CHOP_WR_WIDTH` (R123) -/
  | chopWrWidth (e : Fin 16)
  /-- `CHOP_WR_FILT` (R123) -/
  | chopWrFilt (e : Fin 16)
  /-- `CHOP_WR_IE` (R123) -/
  | chopWrIe (e : Fin 16)
  /-- `CHOP_WR_TGT` (R124) -/
  | chopWrTgt (e : Fin 16)
  /-- `CHOP_CLR_STATUS` (R123) -/
  | chopClrStatus (e : Fin 16)
  /-- `CHOP_WR_WCODE` (R123) -/
  | chopWrWcode (e : Fin 16)
  /-- `CHOP_START` (R124) -/
  | chopStart (e : Fin 16)
  /-- `CHOP_STOP` (R124) -/
  | chopStop (e : Fin 16)
  /-- `CHOP_ARM` (R124) -/
  | chopArm (e : Fin 16)
  /-- `CHOP_DISARM` (R124) -/
  | chopDisarm (e : Fin 16)
  /-- `CHOP_RELOAD` (R124) -/
  | chopReload (e : Fin 16)
  /-- `CHOP_TGT_ARM` (R124) -/
  | chopTgtArm (e : Fin 16)
  /-- `MEM_LD` (R127) -/
  | memLd (e : Fin 16)
  /-- `MEM_ST` (R127) -/
  | memSt (e : Fin 16)
  /-- `MEM_ADD` (R127) -/
  | memAdd (e : Fin 16)
  /-- `MEM_SWAP` (R127) -/
  | memSwap (e : Fin 16)
  /-- `MEM_POP` (R127) -/
  | memPop (e : Fin 16)
  /-- `MEM_PUSH` (R127) -/
  | memPush (e : Fin 16)
  /-- `MEM_PEEK` (R127) -/
  | memPeek (e : Fin 16)
  /-- `MEM_CNT` (R127) -/
  | memCnt (e : Fin 16)
  /-- `FLG_COMMIT` (R97) -/
  | flgCommit (e : Fin 16)
  /-- `FLG_SIGNAL` (R133) -/
  | flgSignal (e : Fin 16)
  /-- `FLG_SETF` (R132) -/
  | flgSetf (e : Fin 16)
  /-- `FLG_CLRF` (R132) -/
  | flgClrf (e : Fin 16)
  /-- `FLG_YIELD` (R134) -/
  | flgYield (e : Fin 16)
  /-- `TK_RD_ANGLE` (R136) -/
  | tkRdAngle (e : Fin 16)
  /-- `TK_RD_TOOTH` (R136) -/
  | tkRdTooth (e : Fin 16)
  /-- `TK_RD_STATE` (R136) -/
  | tkRdState (e : Fin 16)
  /-- `TK_RD_PHASE` (R136) -/
  | tkRdPhase (e : Fin 16)
  /-- `TK_A2T` (R159) -/
  | tkA2t (e : Fin 16)
  /-- `TK_RD_EVENT` (R195) -/
  | tkRdEvent (e : Fin 16)
  /-- `TK_EV_PLACE` (R137) -/
  | tkEvPlace (e : Fin 16)
  /-- `TK_EV_CANCEL` (R136) -/
  | tkEvCancel (e : Fin 16)
  /-- `TK_EV_MOVE` (R136) -/
  | tkEvMove (e : Fin 16)
  /-- `TK_RESEEK` (R171) -/
  | tkReseek (e : Fin 16)
  /-- `WIN_CFG_WRITE` (R147) -/
  | winCfgWrite (p : Port) (i : Fin 8) (v : BitVec 32)
  /-- `PEAK_DECAY` (R145) -/
  | peakDecay (i : Fin 8)
  /-- `LEADING_EDGE_JUDGE` (R152) -/
  | leadingEdgeJudge (t : Fin 4) (stamp : BitVec 64) (peak : BitVec 10)
  /-- `TRAILING_EDGE_CLASSIFY` (R150) -/
  | trailingEdgeClassify (t : Fin 4) (stamp : BitVec 64)
  /-- `WINDOW_CLOSE` (R153) -/
  | windowClose (t : Fin 4)
  /-- `AUTOSEEK_RETURN` (R160) -/
  | autoseekReturn (t : Fin 4)
  /-- `WT_START` (R171) -/
  | wtStart (p : Port) (t : Fin 4)
  /-- `WT_STOP` (R171) -/
  | wtStop (p : Port) (t : Fin 4)
  /-- `WT_RESEEK` (R171) -/
  | wtReseek (p : Port) (t : Fin 4)
  /-- `WT_SETREV` (R172) -/
  | wtSetrev (p : Port) (t : Fin 4)
  /-- `EVENT_ISSUE` (R181) -/
  | eventIssue (t : Fin 4)
  /-- `EVENT_COMMIT` (R183) -/
  | eventCommit (t : Fin 4) (i : Fin 1024)
  /-- `CONVERT_ACTION` (R184) -/
  | convertAction (t : Fin 4) (i : Fin 1024)
  /-- `NOTICE_ACTION` (R184) -/
  | noticeAction (t : Fin 4) (i : Fin 1024)
  /-- `EV_CMD_FLUSH` (R188) -/
  | evCmdFlush (p : Port) (t : Fin 4)
  /-- `EV_CMD_CANCEL` (R188) -/
  | evCmdCancel (p : Port) (t : Fin 4)
  /-- `SE_START` (R199) -/
  | seStart (p : Port) (e : Fin 32)
  /-- `SE_STOP` (R202) -/
  | seStop (p : Port) (e : Fin 32)
  /-- `SE_HALT` (R200) -/
  | seHalt (p : Port) (e : Fin 32)
  /-- `SE_RESUME` (R201) -/
  | seResume (p : Port) (e : Fin 32) (clr : Bool)
  /-- `SE_TRIG` (R225) -/
  | seTrig (p : Port) (e : Fin 32)
  /-- `GSTART` (R227) -/
  | gstart (p : Port) (g : Fin 8)
  /-- `GHALT` (R227) -/
  | ghalt (p : Port) (g : Fin 8)
  /-- `GRESUME` (R227) -/
  | gresume (p : Port) (g : Fin 8) (clr : Bool)
  /-- `GSTOP` (R227) -/
  | gstop (p : Port) (g : Fin 8)
  /-- `SE_REGISTER_WRITE` (R198) -/
  | seRegisterWrite (p : Port) (e : Fin 32) (off : Nat) (v : BitVec 32)
  /-- `SE_WRAP_WRITE` (R217) -/
  | seWrapWrite (p : Port) (e : Fin 32) (v : BitVec 32)
  /-- `SE_TXQ_WRITE` (R213) -/
  | seTxqWrite (p : Port) (e : Fin 32) (v : BitVec 32)
  /-- `SE_RXQ_READ` (R213) -/
  | seRxqRead (p : Port) (e : Fin 32)
  /-- `SHIFT` (R207) -/
  | shift (e : Fin 32) (li : BitVec 8)
  /-- `IDLE_TICK` (R215) -/
  | idleTick (e : Fin 32)
  /-- `SE_NOP` (R214) -/
  | seNop (e : Fin 32)
  /-- `SE_SHO` (R215) -/
  | seSho (e : Fin 32)
  /-- `SE_SHI` (R215) -/
  | seShi (e : Fin 32)
  /-- `SE_SHX` (R215) -/
  | seShx (e : Fin 32)
  /-- `SE_PUT` (R219) -/
  | sePut (e : Fin 32)
  /-- `SE_CLK_HOLD` (R220) -/
  | seClkHold (e : Fin 32)
  /-- `SE_CLK_RUN` (R220) -/
  | seClkRun (e : Fin 32)
  /-- `SE_CLK_RESTART` (R220) -/
  | seClkRestart (e : Fin 32)
  /-- `SE_CLK_RESTART_BARRIER` (R220) -/
  | seClkRestartBarrier (e : Fin 32)
  /-- `SE_AWAIT` (R221) -/
  | seAwait (e : Fin 32) (li : BitVec 8) (si : BitVec 4)
  /-- `AWAIT_COMPLETE` (R221) -/
  | awaitComplete (e : Fin 32) (li : BitVec 8) (si : BitVec 4)
  /-- `BARRIER_RELEASE` (R226) -/
  | barrierRelease (g : Fin 8)
  /-- `SE_FILL` (R211) -/
  | seFill (e : Fin 32)
  /-- `FILL_COMPLETE` (R211) -/
  | fillComplete (e : Fin 32)
  /-- `SE_DRAIN` (R212) -/
  | seDrain (e : Fin 32)
  /-- `DRAIN_COMPLETE` (R212) -/
  | drainComplete (e : Fin 32)
  /-- `SE_CMP` (R222) -/
  | seCmp (e : Fin 32)
  /-- `SE_BRC` (R216) -/
  | seBrc (e : Fin 32) (li : BitVec 8)
  /-- `SE_SIG` (R224) -/
  | seSig (e : Fin 32)
  /-- `SE_MOV` (R223) -/
  | seMov (e : Fin 32) (li : BitVec 8) (si : BitVec 4)
  /-- `ILLOP` (R218) -/
  | illop (e : Fin 32)
  /-- `PIN_ENABLE` (R234) -/
  | pinEnable (p : Port)
  /-- `PIN_DISABLE` (R234) -/
  | pinDisable (p : Port)
  /-- `PIN_MATRIX_WRITE` (R233) -/
  | pinMatrixWrite (p : Port) (addr : Nat) (v : BitVec 32)
  /-- `GUARD_CLIP` (R245) -/
  | guardClip (pin : Fin 288)
  /-- `BUDGET_WINDOW` (R246) -/
  | budgetWindow (pin : Fin 288)
  /-- `BUDGET_FORCE` (R246) -/
  | budgetForce (pin : Fin 288)
  /-- `VIO_LOSS` (R249) -/
  | vioLoss (b : Fin 8)
  /-- `VIO_RETURN` (R249) -/
  | vioReturn (b : BankSupply)
  /-- `BIND` (R265) -/
  | bind (t : Fin 4)
  /-- `PRINT_STAGE` (R258) -/
  | printStage (t : Fin 4)
  /-- `DECISION` (R268) -/
  | decision (t : Fin 4)
  /-- `GATE_ANGLE` (R258) -/
  | gateAngle (t : Fin 4)
  /-- `SAFE_SLOT_CLOSE` (R269) -/
  | safeSlotClose (t : Fin 4)
  /-- `INTAKE` (R263) -/
  | intake (t : Fin 4)
  /-- `JOB_RING_WR_WRITE` (R262) -/
  | jobRingWrWrite (p : Port) (t : Fin 4) (v : BitVec 32)
  /-- `JOB_VREC_PSN_WRITE` (R267) -/
  | jobVrecPsnWrite (p : Port) (t : Fin 4) (v : BitVec 32)
  /-- `VERDICT_RECORD` (R267) -/
  | verdictRecord (p : Port) (t : Fin 4) (code : BitVec 4)
  /-- `REPORT_WELL_ITEM` (R267) -/
  | reportWellItem (t : Fin 4)
  /-- `COMPLETION_RECORD` (R270) -/
  | completionRecord (t : Fin 4)
  /-- `JOB_ENABLE` (R278) -/
  | jobEnable (p : Port) (t : Fin 4)
  /-- `JOB_DISABLE` (R278) -/
  | jobDisable (p : Port) (t : Fin 4)
  /-- `SETMARK` (R273) -/
  | setmark (p : Port) (t : Fin 4)
  /-- `REWIND` (R275) -/
  | rewind (p : Port) (t : Fin 4)
  /-- `JOB_FLUSH` (R278) -/
  | jobFlush (p : Port) (t : Fin 4)
  /-- `SETPSN` (R278) -/
  | setpsn (p : Port) (t : Fin 4)
  /-- `WAY_GRANT` (R284) -/
  | wayGrant (b : Fin 8) (w : Fin 4)
  /-- `ACCESS_REFUSED` (R286) -/
  | accessRefused (port : Fin 27)
  /-- `READ_DATA_RETURN` (R283) -/
  | readDataReturn (port : Fin 27)
  /-- `BANK_HANDOVER` (R288) -/
  | bankHandover (p : Port) (b : Fin 8) (v : BitVec 32)
  /-- `SCRUB_VISIT` (R293) -/
  | scrubVisit
  /-- `CISTERN_INIT_DONE` (R294) -/
  | cisternInitDone
  /-- `BAR2_READ` (R399) -/
  | bar2Read (rid : BitVec 16) (addr : Nat) (len : Nat)
  /-- `BAR2_WRITE` (R399) -/
  | bar2Write (addr : Nat) (bytes : List (Option (BitVec 8)))
  /-- `WELL_ENABLE` (R305) -/
  | wellEnable (p : Port) (k : Fin 64)
  /-- `WELL_DISABLE` (R305) -/
  | wellDisable (p : Port) (k : Fin 64)
  /-- `WELL_FLUSH` (R305) -/
  | wellFlush (p : Port) (k : Fin 64)
  /-- `WELL_PUSH_LO_WRITE` (R304) -/
  | wellPushLoWrite (p : Port) (k : Fin 64) (v : BitVec 32)
  /-- `WELL_PUSH_HI_WRITE` (R304) -/
  | wellPushHiWrite (p : Port) (k : Fin 64) (v : BitVec 32)
  /-- `WELL_POP_LO_READ` (R304) -/
  | wellPopLoRead (p : Port) (k : Fin 64)
  /-- `PUMP_START` (R306) -/
  | pumpStart (p : Port) (u : Fin 8)
  /-- `PUMP_STOP` (R306) -/
  | pumpStop (p : Port) (u : Fin 8)
  /-- `STOPPING_END` (R306) -/
  | stoppingEnd (u : Fin 8)
  /-- `PUMP_TAIL_WRITE` (R307) -/
  | pumpTailWrite (p : Port) (u : Fin 8) (v : BitVec 32)
  /-- `DESCRIPTOR_TAKE` (R307) -/
  | descriptorTake (u : Fin 8)
  /-- `ELEMENT_MOVE` (R310) -/
  | elementMove (u : Fin 8)
  /-- `DESCRIPTOR_END` (R312) -/
  | descriptorEnd (u : Fin 8)
  /-- `HOST_READ_COMPLETION` (R312) -/
  | hostReadCompletion (u : Fin 8) (r : HostRead)
  /-- `IC_CLAIM_READ` (R328) -/
  | icClaimRead (p : Port) (h : Fin 32) (fast : Bool)
  /-- `IC_COMPLETE_WRITE` (R329) -/
  | icCompleteWrite (p : Port) (h : Fin 32) (fast : Bool) (v : BitVec 32)
  /-- `UNWIND` (R336) -/
  | unwind (p : Port) (h : Fin 32) (fast : Bool)
  /-- `IC_MODE_WRITE` (R326) -/
  | icModeWrite (p : Port) (v : BitVec 32)
  /-- `SOURCE_CONFIG_WRITE` (R327) -/
  | sourceConfigWrite (p : Port) (src : SrcId) (v : BitVec 32)
  /-- `COALESCING_THRESHOLD` (R332) -/
  | coalescingThreshold (h : Fin 32) (fast : Bool)
  /-- `MSIX_MESSAGE` (R333) -/
  | msixMessage (h : Fin 32) (fast : Bool)
  /-- `TARGET_SLEEP_WRITE` (R335) -/
  | targetSleepWrite (p : Port) (h : Fin 32) (v : BitVec 32)
  /-- `PME_REPEAT` (R402) -/
  | pmeRepeat
  /-- `SC_START` (R361) -/
  | scStart (p : Port) (c : Fin 2)
  /-- `SC_STOP` (R361) -/
  | scStop (p : Port) (c : Fin 2)
  /-- `SELF_CALIBRATION` (R348) -/
  | selfCalibration (p : Port) (c : Fin 2)
  /-- `TRIM_CALIBRATION` (R347) -/
  | trimCalibration (p : Port) (c : Fin 2)
  /-- `INJECT` (R350) -/
  | inject (p : Port) (c : Fin 2)
  /-- `SC_BUF_LEN_WRITE` (R362) -/
  | scBufLenWrite (p : Port) (c : Fin 2) (v : BitVec 32)
  /-- `INTEGRATION_END` (R351) -/
  | integrationEnd (c : Fin 2) (input : List (Nat × Int)) (overload : Option Bool)
  /-- `DUMP_END` (R353) -/
  | dumpEnd (c : Fin 2)
  /-- `SWITCH_END` (R339) -/
  | switchEnd (c : Fin 2)
  /-- `MAINS_SYNC_EDGE` (R342) -/
  | mainsSyncEdge (stamp : BitVec 64)
  /-- `MAINS_SYNC_LOSS` (R342) -/
  | mainsSyncLoss
  /-- `PLAUSIBILITY_ROUND` (R358) -/
  | plausibilityRound
  /-- `PLAUSIBILITY_TIMEOUT` (R358) -/
  | plausibilityTimeout
  /-- `LINK_CFG_WRITE` (R367) -/
  | linkCfgWrite (p : Port) (v : BitVec 32)
  /-- `TRAINING_START` (R367) -/
  | trainingStart (k : Fin 4)
  /-- `PORT_UP` (R367) -/
  | portUp (k : Fin 4) (good : Bool) (partnerUp : Bool) (pv : BitVec 2)
  /-- `PORT_LOSS` (R373) -/
  | portLoss (k : Fin 4) (signal : Bool)
  /-- `LINK_FRAME_RECEIVE` (R372) -/
  | linkFrameReceive (k : Fin 4) (f : LinkFrame)
  /-- `LINK_FRAME_ACT` (R393) -/
  | linkFrameAct (k : Fin 4)
  /-- `TB_STEP` (R376) -/
  | tbStep
  /-- `OBSERVE_EXIT` (R389) -/
  | observeExit
  /-- `FOLLOW_STALE` (R385) -/
  | followStale (t : Fin 4)
  /-- `LINK_COMMIT` (R386) -/
  | linkCommit (p : Port)
  /-- `LINK_SEND` (R395) -/
  | linkSend (p : Port)
  /-- `LINK_RXPOP` (R395) -/
  | linkRxpop (p : Port)
  /-- `POWER_ON_RESET` (R408) -/
  | powerOnReset (start : PowerUp)
  /-- `NRST_RESET` (R408) -/
  | nrstReset (lowNs : Nat) (straps : BitVec 3)
  /-- `SYS_RESET` (R413) -/
  | sysReset (p : Port) (key : BitVec 8)
  /-- `SOFT_RESET` (R413) -/
  | softReset
  /-- `WAKE_START_UP` (R418) -/
  | wakeStartUp (straps : BitVec 3)
  /-- `CLOCK_LOSS_RESET` (R411) -/
  | clockLossReset (straps : BitVec 3)
  /-- `CALM_POR` (R421) -/
  | calmPor
  /-- `PLL_LOCK` (R410) -/
  | pllLock
  /-- `NOREF_START` (R411) -/
  | norefStart
  /-- `SYS_BOOT_RELEASE` (R412) -/
  | sysBootRelease (p : Port)
  /-- `PCIE_CONFIG_REQUEST` (R410) -/
  | pcieConfigRequest (r : CfgReq)
  /-- `D3HOT_ENTRY` (R401) -/
  | d3hotEntry
  /-- `SPI_STATUS` (R405) -/
  | spiStatus
  /-- `SPI_REGISTER_READ` (R406) -/
  | spiRegisterRead (addr : BitVec 24) (words : SpiWords)
  /-- `SPI_REGISTER_WRITE` (R406) -/
  | spiRegisterWrite (addr : BitVec 24) (words : List (BitVec 32)) (cut : Bool)
  /-- `SPI_CISTERN_READ` (R404) -/
  | spiCisternRead (addr : BitVec 24) (words : SpiWords)
  /-- `SPI_CISTERN_WRITE` (R404) -/
  | spiCisternWrite (addr : BitVec 24) (words : List (BitVec 32)) (cut : Bool)
  /-- `SYS_DOZE` (R415) -/
  | sysDoze (p : Port)
  /-- `SYS_SLEEP` (R418) -/
  | sysSleep (p : Port)
  /-- `SYS_WAKE` (R417) -/
  | sysWake (p : Port)
  /-- `L23_SLEEP_REQUEST` (R416) -/
  | l23SleepRequest
  /-- `WAKE_PIN_EDGE` (R417) -/
  | wakePinEdge (i : Fin 4) (level : Bool)
  /-- `CALM_TIMER_MATCH` (R417) -/
  | calmTimerMatch
  /-- `PWREN_LOW` (R418) -/
  | pwrenLow
  /-- `PWREN_HIGH` (R418) -/
  | pwrenHigh
  /-- `VANA_CHANGE` (R420) -/
  | vanaChange (valid : Bool)
  /-- `VKEEP_LOSS` (R420) -/
  | vkeepLoss
  /-- `REC_START` (R437) -/
  | recStart (p : Port)
  /-- `RECORDING_BEGIN` (R429) -/
  | recordingBegin
  /-- `REC_STOP` (R437) -/
  | recStop (p : Port)
  /-- `REC_FREEZE` (R436) -/
  | recFreeze (p : Port)
  /-- `POST_COUNT_DONE` (R436) -/
  | postCountDone
  /-- `RECORD_WRITE` (R433) -/
  | recordWrite
  /-- `DRAIN_END` (R438) -/
  | drainEnd
  /-- `REC_REPLAY` (R437) -/
  | recReplay (p : Port)
  /-- `REPLAY_BEGIN` (R439) -/
  | replayBegin
  /-- `REC_RPQ_APPEND` (R441) -/
  | recRpqAppend (p : Port) (v : BitVec 32)
  /-- `REPLAY_QUEUE_MOVE` (R441) -/
  | replayQueueMove
  /-- `INPUT_INJECTION` (R442) -/
  | inputInjection
  /-- `DIVERGENCE_TIMEOUT` (R443) -/
  | divergenceTimeout
  /-- `VLV_LOSS` (R240) -/
  | vlvLoss
  /-- `VLV_RETURN` (R240) -/
  | vlvReturn
  /-- `CORE_RAIL_LOSS` (R408) -/
  | coreRailLoss (rail : CoreRail)
  /-- `PARTNER_SIGNAL_LOSS` (R367) -/
  | partnerSignalLoss (k : Fin 4)
  /-- `DL_ACTIVE` (R415) -/
  | dlActive (width : BitVec 4) (speed : BitVec 4)
  /-- `SHIFT_CLOCK_TICK` (R206) -/
  | shiftClockTick (e : Fin 32)
  /-- `SPI_BAD_COMMAND` (R404) -/
  | spiBadCommand
  deriving DecidableEq, Repr

end Sys2Proof
end

