-- ==== Sys2Proof/Decode.lean ====
section
/-! DEFINITION. Decode: the block has no encoding of commands. No row of the table of operations and
events gives bits, so no word spells a command. -/

namespace Sys2Proof

/-- The command that a word spells by the table's bits: no row gives any. -/
def decodeTableWord (nbits w : Nat) : Option Instr :=
  let _ := (nbits, w)
  none

end Sys2Proof
end

