-- ==== Sys2Proof/Config.lean ====
section
/-! DEFINITION. Config: values the spec leaves open. Each is an opaque constant: nothing can
evaluate it, so a statement that mentions one holds for every value of it. -/

namespace Sys2Proof.Config

/-- What a word with three or more symbols in error decodes to (R291: such a word may be taken for
a correct, correctable or uncorrectable one): the data as read and the check disturbance. Log 10. -/
opaque manySymbols : BitVec 64 → BitVec 16 → BitVec 64 × Nat

/-- The factory trim of a converter: offset and gain (R347, Table 12.10). Log 12. -/
opaque factoryTrim : Fin 2 → BitVec 32

/-- Whether a pulse of 100 ns to 1 us on nRST resets the device (R460), by its length in ns. Log 11. -/
opaque nrstGlitch : Nat → Bool

/-- The peak of a tooth whose zero crossing only a capture channel sees: no command carries it (R144, R146). Log 84. -/
opaque toothPeak : Nat → BitVec 10

/-- Levels that a register shows of inputs which no command carries, drawn one by one (Table 7.16). Log 17. -/
opaque inputLevels : Nat → BitVec 32

/-- The angle of an angle event's conversion that replay injects: its record does not carry it
(Table 12.4, Table 15.1). Log 18. -/
opaque replayAngle : Nat → BitVec 32

/-- The correction that a calibration group computes from a measured error, in bias steps before the
bound of one step (R238). Log 19. -/
opaque biasStep : Int → Int

/-- Oscillator periods that CALM_TIMER counts between two looks at it (R421, R422). Log 20. -/
opaque calmPeriods : Nat → Nat

/-- The bytes of a link frame's sections whose inner layout Table 13.2 does not give: header (frame number, path,
`TVALID`, version), control downward and upward, and a message slot; and the byte that the CRC takes for an idle
character. Log 71. -/
opaque linkHeader : BitVec 32 → BitVec 20 → Bool → BitVec 2 → Vector (BitVec 8) 15
opaque linkDown : DownCtl → Vector (BitVec 8) 64
opaque linkUp : SubtreeSum → Vector (BitVec 8) 64
opaque linkMessage : LinkMsg → Vector (BitVec 8) 42
opaque linkIdle : BitVec 8

/-- Dword `k` of the header of a PCI Express request, which the header log keeps of the `n`-th one that was not supported
(Table 14.1). Log 51. -/
opaque requestHeader : Nat → Fin 4 → BitVec 32

end Sys2Proof.Config
end

