-- ==== Sys2Proof/Machine/State.lean ====
section
/-! DEFINITION. State: everything the spec gives the device, as plain data, with its reset values as
the fields' defaults; the queue of waiting commands; the reasons a step can stop. INVENTORY.md lists
each piece with the rule that names it; a register is held as the word the host reads, and the
fields of it are read by `fld` and `bit` (Machine/Ops.lean). -/

namespace Sys2Proof.Machine

/-- The command status codes (R15, Table 0.4). -/
inductive CmdStatus where
  | ok | stateRefused | queued | argInvalid | locked | aborted
  deriving DecidableEq, Repr

/-- A block's command status and its refusal counter (R15, R16). -/
structure CmdReg where
  status   : CmdStatus := .ok
  refusals : BitVec 8 := 0
  deriving DecidableEq, Repr

/-- The domain states (Table 1.5). -/
inductive DomState where
  | config | armed | run | hold | safe
  deriving DecidableEq, Repr

/-- The domain state registers (R35) and the SAFE broadcast the root is making (R31). -/
structure Domain where
  state    : DomState := .config
  pend     : Bool := false
  pstate   : DomState := .config
  eff      : BitVec 48 := 0
  late     : BitVec 8 := 0
  /-- A commanded SAFE waits for the next frame boundary (R31). -/
  safeWait : Bool := false
  observe  : Bool := false
  cmd      : CmdReg := {}
  mask     : Word := 0x11
  lead     : BitVec 8 := 16
  /-- The effective frame of the SAFE that the root broadcasts although it is in SAFE already. -/
  bcast    : Option (BitVec 48) := none
  /-- The frame at whose boundary the latest transition took effect: a boundary has one (R23). -/
  movedIn  : Option (BitVec 48) := none
  /-- A fault enabled in SYS_SAFE_MASK began in this cycle (R467); acted on before the command ends. -/
  safeNow  : Bool := false
  deriving DecidableEq, Repr

/-- The timebase (R36 to R40, Tables 2.8 to 2.11). -/
structure Timebase where
  now      : Stamp := 0
  /-- CCLK cycles since reset; a load of TB64 does not move it. -/
  clk      : Nat := 0
  /-- CCLK runs (R37). -/
  running  : Bool := false
  /-- The present cycle begins a frame whose R21 has not run. -/
  frameDue : Bool := false
  /-- The frame that ended at the latest boundary, by its number before a load or step (R93). -/
  ended    : BitVec 48 := 0
  setLo    : Word := 0
  setHi    : Word := 0
  loadPend : Bool := false
  loadVal  : Stamp := 0
  cmd      : CmdReg := {}
  src      : Bool := false
  deriving DecidableEq, Repr

/-- A requester's shadow of a latched high register (R71, R72); `some` until its high read. -/
structure Shadow where
  rid   : BitVec 16
  pair  : Pair
  value : Word
  full  : Bool
  deriving DecidableEq, Repr

/-- What leaves the device: register and memory read data, interrupt messages, writes and reads of
host memory, PME, link frames, the SPI sideband's answers. -/
inductive OutItem where
  | readData (p : Port) (v : Word)
  /-- A BAR request of `rid` is answered with Unsupported Request (R401). -/
  | unsupported (rid : BitVec 16)
  | memData (p : Port) (bytes : List (Byte × Bool))
  | msix (vector : Nat) (addr : BitVec 64) (data : Word)
  | hostWrite (addr : BitVec 64) (bytes : List (Byte × Bool))
  | hostReadReq (pump : Nat) (addr : BitVec 64) (len : Nat)
  | pme
  | cfgData (v : Word)
  | cfgRetry
  /-- A link frame of port `k`: its contents, and its characters (Table 13.2). -/
  | link (k : Nat) (f : LinkFrame) (chars : List LinkChar)
  | spiStatus (b : Byte)
  deriving DecidableEq, Repr

/-- What the edge of a channel does (Table 2.4, Table 6.4). -/
inductive EdgeAct where
  | none | set | clear | toggle | pulse | fire
  deriving DecidableEq, Repr

/-- The angle event that a tracker has issued to an ANGLE_EVENT channel (R66, R181). -/
structure IssuedEvent where
  trk   : Fin 4
  idx   : Nat
  act   : EdgeAct
  width : Stamp
  wcode : BitVec 3
  deriving DecidableEq, Repr

/-- A count that a channel's counter held, from cycle `since` on, with the counter steps made by then (R54, R62). -/
structure Held where
  since : Nat
  cnt   : Word
  steps : Nat
  deriving DecidableEq, Repr

/-- A timer channel (R41 to R70, Tables 2.12 to 2.19). -/
structure Chan where
  cfg      : Word := 0
  /-- CH_CFG as written by the end of the cycle before: its MATCH_GE, POL, ACT and WCODE are in force (R57). -/
  eff      : Word := 0
  cmd      : CmdReg := {}
  supcnt   : BitVec 8 := 0
  cnt      : Word := 0
  top      : Word := 0xFFFF_FFFF
  /-- A CH_TOP value waiting for the wrap (R42). -/
  heldTop  : Option Word := none
  cmp      : Word := 0
  pre      : Word := 0
  cap      : Word := 0
  width    : Word := 0
  per      : Word := 0
  tgt      : Stamp := 0
  /-- Staged low halves of the target, one per requester port (R51). -/
  stagePcie : Word := 0
  stageSpi  : Word := 0
  capt     : Stamp := 0
  filt     : Word := 0x0100_0000
  /-- CH_STATUS [7:0]. -/
  flags    : BitVec 8 := 0
  ie       : Word := 0
  run      : Bool := false
  armed    : Bool := false
  horizon  : Bool := false
  pulse    : Bool := false
  pvalid   : Bool := false
  /-- The filtered input level. -/
  level    : Bool := false
  /-- The output before POL inverts it. -/
  out      : Bool := false
  /-- The cycle of the next counter step (R41). -/
  nextStep : Nat := 0
  /-- Counter steps made, and that number at the previous taken edge since START (R62). -/
  steps    : Nat := 0
  prevSteps : Option Nat := none
  /-- Counts held before the present one or with it, newest first, as far back as a filter can look (R54). -/
  hist     : List Held := []
  epsCnt   : Nat := 0
  /-- The cycle of the latest change of the filter or its source (R52). -/
  filtFrom : Option Stamp := none
  prevStamp : Option Stamp := none
  /-- The committed edge (R49, R50): its time and whether the domain state suppressed it (R68). -/
  edgeAt   : Stamp := 0
  suppr    : Bool := false
  /-- Action, width and code of the committed edge. -/
  act      : EdgeAct := .none
  actWidth : Stamp := 0
  /-- The pulse in progress was begun by a local match, and ends the run of a local ONESHOT (R60, R67). -/
  isLocal  : Bool := false
  once     : Bool := false
  /-- End of the pulse in progress: the cycle of a local pulse, the time of a shared one (R60). -/
  endClk   : Nat := 0
  endAt    : Stamp := 0
  /-- STOP came while a committed edge or a pulse completes (R67, R469). -/
  stopping : Bool := false
  /-- The waveform code on the companion pins (R61). -/
  code     : BitVec 3 := 0
  event    : Option IssuedEvent := none
  /-- The channel is driven safe by its tracker (R189). -/
  held     : Bool := false
  /-- It will be, once its COMMITTED event has ended. -/
  heldDue  : Bool := false
  deriving DecidableEq, Repr

/-- What the device does with a pin's ball: it drives it, or leaves it to its PULL (0 none, 1 weak
pull-down, 2 weak pull-up; Table 8.2, Table 8.7). -/
inductive Drive where
  | undriven (pull : BitVec 2) | low | high
  deriving DecidableEq, Repr

/-- A pulse that the pin has passed (R243 to R246): its leading edge, its width where it is bounded, the time at which MAXW
clips it, whether its time counts as open, and its active level. `till` is its trailing edge once that is decided, and `cut`
says that it is a clip that has not come. -/
structure Pulse where
  lead   : Stamp
  width  : Option Stamp := none
  clipAt : Option Stamp := none
  counts : Bool := false
  act    : Bool := true
  till   : Option Stamp := none
  cut    : Bool := false
  deriving DecidableEq, Repr

/-- A pin with its routing and its guard (R230 to R248, Tables 8.7 and 8.9). -/
structure Pin where
  osel     : Word := 0
  io       : Word := 0x400
  /-- The row of Table 8.2 in force. -/
  row      : Nat := 1
  /-- The level that rows 3 to 8 give the pin; in REPLAY it is computed and the ball stays safe (R430, R440). -/
  lvl      : Option Bool := none
  ball     : Drive := .undriven 1
  /-- What the ball carried, newest first, each from a time on, as far back as an input filter can look (R231, R236). -/
  hist     : List (Stamp × Drive) := []
  /-- Edges decided and not yet at the ball: time without SKEW, level. -/
  edges    : List (Stamp × Bool) := []
  /-- The level that the source's decided edges have come to. -/
  src      : Bool := false
  gcfg     : Word := 0x2000_0000
  minw     : Word := 0
  maxw     : Word := 0
  gap      : Word := 0
  budget   : Word := 0
  /-- HOLDPASS and SAFE in force (R248). -/
  passNow  : Bool := false
  safeNow  : BitVec 2 := 0
  /-- BEN, BWEXP and BUDGET in force (R248). -/
  benNow   : Bool := false
  bwexpNow : Nat := 0
  budgetNow : Nat := 0
  /-- GUARD_STAT [4:0]. -/
  gstat    : BitVec 5 := 0
  forced   : Bool := false
  suppr    : BitVec 8 := 0
  clip     : BitVec 8 := 0
  force    : BitVec 8 := 0
  /-- Budget used in the present window, T64 units, but for the open pulses in `pulses`. -/
  used     : Nat := 0
  /-- The frame with which the present window began. -/
  window   : BitVec 48 := 0
  /-- The trailing edge driven last, but for those of `pulses`. -/
  prevTrail : Option Stamp := none
  /-- The pulses passed whose trailing edge is not both past and at the ball, newest first. -/
  pulses   : List Pulse := []
  /-- The pin holds inactive until its source shows inactive (R242, R245). -/
  hold     : Bool := false
  /-- GEN and ACT as the pulse that the source shows took them at its leading edge (R248); none
  while it shows no pulse. -/
  during   : Option (Bool × Bool) := none
  deriving DecidableEq, Repr

/-- The registers the pins share (Tables 8.6 and 8.10) and the calibration groups (R238, R239). -/
structure PinBlock where
  cmd      : CmdReg := {}
  en       : Bool := false
  /-- The matrix state that the commands accepted so far produce (R234). -/
  cmdEn    : Bool := false
  vioOk    : BitVec 8 := 0
  /-- The supply band of each bank: taken when VIO becomes valid, kept until it is not (R450). -/
  band     : Vector (Option VioBand) 8 := Vector.replicate 8 none
  vlvOk    : Bool := false
  /-- PIN_EVT. -/
  evt      : Word := 0
  /-- Consecutive good frames and lock of each group. -/
  good     : Vector Nat 10 := Vector.replicate 10 0
  lock     : BitVec 10 := 0
  /-- The calibration in force, in bias steps. -/
  corr     : Vector Int 10 := Vector.replicate 10 0
  chin     : Vector (BitVec 9) 256 := Vector.replicate 256 511
  sein     : Vector (Vector (BitVec 9) 12) 32 := Vector.replicate 32 (Vector.replicate 12 511)
  fault    : BitVec 5 := 0
  ie       : Word := 0x1F
  last     : Word := 0
  deriving DecidableEq, Repr

/-- The states of a timing engine (R79). -/
inductive EngState where
  | stopped | run | halted | mchk
  deriving DecidableEq, Repr

/-- A side effect held in a store buffer or a drain queue (R96, Table 3.5). -/
inductive SideEffect where
  /-- A channel operation by its CHOP code, with operands A and B (R123). -/
  | chan (n : Fin 256) (op : Nat) (a b : Word)
  /-- Cistern accesses, by word address / 8; ADD and SWAP with their pending value (R127). -/
  | st (w : Nat) (v : BitVec 64)
  | add (w : Nat) (v : BitVec 64) (id : Nat)
  | swap (w : Nat) (v : BitVec 64) (id : Nat)
  /-- Well operations; a POP that returned IDLE removes nothing (R128). -/
  | pop (k : Fin 64) (removes : Bool)
  | push (k : Fin 64) (v : BitVec 64)
  /-- Tracker operations by their TKOP code (R136), with A, B, AUX and the channel selected. -/
  | tracker (t : Fin 4) (op : Nat) (a b : Word) (aux : BitVec 24) (chan : Fin 256)
  | signal (target : Fin 16) (sel : Nat) (arg : Word)
  deriving DecidableEq, Repr

/-- A snapshot of G0 to G15, LC and FLAGS with its resume point (R99). -/
structure Ctx where
  g     : Vector Word 16 := Vector.replicate 16 0
  lc    : BitVec 16 := 0
  flags : BitVec 16 := 0
  pc    : BitVec 11 := 0
  deriving DecidableEq, Repr

/-- A request of the ready set (R81 to R86). `ctx` is its saved context when it is suspended or held;
`slot` says that the context occupies a context slot (Table 3.6). -/
structure Entry where
  num      : BitVec 6
  arg      : Word
  deadline : Word
  seq      : Nat
  /-- The cycle in which it was posted (R86, R88). -/
  posted   : Nat := 0
  /-- The entry address it was posted with (R109). -/
  entry    : BitVec 11 := 0
  running  : Bool := false
  ctx      : Option Ctx := none
  slot     : Bool := false
  /-- After WAITF: not eligible before cycle 64 of this frame (R91). -/
  waitf    : Option Word := none
  deriving DecidableEq, Repr

/-- A value on its way to Gd:Gd+1 (R127, R130). -/
structure PendVal where
  id      : Nat
  /-- The even register of the pair; none discards the data. -/
  dst     : Option (Fin 8)
  load    : Bool
  /-- Issued before the resume point: arrives into the snapshot as well. -/
  kept    : Bool := false
  /-- The request whose routine it belongs to, by its sequence number; none once it is to be discarded. -/
  owner   : Option Nat
  /-- A load that waits at the port behind an `ADD` of its word: that `ADD` and the word (R98). -/
  behind  : Option (Nat × Nat) := none
  arrived : Option (BitVec 64 × Bool) := none
  deriving DecidableEq, Repr

/-- A timing engine (R77 to R142). -/
structure Engine where
  g       : Vector Word 16 := Vector.replicate 16 0
  lc      : BitVec 16 := 0
  flags   : BitVec 16 := 0
  opd     : BitVec 64 := 0
  state   : EngState := .stopped
  ready   : List Entry := []
  nextSeq : Nat := 0
  pc      : BitVec 11 := 0
  snap    : Ctx := {}
  sb      : List SideEffect := []
  dq      : List SideEffect := []
  /-- The first cycle in which the drain queue delivers its next entry (R97). -/
  dqAt    : Nat := 0
  pend    : List PendVal := []
  nextId  : Nat := 0
  /-- The destination code that a multiply wrote in the previous cycle (R119). -/
  mulDst  : Option Nat := none
  /-- The request that preempts (R90), by its sequence number, and its abandonment cycle. -/
  preempt : Option Nat := none
  preemptAt : Nat := 0
  /-- The first cycle the engine has not yet spent on a microword, a stall, a dispatch or an abandonment. -/
  free    : Nat := 0
  /-- The watchdog found the running routine in cycle 64; `RUNAWAY` abandons it (R95). -/
  runaway : Bool := false
  /-- Requests posted in housekeeping, whose preemption test runs in cycle 64 (R92). -/
  tests   : List Nat := []
  /-- Housekeeping (HK). -/
  hk      : Bool := false
  /-- Frame boundaries the running routine has crossed since its dispatch (R95). -/
  crossed : Nat := 0
  busy    : Nat := 0
  wdog    : BitVec 8 := 4
  framereq : Bool := false
  cmd     : CmdReg := {}
  /-- TE_STAT [8:0]. -/
  stat    : BitVec 9 := 0
  ie      : Word := 0x80
  peak    : BitVec 16 := 0
  last    : BitVec 16 := 0
  defer   : Word := 0
  ovr     : BitVec 8 := 0
  abandon : BitVec 8 := 0
  fdisc   : BitVec 8 := 0
  merge   : BitVec 8 := 0
  qdrop   : BitVec 8 := 0
  undisp  : BitVec 8 := 0
  disc    : BitVec 8 := 0
  pblock  : BitVec 8 := 0
  vgood   : Bool := false
  vdone   : Bool := false
  /-- The cycle in which the VERIFY in progress began (VBUSY), and whether the window was written. -/
  vstart  : Option Nat := none
  vwrite  : Bool := false
  /-- The cycle in which a routine's own `HALT` took the engine to HALTED (R106). -/
  ownHalt : Option Nat := none
  mcAddr  : BitVec 11 := 0
  mcLanes : BitVec 8 := 0
  mccnt   : BitVec 8 := 0
  wellsel : Vector Word 2 := Vector.replicate 2 0
  disp    : Vector Word 64 := Vector.replicate 64 0
  wrej    : BitVec 8 := 0
  inj     : BitVec 8 := 0
  par     : BitVec 8 := 0
  /-- Staging registers of the two requester ports (R140). -/
  stagePcie : Vector Word 3 := Vector.replicate 3 0
  stageSpi  : Vector Word 3 := Vector.replicate 3 0
  /-- The microcode store: address, word, parity bits; addresses rise, an unlisted word is 0 with
  parity 0 (R142). -/
  store   : List (Nat × BitVec 128 × BitVec 8) := []
  deriving DecidableEq, Repr

/-- A wheel input (R143 to R147, Table 5.22). -/
structure WheelIn where
  cfg    : Word := 0xC601_9540
  peak   : BitVec 10 := 0
  /-- The threshold in force, 4 mV units (R144, R147). -/
  thr    : Nat := 0
  armed  : Bool := false
  /-- The tooth signal. -/
  level  : Bool := false
  /-- The frame of the latest zero crossing or decay step (R145). -/
  since  : BitVec 48 := 0
  /-- The tooth signal waits for the first leading-edge condition (R147). -/
  wait   : Bool := false
  /-- The latest leading edge of the tooth signal (R143), and the latest filtered edge recorded: its level and stamp (R431). -/
  leadAt : Option Stamp := none
  noted  : Option (Bool × Stamp) := none
  deriving DecidableEq, Repr

/-- The states of an event (Table 6.1). -/
inductive EvState where
  | free | waiting | issued | committed
  deriving DecidableEq, Repr

/-- An entry of the event table (R177, Table 6.14). -/
structure EvEntry where
  st       : EvState := .free
  angle    : Angle := 0
  extrap   : Bool := false
  late     : Bool := false
  dropped  : Bool := false
  deferred : Bool := false
  reissued : Bool := false
  chan     : BitVec 4 := 0
  action   : BitVec 3 := 0
  policy   : BitVec 2 := 0
  unit     : Bool := false
  tag      : BitVec 11 := 0
  engine   : Fin 16 := 0
  wcode    : BitVec 3 := 0
  width    : BitVec 24 := 0
  target   : Stamp := 0
  synbase  : Bool := false
  /-- Withdrawn by a squash after it was ISSUED (R186). -/
  squashed : Bool := false
  /-- The width fixed at commit, T64 units (R184). -/
  fixed    : Stamp := 0
  deriving DecidableEq, Repr

/-- The states of a tracker (R160, Table 5.13). -/
inductive TrkState where
  | stopped | seeking | synced | holdover | lost
  deriving DecidableEq, Repr

/-- The edge an EXTRA wheel expects next (Table 5.3). -/
inductive Expect where
  | regular | extra | zero
  deriving DecidableEq, Repr

/-- What converted angles to times before a publication of cycle `clk` (R184): teeth in follow mode, base and predictor. -/
structure Prediction where
  clk     : Nat
  followN : Nat
  baseT   : Stamp
  baseA   : BitVec 56
  e       : Nat
  a       : Int
  deriving DecidableEq, Repr

/-- A wheel tracker with its event table (R148 to R195). -/
structure Trk where
  cfg      : Word := 0xFFF
  cmd      : CmdReg := {}
  srch     : Bool := false
  srce     : BitVec 4 := 0
  rev      : BitVec 8 := 0
  st       : TrkState := .stopped
  cause    : BitVec 3 := 0
  valid    : Bool := false
  missrun  : Nat := 0
  lvl      : Nat := 0
  tooth    : BitVec 12 := 0
  /-- WT_STAT [10:0]. -/
  stat     : BitVec 11 := 0
  ie       : Word := 4
  note     : Word := 0
  filt     : Word := 0x0400_4000
  win      : Word := 0x7020
  limits   : Word := 0x0008_0203
  pred     : Word := 0x0403_6310
  ref      : Word := 0x0010_2008
  wpat     : BitVec 64 := 0
  /-- Classes of the last 64 teeth, bit 0 newest, and which of them have a class (R150). -/
  cls      : BitVec 64 := 0
  clsKnown : BitVec 64 := 0
  angle    : Angle := 0
  speed    : Word := 0
  toothAt  : Stamp := 0
  resid    : Word := 0
  resmax   : Word := 0
  teeth    : Word := 0
  noise    : BitVec 8 := 0
  synth    : BitVec 8 := 0
  reffail  : BitVec 8 := 0
  losts    : BitVec 8 := 0
  phaseCfg : Word := 0
  phase    : Angle := 0
  prate    : Word := 0
  /-- The predictor, T64 units with 16 fraction bits (R155). -/
  p        : Nat := 0
  a        : Int := 0
  e        : Nat := 0
  quiet    : Nat := 0
  /-- The previous accepted or synthetic edge (R151). -/
  prev     : Option Stamp := none
  expect   : Expect := .regular
  /-- The base: time and angle of the last tooth, 8 revolution bits over 48 fraction bits (R157). -/
  baseT    : Stamp := 0
  baseA    : BitVec 56 := 0
  baseSynth : Bool := false
  baseBig   : Bool := false
  /-- The highest angle published since VALID rose (R157). -/
  high     : Angle := 0
  /-- The candidate extra tooth of a seek (Table 5.5). -/
  cand     : Option Stamp := none
  good     : Nat := 0
  refrun   : Nat := 0
  /-- The extra tooth of this revolution was accepted. -/
  extraOk  : Bool := false
  /-- The leading edge whose trailing edge classifies the tooth (R150). -/
  waitCls  : Option Stamp := none
  noref    : Bool := false
  /-- The prediction that the latest publication replaced (R184). -/
  was      : Option Prediction := none
  /-- The angle this tracker counts tooth 0 from: SETREV waits for the next tooth 0 (R172). -/
  setrev   : Option (BitVec 8) := none
  /-- SYNCED, HOLDOVER or LOST at any time, and LOST entered, since the last boundary (R21). -/
  active   : Bool := false
  lostNow  : Bool := false
  /-- The cycle of the latest entry into LOST (R160). -/
  lostAt   : Nat := 0
  /-- The tracker filter's output and its restart (R146). -/
  level    : Bool := false
  filtFrom : Option Stamp := none
  /-- The tooth stamp of the slot last taken in follow mode (R384). -/
  slotStamp : Option Stamp := none
  followN  : Nat := 4096
  evcfg    : Word := 0x20C8_0000
  /-- EV_CFG as written by the end of the cycle before (R194). -/
  evNow    : Word := 0x20C8_0000
  /-- The latest cycle in which a discard of R190's item 2 or a squash acted: it has no issue step. -/
  evBar    : Option Nat := none
  evcmd    : CmdReg := {}
  evarg    : BitVec 11 := 0
  evstat   : BitVec 8 := 0
  evLate   : BitVec 8 := 0
  evDrop   : BitVec 8 := 0
  evReiss  : BitVec 8 := 0
  evExtrap : BitVec 8 := 0
  evFull   : BitVec 8 := 0
  evDefer  : BitVec 8 := 0
  evDisc   : BitVec 8 := 0
  evChfail : BitVec 8 := 0
  squashes : Word := 0
  /-- The event table; entries past the end are FREE and 0 (R177). At most 1,024 entries. -/
  table    : List EvEntry := []
  /-- Channels issued to since SYNCED was entered from SEEKING (R189). -/
  issuedTo : List Nat := []
  deriving DecidableEq, Repr

/-- The states of a shift engine (R197). -/
inductive ShState where
  | stopped | run | halted
  deriving DecidableEq, Repr

/-- What the instruction in progress of a shift engine waits for (R215, Table 7.16). -/
inductive ShWait where
  /-- Nothing: the next instruction issues. -/
  | none
  /-- Ticks, for the shifts owed: out, in. -/
  | shift (out inp : Bool)
  /-- Ticks, for the idle ticks owed after completion. -/
  | idle
  | fill | drain
  /-- The condition of an `AWAIT` issued in cycle `since`. -/
  | await (since : Nat)
  /-- The sync barrier, restarting the clock at its release or not. -/
  | barrier (restart : Bool)
  deriving DecidableEq, Repr

/-- A shift engine (R196 to R229). -/
structure Shift where
  cfg     : Word := 0
  cmd     : CmdReg := {}
  /-- SE_CLKDIV as written, the divider in force, whether it is limited (R205). -/
  clkdiv  : BitVec 24 := 0x400
  divNow  : Nat := 0x400
  divlim  : Bool := false
  /-- The phase accumulator as it stood in cycle `phAt` (R204). -/
  ph      : Nat := 0
  phAt    : Nat := 0
  ckrun   : Bool := false
  /-- SCK is at its active level, until cycle `sckFall` (R206). -/
  sck     : Bool := false
  sckFall : Nat := 0
  wrapLo  : BitVec 5 := 0
  wrapHi  : BitVec 5 := 31
  /-- A written WRAP_LO, WRAP_HI that waits for the crossing (R217). -/
  heldWrap : Option (BitVec 5 × BitVec 5) := none
  entry   : BitVec 5 := 0
  pc      : BitVec 5 := 0
  prog    : Vector (BitVec 16) 32 := Vector.replicate 32 0
  st      : ShState := .stopped
  progchg : Bool := false
  wait    : ShWait := .none
  /-- The first cycle in which the next instruction can issue (R215). -/
  nextAt  : Nat := 0
  rem     : Nat := 0
  idle    : Nat := 0
  /-- The word of a blocking autodrain that stalls the engine before its next shift (R208). -/
  drainOwed : Option Word := none
  sr      : Word := 0
  scnt    : BitVec 16 := 0
  olv     : Nat := 0
  ilv     : Nat := 0
  f       : Bool := false
  trg     : Bool := false
  /-- The cycle of the latest setting of TRG (R225). -/
  trgAt   : Option Nat := none
  cmpv    : Word := 0
  cmpm    : Word := 0xFFFF_FFFF
  /-- The queues, oldest first; how many words entered the TX queue, and how many left it, in cycle `txAt` (R210). -/
  tx      : List Word := []
  rx      : List Word := []
  txAt    : Nat := 0
  txFresh : Nat := 0
  txFreed : Nat := 0
  lo      : BitVec 8 := 0
  side    : BitVec 4 := 0
  /-- The bidirectional lanes drive (R232). -/
  drives  : Bool := false
  /-- SE_STAT [6:0]. -/
  stat    : BitVec 7 := 0
  ie      : Word := 8
  temask  : BitVec 16 := 0
  under   : BitVec 8 := 0
  overn   : BitVec 8 := 0
  htxdrop : BitVec 8 := 0
  trglost : BitVec 8 := 0
  deriving DecidableEq, Repr

/-- A job record as the line keeps it (Table 9.3): PSN after any rewind delta. -/
structure JobRec where
  psn     : Word
  flags   : BitVec 8
  vlen    : BitVec 8
  patAddr : Word
  patLen  : Word
  vdata   : Vector (BitVec 64) 5
  tag     : Word
  deriving DecidableEq, Repr

/-- The states of a slot (Table 9.1). -/
inductive SlotState where
  | free | opened | bound | rejecting
  deriving DecidableEq, Repr

/-- A slot of a product line (R257, Table 9.17). -/
structure Slot where
  st      : SlotState := .free
  psn     : Word := 0
  ang     : Angle := 0
  kind    : BitVec 2 := 0
  verdict : BitVec 2 := 0
  printed : Bool := false
  cause   : BitVec 16 := 0
  flags   : BitVec 8 := 0
  /-- The print stage has been passed (R258). -/
  print   : Bool := false
  deriving DecidableEq, Repr

/-- A completion record (Table 9.6) that waits to be written. -/
structure Completion where
  psn   : Word
  kind  : BitVec 8
  cause : BitVec 16
  ang   : Angle
  deriving DecidableEq, Repr

/-- A product line (R254 to R280, Tables 9.10 to 9.16). -/
structure Line where
  cfg       : Word := 0x6000_0000
  cmd       : CmdReg := {}
  arg       : Word := 0
  /-- JOB_STAT [12:0], EN, MARKV, REWINDING. -/
  stat      : BitVec 13 := 0
  en        : Bool := false
  markv     : Bool := false
  rewinding : Bool := false
  ie        : Word := 0x0DE0
  det       : Word := 0
  gate      : Word := 0
  gateW     : Word := 0
  vpin      : Word := 0
  pitch     : Word := 0
  /-- BIND, PRINT, VOPEN, VCLOSE, DEC, GATE. -/
  ofs       : Vector Word 6 := Vector.replicate 6 0
  ring      : Word := 0
  wr        : BitVec 16 := 0
  inp       : BitVec 16 := 0
  mark      : BitVec 16 := 0
  rwEnd     : BitVec 16 := 0
  delta     : Word := 0
  /-- The delta of the rewind in progress (R275). -/
  deltaNow  : Word := 0
  level     : BitVec 13 := 0
  cross     : BitVec 8 := 0
  psnNext   : Word := 0
  defAddr   : Word := 0
  defLen    : Word := 0
  wells     : Word := 0
  /-- Staged PSNs of the two requester ports (R267). -/
  stagePcie : Word := 0
  stageSpi  : Word := 0
  crBase    : BitVec 64 := 0
  crCfg     : Word := 0
  crWr      : BitVec 16 := 0
  crRd      : BitVec 16 := 0
  /-- PHASE of the present pass round the completion ring. -/
  phase     : Bool := true
  /-- The counters of JOB_CNT to JOB_CNT5, lowest byte first (Table 9.16). -/
  cnt       : Vector (BitVec 8) 20 := Vector.replicate 20 0
  /-- The angle of the last detection that opened a slot (R256). -/
  lastAng   : Option Angle := none
  slots     : Vector Slot 512 := Vector.replicate 512 {}
  held      : Vector (Option JobRec) 64 := Vector.replicate 64 none
  /-- Completion records that wait (R270), oldest first. -/
  queue     : List Completion := []
  /-- The cycle of the latest stage action (R258). -/
  staged    : Option Nat := none
  /-- What waits for the end of its cycle (R272): a verdict-pin edge; a record that the intake has read, and whether it is unreadable. -/
  pinEdge   : Option Stamp := none
  taken     : Option (Vector (BitVec 64) 8 × Bool) := none
  deriving DecidableEq, Repr

/-- What an access does to a Cistern word (R283, R289). -/
inductive AccKind where
  | read
  | write (v : BitVec 64) (poison : Bool)
  | part (v : BitVec 64) (be : BitVec 8) (poison : Bool)
  | add (v : BitVec 64)
  | swap (v : BitVec 64)
  deriving DecidableEq, Repr

/-- What an access is for at its port: a value of an engine; an element, a descriptor or a result of a pump;
bytes that PCI Express asked for; a word of the sideband; a word of a line's job record. -/
inductive AccUse where
  | none
  | engine (id : Nat)
  | pump
  | pcie (rid : BitVec 16) (lo hi : Nat)
  | spi
  | job (t : Fin 4)
  deriving DecidableEq, Repr

/-- An access waiting at a way (R283 to R286): its port (Table 10.1) and its word. -/
structure Access where
  port : Nat
  word : Nat
  kind : AccKind
  use  : AccUse
  deriving DecidableEq, Repr

/-- Read data that has left its way and not reached its port (R283). -/
structure Return where
  port   : Nat
  use    : AccUse
  data   : BitVec 64
  poison : Bool
  due    : Nat
  deriving DecidableEq, Repr

/-- A way of a bank: who was granted last, and from which cycle it is free (R283, R284). -/
structure Way where
  eng  : Nat := 15
  pump : Nat := 7
  free : Nat := 0
  deriving DecidableEq, Repr

/-- A Cistern bank's registers (Table 10.8). -/
structure Bank where
  own    : Word := 0
  bstat  : BitVec 4 := 0
  bie    : BitVec 4 := 1
  wl     : BitVec 8 := 0
  af     : BitVec 8 := 0
  ce     : BitVec 16 := 0
  ceaddr : Word := 0
  ueaddr : Word := 0
  afault : Word := 0
  wlost  : Word := 0
  ways   : Vector Way 4 := Vector.replicate 4 {}
  deriving DecidableEq, Repr

/-- The Cistern (R281 to R295). -/
structure Cistern where
  /-- The bytes, in canonical form: addresses rise, no listed byte is 0 (R294). -/
  mem     : List Host.Cell := []
  /-- Words whose stored check bits are inverted (R295), and poisoned words (R292). -/
  flipped : List (Nat × BitVec 16) := []
  poison  : List Nat := []
  waiting : List Access := []
  /-- The first cycle in which each port may present its next access: the one after a refusal (R286). -/
  turn    : Vector Nat 27 := Vector.replicate 27 0
  returns : List Return := []
  banks   : Vector Bank 8 := Vector.replicate 8 {}
  cmd     : CmdReg := {}
  init    : BitVec 8 := 0xFF
  scrubEn : Bool := true
  intv    : BitVec 16 := 1525
  passes  : BitVec 8 := 0
  scrubWord : Nat := 0
  /-- The cycle of the next scrubber visit, once initialisation has ended (R293). -/
  scrubAt : Option Nat := none
  inj     : BitVec 16 := 0
  refie   : Bool := false
  deriving DecidableEq, Repr

/-- An item of a well (R296): tags 0 DATA, 1 GAP, 2 IDLE, 3 POISON. -/
structure Item where
  data : BitVec 64
  tag  : BitVec 2
  par  : Bool
  deriving DecidableEq, Repr

/-- A well (R296 to R305, Table 10.9). -/
structure Well where
  cfg     : Word := 0
  cmd     : CmdReg := {}
  en      : Bool := false
  lastTag : BitVec 2 := 0
  stat    : BitVec 3 := 0
  ie      : Word := 2
  drop    : BitVec 8 := 0
  parerr  : BitVec 8 := 0
  refused : BitVec 8 := 0
  gcnt    : Word := 0
  temask  : BitVec 16 := 0
  idle    : BitVec 64 := 0
  stagePcie : Word := 0
  stageSpi  : Word := 0
  /-- The items, oldest first; how many of them were written, and how many left it, in cycle `movedAt` (R299). -/
  items   : List Item := []
  movedAt : Nat := 0
  fresh   : Nat := 0
  freed   : Nat := 0
  deriving DecidableEq, Repr

/-- The states of a pump (R306). -/
inductive PumpState where
  | stopped | run | stopping | error
  deriving DecidableEq, Repr

/-- A descriptor in hand (R308). -/
structure Desc where
  d0    : Word
  len   : Nat
  saddr : BitVec 64
  daddr : BitVec 64
  deriving DecidableEq, Repr

/-- A pump (R306 to R315, Table 10.10). -/
structure Pump where
  cfg      : Word := 0
  cmd      : CmdReg := {}
  state    : PumpState := .stopped
  wait     : Bool := false
  lastCode : BitVec 3 := 0
  stat     : BitVec 5 := 0
  ie       : Word := 0x19
  ringcfg  : Word := 0
  ring     : BitVec 64 := 0
  head     : BitVec 16 := 0
  tail     : BitVec 16 := 0
  done     : BitVec 8 := 0
  err      : BitVec 8 := 0
  desc     : Option Desc := none
  /-- A descriptor read of host memory is outstanding. -/
  fetching : Bool := false
  /-- Bytes moved, and the offset in a circular destination (PUMP_PROGRESS). -/
  moved    : Nat := 0
  offset   : Nat := 0
  /-- Bytes taken from the source. -/
  taken    : Nat := 0
  /-- 32-bit elements taken and not yet moved: the second half of a 64-bit element, or the first. -/
  half     : Option (Word × Bool) := none
  /-- A read of the source in the Cistern is under way; its data, once it has come (R283). -/
  asked    : Bool := false
  got      : Option (BitVec 64 × Bool) := none
  /-- The words, by their place in the descriptor, that a shift engine's `STOP` discards on arrival (R202). -/
  stale    : List Nat := []
  /-- Result flags POISON, WLOST, GAPSEEN, SEDISC. -/
  resPoison : Bool := false
  resWlost  : Bool := false
  resGap    : Bool := false
  resDisc   : Bool := false
  /-- The error that ends the descriptor, if one has occurred. -/
  fail     : Option (BitVec 3) := none
  /-- Host data received and not yet moved, bytes requested, lengths of the requests outstanding. -/
  hostBuf  : List (Word × Bool) := []
  hostAsked : Nat := 0
  hostOut  : List Nat := []
  /-- The first cycle in which the pump may move another element (R313). -/
  next     : Nat := 0
  deriving DecidableEq, Repr

/-- An interrupt source (R322, R324, Table 11.6). -/
structure Src where
  cfg    : Word := 0
  live   : Bool := false
  pend   : Bool := false
  active : Bool := false
  count  : BitVec 8 := 0
  deriving DecidableEq, Repr

/-- One class of a target (R332, R333, Table 11.8). -/
structure IcClass where
  thr     : BitVec 4 := 0
  timeF   : BitVec 16 := 1
  limit   : BitVec 8 := 1
  cur     : BitVec 8 := 0
  /-- Frame boundaries the coalescing timer has counted, while it runs. -/
  timer   : Option Nat := none
  /-- A message is due (R333). -/
  due     : Bool := false
  /-- A message is held (HOLDN, HOLDF). -/
  held    : Bool := false
  /-- The first cycle in which the message may go (R333, R335). -/
  ready   : Nat := 0
  /-- Sources claimed and not completed, top first (STACKED). -/
  stack   : List Nat := []
  deriving DecidableEq, Repr

/-- A host target (Tables 11.4 and 11.7). -/
structure Target where
  sleep   : Bool := false
  /-- The cycle of the latest write of SLEEP, and its value before it (R335). -/
  sleptAt : Option Nat := none
  slept   : Bool := false
  pmen    : Bool := false
  pmesent : Bool := false
  deep    : Bool := false
  order   : Bool := false
  stray   : BitVec 8 := 0
  orderN  : BitVec 8 := 0
  msgn    : BitVec 8 := 0
  msgf    : BitVec 8 := 0
  dback   : Word := 0
  normal  : IcClass := {}
  fast    : IcClass := {}
  priv    : Vector Src 16 := Vector.replicate 16 {}
  deriving DecidableEq, Repr

/-- An MSI-X vector (R333, R400). -/
structure MsixVec where
  addr : BitVec 64 := 0
  data : Word := 0
  mask : Bool := true
  deriving DecidableEq, Repr

/-- The interrupt controller (R319 to R338). -/
structure Ic where
  /-- MODE FLAT. -/
  flat  : Bool := false
  refie : Bool := false
  /-- The sources, shared and private, whose inputs fall with the next cycle: a pulse of this cycle is over,
  or a level has ended in it (R13, R320, R323). -/
  falls : List (Fin 496) := []
  privFalls : List (Fin 32 × Fin 16) := []
  /-- The status flags behind a source that host accesses have cleared in this cycle (R13). -/
  cleared : List (Fin 496 × Nat) := []
  cmd   : CmdReg := {}
  src   : Vector Src 496 := Vector.replicate 496 {}
  tgt   : Vector Target 32 := Vector.replicate 32 {}
  msix  : Vector MsixVec 64 := Vector.replicate 64 {}
  msixEn   : Bool := false
  funcMask : Bool := false
  deriving DecidableEq, Repr

/-- A record of the recorder (R428): 48 bits of its stamp are kept, as in the ring. -/
structure Record where
  type  : BitVec 6
  unit  : BitVec 10
  stamp : BitVec 48
  data  : BitVec 64
  deriving DecidableEq, Repr

/-- The recorder's states (Table 15.5). -/
inductive RecState where
  | idle | record | drain | replay
  deriving DecidableEq, Repr

/-- The recorder (R428 to R447). -/
structure Recorder where
  cfg     : Word := 0x0800_0000
  mask    : Word := 0x00FF_BEFC
  cmd     : CmdReg := {}
  state   : RecState := .idle
  frozen  : Bool := false
  wr      : BitVec 18 := 0
  /-- REC_STAT [6:0]. -/
  stat    : BitVec 7 := 0
  ie      : Word := 0x34
  rd      : BitVec 18 := 0
  wm      : BitVec 18 := 0
  cross   : BitVec 8 := 0
  post    : BitVec 17 := 0x1_0000
  origin  : BitVec 48 := 0
  lost    : Word := 0
  dcnt    : Word := 0
  /-- Staged dwords 0 to 2 of a replay record. -/
  rpq     : Vector Word 3 := Vector.replicate 3 0
  /-- REC_DIV[0] to [3]. -/
  div     : Vector Word 4 := Vector.replicate 4 0
  chmask  : Vector Word 8 := Vector.replicate 8 0
  pinmask : Vector Word 9 := Vector.replicate 9 0
  /-- START or REPLAY waits for the next frame boundary. -/
  startDue  : Bool := false
  replayDue : Option (BitVec 48) := none
  queue   : List Record := []
  /-- How many records at the queue's end were learned in cycle `freshAt` (R431). -/
  fresh   : Nat := 0
  freshAt : Nat := 0
  /-- The first cycle in which the next record can be written (R433). -/
  writeAt : Nat := 0
  lossPend : Word := 0
  postLeft : Nat := 0
  /-- TB64 bits [63:48] of the latest TIME record. -/
  timeHi  : BitVec 16 := 0
  replayQ : List Record := []
  /-- Records with their replay time (R442, R443); groups are kept with their head. -/
  inject  : List (Record × Stamp) := []
  expect  : List (Record × Stamp) := []
  /-- Output events not yet matched, with their time and the cycle in which each came about (R443). -/
  extra   : List (Record × Stamp × Nat) := []
  shift   : Stamp := 0
  /-- A divergence has been written to REC_DIV since `REPLAY` (R444). -/
  divSeen : Bool := false
  /-- TB64 bits [63:48] of the latest TIME record of the replay queue. -/
  replayHi : BitVec 16 := 0
  deriving DecidableEq, Repr

/-- An injection request of a converter (R350): kind, input, and tracker, tag and angle of an event. -/
structure Injection where
  kind  : BitVec 3
  input : BitVec 4
  trk   : BitVec 2 := 0
  tag   : BitVec 11 := 0
  ang   : Angle := 0
  /-- The cycle in which the plausibility round began whose request it is (R358). -/
  round : Nat := 0
  deriving DecidableEq, Repr

/-- An entry of the injection queue: a request, or the calibration marker (R348). -/
inductive ScItem where
  | inject (r : Injection)
  | cal
  deriving DecidableEq, Repr

/-- What a converter works for (R349, R351, R346). -/
inductive ScWork where
  | scan
  | inject (r : Injection)
  | cal
  deriving DecidableEq, Repr

/-- The states of a converter (Table 12.10). -/
inductive ScState where
  | stopped | run | cal
  deriving DecidableEq, Repr

/-- What a converter does at present, with the cycle in which it ends. -/
inductive ScPhase where
  | rest
  | switch (until_ : Nat)
  | integrate (until_ : Nat)
  | dump (until_ : Nat)
  deriving DecidableEq, Repr

/-- A result record (Table 12.4). -/
structure ScRecord where
  w0 : Word
  w1 : Word
  w2 : Word
  w3 : Word
  deriving DecidableEq, Repr

/-- A slope converter (R339 to R365, Tables 12.8 to 12.11). -/
structure Conv where
  cfg     : Word := 0x0100_0000
  cmd     : CmdReg := {}
  arg     : BitVec 4 := 0
  st      : ScState := .stopped
  calv    : Bool := false
  stat    : BitVec 8 := 0
  ie      : Word := 0x38
  tint    : Word := 8000000
  filt    : Word := 0
  ofs     : BitVec 24 := 0
  gain    : BitVec 24 := 0x40_0000
  scan    : Vector Word 16 := Vector.replicate 16 0x0100_0000
  trig    : Word := 0
  bufCfg  : Word := 0
  bufLen  : BitVec 24 := 0
  rd      : BitVec 20 := 0
  wr      : BitVec 20 := 0
  wm      : BitVec 20 := 0
  cross   : BitVec 8 := 0
  cntOvr  : BitVec 8 := 0
  cntRdrop : BitVec 8 := 0
  cntInj  : BitVec 8 := 0
  cntBuf  : BitVec 8 := 0
  last    : Vector Word 16 := Vector.replicate 16 0
  seq     : BitVec 11 := 0
  work    : ScWork := .scan
  phase   : ScPhase := .rest
  /-- The input in conversion. -/
  input   : BitVec 4 := 0
  entry   : BitVec 4 := 0
  /-- Records delivered in the present visit. -/
  done    : Nat := 0
  /-- The cycle from which the filter is settled, and whether it has delivered since its restart (R344). -/
  settleAt : Nat := 0
  settled : Bool := false
  /-- The length of the present integration, CCLK cycles (R341). -/
  len     : Nat := 0
  /-- The filter's input since its restart, as far back as the filter reaches: cycles and value, newest first (R344). -/
  hist    : List (Nat × Int) := []
  /-- The T_INT of the present integration came from the mains fallback (R342). -/
  fb      : Bool := false
  queue   : List ScItem := []
  /-- Integrations of the self-calibration so far, newest first: sum of the input and length (R346). -/
  calRaw  : List (Int × Nat) := []
  /-- The result queue (R355), and the words of its first record that the pump has taken. -/
  results : List ScRecord := []
  taken   : Nat := 0
  deriving DecidableEq, Repr

/-- What the two converters share: the mains measurement (R342) and plausibility (R358, Table 12.12). -/
structure ScShared where
  valid   : Bool := false
  period  : BitVec 27 := 0
  /-- The cycle of the latest rising edge of MAINS_SYNC (R342). -/
  edge    : Option Nat := none
  /-- The latest valid intervals, newest first, and how many came in a row. -/
  recent  : List Nat := []
  /-- The cycle of the latest valid interval's end, or of the count's start. -/
  since   : Nat := 0
  plsCfg  : Word := 390625
  plsLim  : Word := 0x2000
  plsTmo  : Word := 78125
  fail    : Bool := false
  cause   : BitVec 2 := 0
  failCnt : BitVec 8 := 0
  diff    : BitVec 24 := 0
  /-- The cycle in which the open round began, and the records delivered: result, OVR. -/
  round   : Option Nat := none
  /-- The cycle in which the latest round began, open or not. -/
  began   : Option Nat := none
  r0      : Option (Int × Bool) := none
  r1      : Option (Int × Bool) := none
  deriving DecidableEq, Repr

/-- The states of a link port (Table 13.1). -/
inductive PortState where
  | off | down | train | up | blocked
  deriving DecidableEq, Repr

/-- A link port: 0 `UP`, 1 to 3 `DN0` to `DN2` (Table 13.8). -/
structure LinkPort where
  state  : PortState := .off
  bcause : BitVec 2 := 0
  ver    : BitVec 2 := 0
  crc    : BitVec 8 := 0
  loss   : BitVec 8 := 0
  mdrop  : BitVec 8 := 0
  code   : BitVec 8 := 0
  /-- Consecutive frames in which no link frame was accepted; accepted in the present frame. -/
  missed : Nat := 0
  got    : Bool := false
  /-- The accepted frame that acts in the next frame (R393). -/
  frame  : Option LinkFrame := none
  /-- Stamp of the partner's latest time marker minus its frame number (R375). -/
  r      : Int := 0
  queue  : List LinkMsg := []
  deriving DecidableEq, Repr

/-- The line link (R366 to R397). -/
structure Link where
  cfg      : Word := 0xF800_1004
  cmd      : CmdReg := {}
  tvalid   : Bool := true
  timef    : Bool := false
  mismatch : Bool := false
  oversize : Bool := false
  path     : BitVec 20 := 0
  tlim     : Word := 0x0100_0004
  hopadj   : BitVec 16 := 0
  tofs     : Word := 0
  hopdly   : Word := 0
  stat     : BitVec 8 := 0
  ie       : Word := 0x13
  ports    : Vector LinkPort 4 := Vector.replicate 4 {}
  dver     : Word := 0
  dverAct  : Word := 0
  digest   : Word := 0
  rootver  : Word := 0
  rootdig  : Word := 0
  dcfgWheel : Vector Word 16 := Vector.replicate 16 0
  dcfgUser  : Vector Word 16 := Vector.replicate 16 0
  wheelAct  : Vector Word 16 := Vector.replicate 16 0
  sum      : SubtreeSum := { devices := 1 }
  follow   : Vector (BitVec 4) 4 := Vector.replicate 4 0
  txh      : Word := 0
  txd      : Vector Word 8 := Vector.replicate 8 0
  txq      : List LinkMsg := []
  rxq      : List LinkMsg := []
  /-- The latest 16 measurements of theta and d (R375). -/
  thetas   : List Int := []
  delays   : List Int := []
  /-- Frames in a row that satisfy R378's condition for TVALID, and that exceed LIMIT. -/
  goodRun  : Nat := 0
  badRun   : Nat := 0
  /-- Frames in a row in which R389's conditions held. -/
  obsRun   : Nat := 0
  /-- Whole frames to step at the next boundary (R376). -/
  stepDue  : Option Int := none
  /-- OBSERVE is entered, TVALID is set, the root's state is taken at the next boundary. -/
  obsDue   : Bool := false
  tvalidDue : Bool := false
  takeDue  : Option DomState := none
  /-- Frames without an accepted frame, or without the slot, for each follower (R385). -/
  stale    : Vector Nat 4 := Vector.replicate 4 0
  /-- The phase of the recovered CCLK: T64 units shifted since `UP` entered UP (R377). -/
  phase     : Int := 0
  /-- The link frames of this frame, without their messages, until they are sent (R371). -/
  sending   : Vector (Option LinkFrame) 4 := Vector.replicate 4 none
  /-- The wheel slots that replay has fed since the boundary (R442). -/
  fed       : BitVec 16 := 0
  /-- What the root last sent (R388). -/
  rootCtl  : DownCtl := {}
  /-- The port that filled each slot at the latest boundary: 0 own, then `DN` (R381). -/
  slotFrom  : Vector (Option Nat) 16 := Vector.replicate 16 none
  deriving DecidableEq, Repr

/-- The power states that SYS_PWRSTAT shows (Table 14.10). -/
inductive PwrState where
  | active | doze | sleep
  deriving DecidableEq, Repr

/-- The PCI Express function's configuration registers that software sets (Table 14.1): Memory Space Enable, the bases of
BAR0/1 and BAR2/3, Max_Payload_Size and Max_Read_Request_Size as coded, extended tags, the error reporting enables, Link
Control with the ASPM enables, and the AER registers. -/
structure PciFn where
  memOn      : Bool := false
  bar0       : BitVec 64 := 0
  bar2       : BitVec 64 := 0
  maxPayload : BitVec 3 := 0
  maxRead    : BitVec 3 := 2
  extTag     : Bool := false
  errEn      : BitVec 4 := 0
  linkCtl    : BitVec 16 := 0
  aer        : Word := 0
  aerMask    : Word := 0
  aerSev     : Word := 0x0006_2030
  corr       : Word := 0
  corrMask   : Word := 0x2000
  /-- Requests that were not supported, and which of them the header log holds. -/
  errs       : Nat := 0
  logged     : Option Nat := none
  deriving DecidableEq, Repr

/-- The SYS block outside the domain state, and the supplies (R398 to R427, Tables 14.10, 14.11). -/
structure Sys where
  strap    : BitVec 3 := 0
  cause    : BitVec 3 := 1
  lock     : Bool := false
  ready    : Bool := false
  crshold  : Bool := false
  noref    : Bool := false
  vanaOk   : Bool := false
  vkeepOk  : Bool := false
  sleepL23 : Bool := false
  pwrcmd   : CmdReg := {}
  pwr      : PwrState := .active
  sren     : Bool := true
  dlact    : Bool := false
  l23      : Bool := false
  dstate   : BitVec 2 := 0
  width    : BitVec 4 := 0
  speed    : BitVec 4 := 0
  stat     : BitVec 5 := 0
  ie       : Word := 5
  /-- PCI Express: Bus Master Enable, PME_En, PME_Status (R401, R402, Table 11.2). -/
  bme      : Bool := false
  pmeEn    : Bool := false
  pmeStat  : Bool := false
  fn       : PciFn := {}
  /-- The cycle in which a PME that has been signalled and not acknowledged is repeated (R402). -/
  pmeAt    : Option Nat := none
  /-- The cycle in which an accepted SOFT reset acts (R413), and SLEEP is entered (R418). -/
  softAt   : Option Nat := none
  sleepAt  : Option Nat := none
  /-- Wake events as SYS sees them, three cycles after they latch (R419). -/
  wakeSeen : Option Nat := none
  /-- The ERR flag that the next status byte of the sideband carries (R405). -/
  spiErr   : Bool := false
  /-- The core supplies are valid (R408, R451). -/
  coreOk   : Bool := true
  deriving DecidableEq, Repr

/-- The Calm domain (R417 to R424, Tables 14.12, 14.13). -/
structure Calm where
  cpor    : Bool := true
  slept   : Bool := false
  fcount  : BitVec 8 := 0
  wakecfg : Word := 0
  abort   : Bool := false
  wcount  : BitVec 8 := 0
  wsrc    : BitVec 8 := 0
  timer   : Word := 0
  wakecmp : Word := 0xFFFF_FFFF
  digest  : Word := 0
  dver    : Word := 0
  fault   : Vector Word 4 := Vector.replicate 4 0
  /-- The cycle and the cause code of the latest fault record (R423). -/
  faultClk : Option Nat := none
  faultCode : Nat := 0
  scratch : Vector Word 16 := Vector.replicate 16 0
  pwren   : Bool := true
  /-- Oscillator periods for which `PWREN` has been low (R418). -/
  lowFor  : Nat := 0
  /-- Levels of the wake pins. -/
  wake    : Vector Bool 4 := Vector.replicate 4 false
  deriving DecidableEq, Repr

/-- What a cycle leaves to the next one. -/
inductive Later where
  /-- CH_CMP of a channel was written: MATCH_GE is judged (R45); so for the pair whose low channel it is (R64). -/
  | compare (n : Fin 256)
  | comparePair (n : Fin 256)
  /-- CH_CFG of a channel was written: MATCH_GE, POL, ACT and WCODE take effect (R57). -/
  | chCfg (n : Fin 256)
  /-- `ENABLE` or `DISABLE` of the pin matrix takes effect (R234). -/
  | matrix
  /-- SAFE and HOLDPASS of a pin take effect (R248). -/
  | guard (p : Fin 288)
  /-- A write of WIN_CFG takes effect (R147). -/
  | winCfg (i : Fin 8) (v : Word)
  /-- A bank passes to its new owner (R288). -/
  | owner (b : Fin 8) (v : Word)
  /-- EV_CFG of a tracker takes effect (R194). -/
  | evCfg (t : Fin 4)
  /-- A register of a shift engine, by its offset, takes a written value (R217, Table 7.3). -/
  | seReg (e : Fin 32) (off : Nat) (v : Word)
  /-- A unit that DOZE does not clock has been told to run: it stands until DOZE ends (Table 14.7). -/
  | standing
  /-- What of a product line waits for the end of its cycle acts (R272). -/
  | line (t : Fin 4)
  /-- CALM_STAT.SLEPT is set (Table 14.8). -/
  | slept
  /-- The line link sends its frames, `n` cycles later still: their messages are known then (R393). -/
  | linkOut (n : Nat)
  /-- An event whose last step is done returns to FREE, and its channel is free (R180, R184). -/
  | evFree (t : Fin 4) (i : Nat)
  deriving DecidableEq, Repr

/-- The state of the device, and the commands that wait, first in, first out. -/
structure State where
  pending : List Instr := []
  /-- Counter from which free values are drawn (the model's own; log 10). -/
  free    : Nat := 0
  out     : List OutItem := []
  /-- What the present cycle leaves to the next one, in order. -/
  later   : List Later := []
  dom     : Domain := {}
  tb      : Timebase := {}
  shadows : List Shadow := []
  ch      : Vector Chan 256 := Vector.replicate 256 {}
  te      : Vector Engine 16 := Vector.replicate 16 {}
  win     : Vector WheelIn 8 := Vector.replicate 8 {}
  wt      : Vector Trk 4 := Vector.replicate 4 {}
  pin     : Vector Pin 288 := Vector.replicate 288 {}
  pins    : PinBlock := {}
  cis     : Cistern := {}
  well    : Vector Well 64 := Vector.replicate 64 {}
  pump    : Vector Pump 8 := Vector.replicate 8 {}
  ic      : Ic := {}
  link    : Link := {}
  se      : Vector Shift 32 := Vector.replicate 32 {}
  seg     : CmdReg := {}
  job     : Vector Line 4 := Vector.replicate 4 {}
  sc      : Vector Conv 2 := Vector.replicate 2 {}
  scs     : ScShared := {}
  rcd     : Recorder := {}
  sys     : Sys := {}
  calm    : Calm := {}
  deriving DecidableEq, Repr

/-- A step stops with a fault: no rule of the spec stops the device, so none is ever answered. -/
inductive Fault where
  /-- Raised by nothing: kept so that the type is inhabited (safe). -/
  | none
  deriving DecidableEq, Repr

/-- Why a command has no meaning. -/
inductive Refusal where
  /-- Raised by an arm of `exec` whose command has no meaning yet (safe). -/
  | notModelled (mnemonic : String)
  deriving DecidableEq, Repr

/-- The device right after a power-on reset: every register at the value the spec states, or at the
value the assumption log names (logs 4, 6, 12, 13). `nFAULT` is low and the backup supply is not valid,
so their sources 434 and 453 stand at 1 (R250, R320); a level that stands at reset is no event (log 22). -/
def State.reset : State :=
  { ic := { src := ((Vector.replicate 496 {}).set 434 { live := true }).set 453 { live := true } } }

end Sys2Proof.Machine
end

