-- ==== Sys2Proof/Machine/Ops.lean ====
section
/-! DEFINITION. Ops: bit fields, T64 time, saturating counters, access to the instance arrays, the
passing of time, what leaves the device. -/

namespace Sys2Proof.Machine

/-- Bits [hi:lo] of a word, as a number. -/
def fld {n : Nat} (w : BitVec n) (hi lo : Nat) : Nat := (w.toNat >>> lo) % 2 ^ (hi + 1 - lo)

/-- Bit `i` of a word. -/
def bit {n : Nat} (w : BitVec n) (i : Nat) : Bool := w.getLsbD i

/-- A word with bit `i` set to `b`. -/
def setBit {n : Nat} (w : BitVec n) (i : Nat) (b : Bool) : BitVec n :=
  if b then w ||| BitVec.ofNat n (2 ^ i) else w &&& ~~~ BitVec.ofNat n (2 ^ i)

/-- A word with bits [hi:lo] replaced by `v`. -/
def putFld {n : Nat} (w : BitVec n) (hi lo v : Nat) : BitVec n :=
  let m := (2 ^ (hi + 1 - lo) - 1) <<< lo
  (w &&& ~~~ BitVec.ofNat n m) ||| (BitVec.ofNat n (v <<< lo) &&& BitVec.ofNat n m)

/-- One for true. -/
def b2n (b : Bool) : Nat := if b then 1 else 0

/-- A register's value from its fields, each with its lowest bit. -/
def pack (l : List (Nat × Nat)) : Word := l.foldl (fun a f => a ||| BitVec.ofNat 32 (f.1 <<< f.2)) 0

/-- Low and high halves of a 64-bit value (R9). -/
def lo32 (v : BitVec 64) : Word := v.setWidth 32
def hi32 (v : BitVec 64) : Word := (v >>> 32).setWidth 32
def join (hi lo : Word) : BitVec 64 := hi ++ lo

/-- A counter of any width that saturates. -/
def addSat {n : Nat} (c : BitVec n) (k : Nat) : BitVec n := BitVec.ofNat n (min (2 ^ n - 1) (c.toNat + k))
def inc8 (c : BitVec 8) : BitVec 8 := addSat c 1

/-- T64 order (R4): `a` is later than `b`. -/
def later (a b : Stamp) : Bool := let d := (a - b).toNat; decide (0 < d ∧ d < 2 ^ 63)
/-- `a` is not earlier than `b` in that order: the time `b` has come by `a`. -/
def notBefore (a b : Stamp) : Bool := decide ((a - b).toNat < 2 ^ 63)
/-- The later one of two times. -/
def laterOf (a b : Stamp) : Stamp := if later b a then b else a
/-- The signed distance `a - b` of two times. -/
def dist (a b : Stamp) : Int := (a - b).toInt
/-- The CCLK count of a time, and a time of a CCLK count (R3). -/
def cyc (t : Stamp) : Nat := t.toNat / 64
def atCyc (c : Nat) : Stamp := BitVec.ofNat 64 (c * 64)
/-- A time with its fine bits cleared. -/
def coarse (t : Stamp) : Stamp := atCyc (cyc t)

/-- The status codes of Table 0.4. -/
def CmdStatus.code : CmdStatus → Nat
  | .ok => 0 | .stateRefused => 1 | .queued => 2 | .argInvalid => 3 | .locked => 4 | .aborted => 5

/-- The outcome of a command: status, and the refusal counter when it is refused (R15 to R17). -/
def CmdReg.answer (r : CmdReg) (st : CmdStatus) : CmdReg :=
  { status := st, refusals := if st = .stateRefused then inc8 r.refusals else r.refusals }

/-- The coding of Table 1.5. -/
def DomState.code : DomState → Nat
  | .config => 0 | .armed => 1 | .run => 2 | .hold => 3 | .safe => 4
def DomState.ofCode (c : Nat) : DomState :=
  if c = 1 then .armed else if c = 2 then .run else if c = 3 then .hold else if c = 4 then .safe else .config

/-! The instance arrays. -/

def modCh (n : Fin 256) (f : Chan → Chan) (s : State) : State := { s with ch := s.ch.set n (f s.ch[n]) }
def modTe (e : Fin 16) (f : Engine → Engine) (s : State) : State := { s with te := s.te.set e (f s.te[e]) }
def modSe (e : Fin 32) (f : Shift → Shift) (s : State) : State := { s with se := s.se.set e (f s.se[e]) }
def modWin (i : Fin 8) (f : WheelIn → WheelIn) (s : State) : State := { s with win := s.win.set i (f s.win[i]) }
def modWt (t : Fin 4) (f : Trk → Trk) (s : State) : State := { s with wt := s.wt.set t (f s.wt[t]) }
def modPin (p : Fin 288) (f : Pin → Pin) (s : State) : State := { s with pin := s.pin.set p (f s.pin[p]) }
def modPins (f : PinBlock → PinBlock) (s : State) : State := { s with pins := f s.pins }
def modWell (k : Fin 64) (f : Well → Well) (s : State) : State := { s with well := s.well.set k (f s.well[k]) }
def modPump (u : Fin 8) (f : Pump → Pump) (s : State) : State := { s with pump := s.pump.set u (f s.pump[u]) }
def modBank (b : Fin 8) (f : Bank → Bank) (s : State) : State :=
  { s with cis := { s.cis with banks := s.cis.banks.set b (f s.cis.banks[b]) } }
def modPort (k : Fin 4) (f : LinkPort → LinkPort) (s : State) : State :=
  { s with link := { s.link with ports := s.link.ports.set k (f s.link.ports[k]) } }
def modTgt (h : Fin 32) (f : Target → Target) (s : State) : State :=
  { s with ic := { s.ic with tgt := s.ic.tgt.set h (f s.ic.tgt[h]) } }
def modDom (f : Domain → Domain) (s : State) : State := { s with dom := f s.dom }
def modTb (f : Timebase → Timebase) (s : State) : State := { s with tb := f s.tb }
def modCis (f : Cistern → Cistern) (s : State) : State := { s with cis := f s.cis }
def modLink (f : Link → Link) (s : State) : State := { s with link := f s.link }
def modRcd (f : Recorder → Recorder) (s : State) : State := { s with rcd := f s.rcd }
def modSys (f : Sys → Sys) (s : State) : State := { s with sys := f s.sys }
def modCalm (f : Calm → Calm) (s : State) : State := { s with calm := f s.calm }

/-- One operation on each number below `n`, in ascending order. -/
def forAll (n : Nat) [NeZero n] (f : Fin n → State → State) (s : State) : State :=
  (List.finRange n).foldl (fun s i => f i s) s

/-- A list in the order of `le`; what is equal keeps its order. -/
def insertBy {α : Type} (le : α → α → Bool) (a : α) : List α → List α
  | [] => [a]
  | b :: r => if le a b then a :: b :: r else b :: insertBy le a r
def sortBy {α : Type} (le : α → α → Bool) (l : List α) : List α := l.foldr (insertBy le) []

/-- Something leaves the device. -/
def emit (x : OutItem) (s : State) : State := { s with out := s.out ++ [x] }

/-! Time. -/

/-- The frame number (R20). -/
def frameOf (t : Stamp) : BitVec 48 := (t >>> 16).setWidth 48
def frame (s : State) : BitVec 48 := frameOf s.tb.now
/-- The cycle of the frame, 0 to 1,023. -/
def frameCycle (s : State) : Nat := cyc s.tb.now % 1024

/-! Interrupt sources: what each edge of an input does (R322, R324). -/

/-- The coalescing count of a class takes one event (R332). -/
def IcClass.countOne (c : IcClass) : IcClass :=
  { c with cur := inc8 c.cur, timer := match c.timer with | none => some 0 | some k => some k }

def Target.countOne (t : Target) (fast : Bool) : Target :=
  if fast then { t with fast := t.fast.countOne } else { t with normal := t.normal.countOne }

/-- Whether a source counts toward coalescing: enabled with a priority. -/
def Src.counts (x : Src) : Bool := bit x.cfg 31 && decide (fld x.cfg 3 0 ≠ 0)
def Src.isFast (x : Src) : Bool := bit x.cfg 30
def Src.sense (x : Src) : Nat := fld x.cfg 29 28
/-- Pending: its input while sensed as a level, its memory otherwise (R322). -/
def Src.pending (x : Src) : Bool := if x.sense = 0 then x.live else x.pend
def Src.target (x : Src) : Fin 32 := Fin.ofNat 32 (fld x.cfg 20 16)

/-- Whether a change of the input to `lv` is an event (R324). -/
def Src.isEvent (x : Src) (lv : Bool) : Bool :=
  match x.sense with
  | 0 | 1 => !x.live && lv
  | 2 => x.live && !lv
  | _ => x.live != lv

/-- The source after its input has taken the level `lv`. -/
def Src.input (x : Src) (lv : Bool) : Src :=
  if x.isEvent lv then
    { x with live := lv, count := inc8 x.count, pend := x.pend || decide (x.sense ≠ 0) }
  else { x with live := lv }

/-- The input of shared source `k` takes the level `lv`. -/
def Ic.input (k : Fin 496) (lv : Bool) (ic : Ic) : Ic :=
  let x := ic.src[k]
  let ic' := { ic with src := ic.src.set k (x.input lv) }
  if x.isEvent lv && x.counts then
    { ic' with tgt := ic'.tgt.set x.target (ic'.tgt[x.target].countOne x.isFast) }
  else ic'

/-- The input of private source 496 + j of target `h`; 498 never counts toward coalescing (R332). -/
def Ic.inputPriv (h : Fin 32) (j : Fin 16) (lv : Bool) (ic : Ic) : Ic :=
  let t := ic.tgt[h]
  let x := t.priv[j]
  let t := { t with priv := t.priv.set j (x.input lv) }
  { ic with tgt := ic.tgt.set h (if x.isEvent lv && x.counts && decide (j ≠ 2) then t.countOne x.isFast else t) }

/-- A source that pulses is 1 in this cycle and falls with the next; several causes in one cycle make
one pulse (R320, R321, R323). -/
def Ic.pulse (k : Fin 496) (ic : Ic) : Ic := { ic.input k true with falls := k :: ic.falls }
def Ic.pulsePriv (h : Fin 32) (j : Fin 16) (ic : Ic) : Ic := { ic.inputPriv h j true with privFalls := (h, j) :: ic.privFalls }

/-- Shared source `k` pulses for one cycle. -/
def pulse (k : Fin 496) (s : State) : State := { s with ic := s.ic.pulse k }
/-- Private source 496 + j of target `h` pulses for one cycle. -/
def pulsePriv (h : Fin 32) (j : Fin 16) (s : State) : State := { s with ic := s.ic.pulsePriv h j }

/-- An event of source `k` without an edge: it is counted (R13, R324). -/
def Ic.event (k : Fin 496) (ic : Ic) : Ic :=
  let x := ic.src[k]
  let ic' := { ic with src := ic.src.set k { x with count := inc8 x.count } }
  if x.counts then { ic' with tgt := ic'.tgt.set x.target (ic'.tgt[x.target].countOne x.isFast) } else ic'

/-- The cycle ends: pulses are over, and levels that ended in it fall. -/
def Ic.fall (ic : Ic) : Ic :=
  let x := ic.falls.foldl (fun x k => x.input k false) ic
  let x := ic.privFalls.foldl (fun x p => x.inputPriv p.1 p.2 false) x
  { x with falls := [], privFalls := [], cleared := [] }

/-! The passing of cycles. -/

/-- `k` CCLK cycles pass over a device that has left nothing to them (R36). Passing or reaching a frame
boundary leaves R21 due. -/
def tick (k : Nat) (s : State) : State :=
  if k = 0 then s
  else
    let now := s.tb.now + BitVec.ofNat 64 (64 * k)
    let crossed := decide (0 < (s.tb.now.toNat % 65536 + 64 * k) / 65536)
    { s with
      ic := s.ic.fall
      tb := { s.tb with now := now, clk := s.tb.clk + k, frameDue := s.tb.frameDue || crossed
                        ended := if crossed then frameOf now - 1 else s.tb.ended } }

/-- Something is left to the next cycle, once. -/
def defer (a : Later) (s : State) : State :=
  if a ∈ s.later then s else { s with later := s.later ++ [a] }

/-- So is a register write that carries its value: of the same register the latest acts last. -/
def deferLast (a : Later) (s : State) : State := { s with later := s.later.filter (· ≠ a) ++ [a] }

/-- A refusal raises the system source for command refusals where the block enables it (R16, R320). -/
def refuse (refie : Bool) (st : CmdStatus) (s : State) : State :=
  if refie && decide (st = .stateRefused) then pulse 448 s else s

/-- A link port takes a state: `PORTCHG`, and source 420 pulses (R367). -/
def portTo (k : Fin 4) (f : LinkPort → LinkPort) (s : State) : State :=
  if (f s.link.ports[k]).state = s.link.ports[k].state then modPort k f s
  else pulse 420 (modLink (fun l => { l with stat := setBit l.stat 4 true }) (modPort k f s))

/-! The host. -/

/-- A host access is taken: the device is READY and clocked, and over PCI Express the endpoint is present and
not in D3hot (R401, R410). -/
def hostOk (p : Port) (s : State) : Bool :=
  s.sys.ready && s.tb.running &&
  match p with
  | .pcie _ => !bit s.sys.strap 0 && decide (s.sys.dstate ≠ 3)
  | .spi => true

/-- The device may write and read host memory (R401). -/
def busMaster (s : State) : Bool := s.sys.bme && decide (s.sys.dstate ≠ 3)

/-- Every block is clocked: not so in DOZE and SLEEP (Table 14.7). -/
def allClocked (s : State) : Bool := decide (s.sys.pwr = .active)

/-- What a unit does that DOZE and SLEEP do not clock. -/
def clocked (f : State → State) (s : State) : State := if allClocked s then f s else s

/-- A unit that DOZE does not clock has been told to run (Table 14.7). -/
def stands (s : State) : State := if allClocked s then s else defer .standing s

/-- An Unsupported Request: its status bit, and the header log and First Error Pointer where no unmasked error stands
(Table 14.1; log 51). -/
def PciFn.unsupported (f : PciFn) : PciFn :=
  { f with
    aer := setBit f.aer 20 true, errs := f.errs + 1
    logged := if !bit f.aerMask 20 && decide (f.aer &&& ~~~ f.aerMask = 0) then some f.errs else f.logged }

/-- A host access that is not taken: in D3hot a BAR request is answered with Unsupported Request (R401). -/
def declined (p : Port) (s : State) : State :=
  match p with
  | .pcie rid => if s.sys.ready ∧ s.tb.running ∧ ¬ bit s.sys.strap 0 ∧ s.sys.dstate = 3 then
      emit (.unsupported rid) (modSys (fun x => { x with fn := x.fn.unsupported }) s)
    else s
  | .spi => s

/-- The part of a command that a host access carries, when it is taken. -/
def host (p : Port) (f : State → State) (s : State) : State := if hostOk p s then f s else declined p s

/-- A host read of one dword: its value leaves the device; before READY the sideband shifts out 0 (R407). -/
def hostRead (p : Port) (f : State → State × Word) (s : State) : State :=
  if hostOk p s then let r := f s; emit (.readData p r.2) r.1
  else if p = .spi ∧ s.tb.running then emit (.readData .spi 0) s
  else declined p s

/-- The device is the root of its domain (R369). -/
def isRoot (s : State) : Bool := decide (s.link.ports[0].state ≠ .up)

/-- The state that SYS_DSTATE.STATE shows: in OBSERVE the root's, unless the device is the root itself (R34, R391;
log 23). Until the first frame of a new parent has acted that is what the former parent last sent, CONFIG where there
was none: the model's choice (log 77). -/
def shownState (s : State) : DomState :=
  if s.dom.observe ∧ ¬ isRoot s then .ofCode s.link.rootCtl.state.toNat else s.dom.state

end Sys2Proof.Machine
end

