-- ==== Sys2Proof/Machine/Record.lean ====
section
/-! DEFINITION. Record: appending to the recorder's queue, matching in replay, the freeze trigger
(R428 to R436, R443). -/

namespace Sys2Proof.Machine

/-- A record of an event (R428). -/
def mkRec (type unit : Nat) (stamp : Stamp) (data : BitVec 64) : Record :=
  { type := BitVec.ofNat 6 type, unit := BitVec.ofNat 10 unit, stamp := stamp.setWidth 48, data := data }

/-- Whether the masks select a record (R430); the data records of a group follow their head. -/
def Recorder.selects (r : Recorder) (type unit : Nat) : Bool :=
  bit r.mask type &&
  match type with
  | 2 => bit (r.chmask[unit / 32 % 8]'(by omega)) (unit % 32)
  | 3 => bit r.mask (16 + unit)
  | 5 | 6 => bit (r.pinmask[unit / 32 % 9]'(by omega)) (unit % 32)
  | _ => true

/-- The place of a record among those of its cycle: by type in the order of R431, then by unit. A data record
or a LOSS has none and stays with its neighbour. -/
def Record.place (x : Record) : Option Nat :=
  let of (rank : Nat) : Option Nat := some (1024 * rank + x.unit.toNat)
  match x.type.toNat with
  | 0x01 => of 0 | 0x0F => of 1 | 0x02 => of 2 | 0x03 => of 3 | 0x0A => of 4 | 0x07 => of 5 | 0x09 => of 6
  | 0x0B => of 7 | 0x0C => of 8 | 0x0D => of 9 | 0x04 => of 10 | 0x06 => of 11 | 0x05 => of 12
  | _ => none

/-- A group whose place is `k` enters the records of its cycle (R431). -/
def placeIn (k : Nat) (group : List Record) : List Record → List Record
  | [] => group
  | x :: r => if x.place.any (k < ·) then group ++ x :: r else x :: placeIn k group r

/-- A record, or a group of them, learned in cycle `clk` enters the queue in the order of that cycle, or is
lost as a whole; a LOSS record goes before it when records were lost (R431, R433, R434). `now` stamps the
LOSS record. -/
def Recorder.append (clk : Nat) (now : Stamp) (group : List Record) (r : Recorder) : Recorder :=
  if r.state ≠ .record ∨ (r.frozen ∧ r.postLeft = 0) then r
  else
    let n := group.length
    let r := if r.frozen then { r with postLeft := r.postLeft - n } else r
    let loss := if r.lossPend = 0 then [] else [mkRec 0x10 0 now (r.lossPend.setWidth 64)]
    let add := loss ++ group
    if r.queue.length + add.length ≤ 64 then
      let fresh := if r.freshAt = clk then r.fresh else 0
      let k := (group.head?.bind Record.place).getD 0
      let old := r.queue.length - fresh
      { r with queue := r.queue.take old ++ placeIn k add (r.queue.drop old), fresh := fresh + add.length, freshAt := clk
               lossPend := 0 }
    else
      { r with lost := addSat r.lost n, lossPend := addSat r.lossPend n, stat := setBit r.stat 2 true }

/-- The recorder takes the records of an input event (Table 15.1). -/
def recordIn (type unit : Nat) (stamp : Stamp) (data : BitVec 64) (follow : List Record) (s : State) : State :=
  if s.rcd.selects type unit then
    modRcd (Recorder.append s.tb.clk s.tb.now (mkRec type unit stamp data :: follow)) s
  else s

/-- An output event: recorded in RECORD; in REPLAY matched against the expect set (R443). -/
def recordOut (type unit : Nat) (stamp : Stamp) (data : BitVec 64) (s : State) : State :=
  if s.rcd.selects type unit then
    let x := mkRec type unit stamp data
    match s.rcd.state with
    | .record => modRcd (Recorder.append s.tb.clk s.tb.now [x]) s
    | .replay =>
      let same (q : Record × Stamp) : Bool :=
        decide (q.1.type = x.type ∧ q.1.unit = x.unit ∧ q.1.data = x.data ∧ q.2 = stamp)
      if s.rcd.expect.any same then modRcd (fun r => { r with expect := r.expect.eraseP same }) s
      else modRcd (fun r => { r with extra := r.extra ++ [(x, stamp, s.tb.clk)] }) s
    | _ => s
  else s

/-- A freeze begins (R436). -/
def Recorder.freeze (r : Recorder) : Recorder :=
  { r with frozen := true, stat := setBit r.stat 1 true, postLeft := r.post.toNat }

/-- A rise of `GUARD_FAULT` cause bit `c` freezes a wrapping recording that selects it (R436). -/
def recTrigger (c : Nat) (s : State) : State :=
  if s.rcd.state = .record ∧ bit s.rcd.cfg 28 ∧ ¬ s.rcd.frozen ∧ bit s.rcd.cfg (22 + c) then
    modRcd Recorder.freeze s
  else s

/-- Real inputs reach the device: it is not in REPLAY (R440). -/
def live (s : State) : Bool := decide (s.rcd.state ≠ .replay)

end Sys2Proof.Machine
end

