-- ==== Sys2Proof/Machine/Request.lean ====
section
/-! DEFINITION. Request: the scheduler's side of a posted request (R80 to R90). -/

namespace Sys2Proof.Machine

/-- The status bit that a channel request reports (Table 3.4). -/
def Entry.statusBit (x : Entry) : Nat := if x.num.toNat < 16 then fld x.arg 10 8 else 0

/-- The order of arrival: by cycle, of one cycle a channel's lower status bit first (R86). -/
def Entry.arrived (a b : Entry) : Bool :=
  if a.posted ≠ b.posted then decide (a.posted < b.posted)
  else if a.statusBit ≠ b.statusBit then decide (a.statusBit < b.statusBit)
  else decide (a.seq < b.seq)

/-- The order of R87. -/
def Entry.before (a b : Entry) : Bool :=
  let d := (a.deadline - b.deadline).toInt
  if d ≠ 0 then decide (d < 0)
  else if a.num ≠ b.num then decide (a.num < b.num) else a.arrived b

/-- A WAITF entry waits; the running entry is not eligible (R85, R91). -/
def Entry.eligible (x : Entry) : Bool := !x.running && x.waitf.isNone

/-- The first eligible entry in the order of R87 that cycle `clk` can choose (R88). -/
def Engine.best (clk : Nat) (e : Engine) : Option Entry :=
  (e.ready.filter fun x => x.eligible && decide (x.posted < clk)).foldl
    (fun b x => match b with | none => some x | some y => if x.before y then some x else some y) none

def Engine.runningEntry (e : Engine) : Option Entry := e.ready.find? (·.running)
/-- Context slots in use (Table 3.12). -/
def Engine.slots (e : Engine) : Nat := (e.ready.filter (·.slot)).length
def Engine.modEntry (seq : Nat) (f : Entry → Entry) (e : Engine) : Engine :=
  { e with ready := e.ready.map fun x => if x.seq = seq then f x else x }
def Engine.dropEntry (seq : Nat) (e : Engine) : Engine :=
  { e with ready := e.ready.filter fun x => decide (x.seq ≠ seq) }

/-- The preemption test of R90 in cycle `clk` for the entry `seq`: the abandonment cycle is the second after it. Where a
more urgent request passes the test while the cycle of another stands, it takes that cycle: the model's choice (log 78). -/
def Engine.testPreempt (clk seq : Nat) (e : Engine) : Engine :=
  match e.ready.find? (fun x => decide (x.seq = seq)), e.runningEntry with
  | some x, some r =>
    if bit e.disp[x.num.toNat] 30 && decide ((x.deadline - r.deadline).toInt < 0) && x.eligible then
      if e.slots < 4 then
        { e with
          preempt := match e.preempt with
            | none => some seq
            | some y => match e.ready.find? (fun z => decide (z.seq = y)) with
              | some z => if x.before z then some seq else some y
              | none => some seq
          preemptAt := if e.preempt.isSome then e.preemptAt else clk + 2 }
      else { e with pblock := inc8 e.pblock }
    else e
  | _, _ => e

/-- Engines keep house: from the first cycle of a frame to cycle 63 (R22, R92). -/
def inHousekeeping (s : State) : Bool := s.tb.frameDue || decide (frameCycle s < 64)

/-- The test is made now, or in cycle 64 for a request posted in housekeeping (R92). -/
def Engine.test (hk : Bool) (clk seq : Nat) (e : Engine) : Engine :=
  if hk || e.hk then { e with tests := e.tests ++ [seq] } else e.testPreempt clk seq

/-- A request is posted in cycle `clk` of frame `f` (R80 to R86, R90). That a post which merges is tested
for preemption with the entry it leaves is the model's choice (log 66). -/
def Engine.post (hk : Bool) (clk : Nat) (f : Word) (num : BitVec 6) (arg : Word) (e : Engine) : Engine :=
  if e.state = .stopped ∨ e.state = .mchk then
    { e with disc := inc8 e.disc, stat := setBit e.stat 8 true }
  else
    let d := e.disp[num.toNat]
    if !bit d 31 then { e with undisp := inc8 e.undisp, stat := setBit e.stat 5 true }
    else
      let dl := f + BitVec.ofNat 32 (fld d 23 16)
      let same (x : Entry) : Bool := decide (x.num = num ∧ x.arg = arg) && !x.running && x.ctx.isNone
      match e.ready.find? same with
      | some x =>
        let earlier (y : Entry) : Entry := if (dl - y.deadline).toInt < 0 then { y with deadline := dl } else y
        ({ e.modEntry x.seq earlier with merge := inc8 e.merge }).test hk clk x.seq
      | none =>
      if 64 ≤ e.ready.length then
        { e with qdrop := inc8 e.qdrop, stat := setBit e.stat 6 true }
      else
        let x : Entry := { num := num, arg := arg, deadline := dl, seq := e.nextSeq, posted := clk
                           entry := BitVec.ofNat 11 (fld d 10 0) }
        { e with ready := e.ready ++ [x], nextSeq := e.nextSeq + 1 }.test hk clk e.nextSeq

/-- A request reaches engine `e` (R81). -/
def post (e : Fin 16) (num : Nat) (arg : Word) (s : State) : State :=
  modTe e (Engine.post (inHousekeeping s) s.tb.clk ((frame s).setWidth 32) (BitVec.ofNat 6 num) arg) s

/-- A notice or signal goes to each engine that a mask names, in ascending order. -/
def postMask (mask : BitVec 16) (num : Nat) (arg : Word) (s : State) : State :=
  forAll 16 (fun e s => if bit mask e then post e num arg s else s) s

end Sys2Proof.Machine
end

