-- ==== Sys2Proof/Machine/Pins.lean ====
section
/-! DEFINITION. Pins: what drives a pin (Table 8.1, Table 8.2), the guards (R242 to R248), and the
causes of GUARD_FAULT (R250, R423, R436, R467). -/

namespace Sys2Proof.Machine

/-! Sources. -/

/-- `CH_STATUS.OUT`: the channel's output, inverted by POL (R59). -/
def Chan.outLevel (c : Chan) : Bool := c.out != bit c.eff 20

/-- The level of SCK (R206). -/
def Shift.sckLevel (clk : Nat) (x : Shift) : Bool := bit x.cfg 11 != (x.sck && decide (clk < x.sckFall))

/-- Lanes of a shift engine (R207). -/
def Shift.w (x : Shift) : Nat := fld x.cfg 2 0 + 1

def Pin.kind (x : Pin) : Nat := fld x.osel 31 28
def Pin.idx (x : Pin) : Nat := fld x.osel 23 16
def Pin.sub (x : Pin) : Nat := fld x.osel 2 0
def Pin.gen (x : Pin) : Bool := bit x.gcfg 31
def Pin.act (x : Pin) : Bool := bit x.gcfg 29
/-- PULL; an LVDS pair has none (Table 8.7). -/
def Pin.pull (p : Fin 288) (x : Pin) : BitVec 2 := if p.val < 256 then BitVec.ofNat 2 (fld x.io 11 10) else 0

/-- A bidirectional lane (R232). -/
def isBidir (s : State) (p : Fin 288) : Bool :=
  let x := s.pin[p]
  decide (x.kind = 3 ∧ x.idx < 32) && bit x.osel 9 &&
    decide ((s.pins.sein[x.idx % 32]'(by omega))[x.sub % 8]'(by omega) = BitVec.ofNat 9 p)

/-- The level a pin's source shows; none where nothing drives the pin (Table 8.1, row 2). -/
def pinSource (s : State) (p : Fin 288) : Option Bool :=
  let x := s.pin[p]
  let ch := s.ch[x.idx % 256]'(by omega)
  let se := s.se[x.idx % 32]'(by omega)
  match x.kind with
  | 1 => some ch.outLevel
  | 2 => if x.sub ≤ 2 then some (bit ch.code x.sub) else none
  | 3 => if x.idx < 32 ∧ x.sub < se.w ∧ (¬ isBidir s p ∨ se.drives) then some (bit se.lo x.sub) else none
  | 4 => if x.idx < 32 ∧ bit se.cfg (7 + x.sub % 4) then some (bit se.side (x.sub % 4)) else none
  | 5 => if x.idx < 32 then some (se.sckLevel s.tb.clk) else none
  | 6 => some (bit x.osel 8)
  | _ => none

/-- The pin's supply is valid: VIO of its bank, or VLV. -/
def supplyOk (s : State) (p : Fin 288) : Bool :=
  if p.val < 256 then bit s.pins.vioOk (p.val / 32) else s.pins.vlvOk

/-- The first row of Table 8.2 that applies (R240). In REPLAY it is the row that the level is computed by (R440). -/
def pinRow (s : State) (p : Fin 288) : Nat :=
  let x := s.pin[p]
  if !s.pins.en || !supplyOk s p then 1
  else if (pinSource s p).isNone then 2
  else if s.dom.state = .config ∨ s.dom.state = .armed ∨ s.dom.observe then 3
  else if s.dom.state = .safe then 4
  else if s.dom.state = .hold ∧ ¬ x.passNow then 5
  else if (x.kind = 1 ∨ x.kind = 2) ∧
      ((s.te[x.idx % 256 / 16]'(by omega)).state = .mchk ∨ (s.ch[x.idx % 256]'(by omega)).held) then 6
  else if x.forced then 7
  else 8

/-- What the ball carries for a level; an open-drain line pin does not drive high (Table 8.7). -/
def Pin.drive (p : Fin 288) (x : Pin) (lv : Bool) : Drive :=
  if lv then (if bit x.io 9 && decide (p.val < 256) then .undriven (x.pull p) else .high) else .low
/-- The safe level; none is HIZ (GUARD_CFG.SAFE). -/
def Pin.safeLevel (x : Pin) : Option Bool := match x.safeNow.toNat with | 0 => some false | 1 => some true | _ => none
/-- What the ball carries for the level of rows 3 to 8; without one it is left to its PULL. -/
def Pin.driveOf (p : Fin 288) (x : Pin) (lv : Option Bool) : Drive :=
  match lv with | some b => x.drive p b | none => .undriven (x.pull p)
def Drive.level : Drive → Option Bool
  | .undriven _ => none | .low => some false | .high => some true

/-- Entries of a history that can still be asked for: those after `lim`, and the one in force at `lim`. -/
def keepSince (lim : Stamp) : List (Stamp × Drive) → List (Stamp × Drive)
  | [] => []
  | e :: r => if later e.1 lim then e :: keepSince lim r else [e]

/-- The ball carries `d` from time `t` on. -/
def Pin.take (t : Stamp) (d : Drive) (x : Pin) : Pin :=
  if x.ball = d then x else { x with ball := d, hist := (t, d) :: keepSince (t - 0x40_0000) x.hist }

/-- The level that the device drives at the ball at time `t`; none where the ball is left to the outside. -/
def Pin.ballAt (t : Stamp) (x : Pin) : Option Bool :=
  match x.hist.find? (fun e => !later e.1 t) with | some e => e.2.level | none => none

/-- In REPLAY the ball of a pin in rows 3 to 8 keeps its safe level (R440). -/
def shownDrive (s : State) (p : Fin 288) (d : Drive) : Drive :=
  if s.rcd.state = .replay ∧ 3 ≤ s.pin[p].row then s.pin[p].driveOf p s.pin[p].safeLevel else d

/-- The kinds of pins whose edges and violations are recorded (R430). -/
def Pin.recorded (x : Pin) : Bool := decide (x.kind = 1 ∨ x.kind = 2 ∨ x.kind = 6)

/-- The recorder takes an output edge of the pin (R430). -/
def recordEdge (p : Fin 288) (t : Stamp) (lv : Bool) (s : State) : State :=
  let s := if s.pin[p].recorded then recordOut 5 p t (BitVec.ofNat 64 (b2n lv)) s else s
  modPin p (fun x => { x with lvl := some lv }) s

/-! Causes of nFAULT. -/

/-- The Calm fault record (R423, Table 14.13); it needs VKEEP. Of several causes in one cycle the record
keeps the lowest code. -/
def calmRecord (cause unit : Nat) (detail : Word) (s : State) : State :=
  if s.sys.vkeepOk then
    if s.calm.faultClk = some s.tb.clk ∧ s.calm.faultCode < cause then modCalm (fun c => { c with fcount := inc8 c.fcount }) s
    else modCalm (fun c => { c with
      fcount := inc8 c.fcount
      faultClk := some s.tb.clk
      faultCode := cause
      fault := (((c.fault.set 0 (pack [(cause, 24), (s.dom.state.code, 16), (unit, 0)])).set 1
        ((frame s).setWidth 32)).set 2 (pack [(fld (frame s) 47 32, 0)])).set 3 detail }) s
  else s

/-- The conditions of the faults MCHK and GFORCE (R467). -/
def anyMchk (s : State) : Bool := s.te.toList.any fun e => decide (e.state = .mchk)
def anyForced (s : State) : Bool := s.pin.toList.any (·.forced)

/-- A cause of GUARD_FAULT (Table 8.5): the bit is set; its rise writes the Calm record and may
freeze the recorder; at the fault's `onset`, when SYS_SAFE_MASK enables it, the device enters SAFE in
this cycle (R31, R467). -/
def raiseFault (c : Fin 5) (onset : Bool) (unit : Nat) (detail : Word) (s : State) : State :=
  let s := if bit s.pins.fault c then s
    else recTrigger c (calmRecord (c + 1) unit detail (modPins (fun b => { b with fault := setBit b.fault c true }) s))
  if onset && bit s.dom.mask c then modDom (fun d => { d with safeNow := true }) s else s

/-! Guards. -/

/-- A violation: its bit, GUARD_LAST, the record (R247). Kinds: 0 MINW, 1 GAP, 2 OPEN, 3 MAXW, 4 BUDGET. -/
def violate (p : Fin 288) (k : Fin 5) (s : State) : State :=
  let s := if s.pin[p].recorded then recordOut 6 p s.tb.now (BitVec.ofNat 64 k) s else s
  (modPins (fun b => { b with last := pack [(p, 23), (k, 20), (fld (frame s) 19 0, 0)] })
      (modPin p (fun x => { x with gstat := setBit x.gstat k true }) s))

/-- When the window in force begins and ends (R246). -/
def Pin.windowStart (x : Pin) : Stamp := x.window.setWidth 64 <<< 16
def Pin.windowEnd (x : Pin) : Stamp := (x.window + BitVec.ofNat 48 (2 ^ x.bwexpNow)).setWidth 64 <<< 16

/-- The time that an open pulse spends between two times (R246), T64 units. -/
def Pulse.spent (from_ end_ : Stamp) (q : Pulse) : Nat :=
  let o := laterOf q.lead from_
  let e := match q.till with | some u => if later end_ u then u else end_ | none => end_
  if q.counts && later e o then (e - o).toNat else 0

/-- The budget used in the window in force by time `t`, the open pulses included, T64 units (R246). -/
def Pin.usedAt (t : Stamp) (x : Pin) : Nat :=
  x.used + (x.pulses.map (Pulse.spent x.windowStart (if later t x.windowEnd then x.windowEnd else t))).sum

/-- The limit of the window (R246). -/
def Pin.limit (x : Pin) : Nat := x.budgetNow * 2 ^ x.bwexpNow

/-- When pulses, oldest first, have spent `r` since `from_` as open ones. -/
def reaches (from_ : Stamp) (r : Nat) : List Pulse → Option Stamp
  | [] => none
  | q :: l =>
    let o := laterOf q.lead from_
    match q.till with
    | none => if q.counts then some (o + BitVec.ofNat 64 r) else reaches from_ r l
    | some u =>
      if q.counts && later u o then
        if r ≤ (u - o).toNat then some (o + BitVec.ofNat 64 r) else reaches from_ (r - (u - o).toNat) l
      else reaches from_ r l

/-- When an open pulse brings the budget used to the limit, if it does in this window (R246). -/
def Pin.forceAt (x : Pin) : Option Stamp :=
  if x.benNow then (reaches x.windowStart (x.limit - x.used) x.pulses.reverse).filter fun t => later x.windowEnd t else none

/-- The trailing edge of the pulse is past at `now`, and at the ball. -/
def Pin.over (now : Stamp) (x : Pin) (q : Pulse) : Bool :=
  match q.till with | some u => !q.cut && notBefore now u && !x.edges.any fun e => decide (e.1 = u) | none => false

/-- The trailing edge of the newest of pulses that are over, else the one before. -/
def lastTrail (before : Option Stamp) (l : List Pulse) : Option Stamp :=
  match l with | q :: _ => q.till | [] => before

/-- Pulses that are over leave the list; the time of open ones stays counted. -/
def Pin.settle (now : Stamp) (x : Pin) : Pin :=
  let past (q : Pulse) : Bool := x.over now q && match q.till with | some u => !later u x.windowEnd | none => false
  let gone := x.pulses.filter past
  { x with
    pulses := x.pulses.filter fun q => !past q, prevTrail := lastTrail x.prevTrail gone
    used := x.used + (gone.map (Pulse.spent x.windowStart x.windowEnd)).sum }

/-- The previous trailing edge (R244): of the pulse before where it is decided. -/
def Pin.trailBefore (x : Pin) : Option Stamp :=
  match x.pulses with | q :: _ => q.till.or x.prevTrail | [] => x.prevTrail

/-- The check of Table 8.3 that a leading edge at `t`, judged at `now`, fails first, if any. -/
def Pin.judge (now t : Stamp) (width : Option Stamp) (x : Pin) : Option (Fin 5) :=
  let early := match x.trailBefore with | some u => decide (dist t u < (x.gap.toNat * 64 : Nat)) | none => false
  if early then some 1
  else match width with
    | none => if x.minw ≠ 0 then some 2 else none
    | some w =>
      if w.toNat < x.minw.toNat * 64 then some 0
      else if x.benNow ∧ x.limit < x.usedAt now + w.toNat then some 4
      else none

/-- A decided edge waits for its time at the ball (R235). -/
def queueEdge (p : Fin 288) (t : Stamp) (lv : Bool) (s : State) : State :=
  recordEdge p t lv (modPin p (fun x => { x with edges := x.edges ++ [(t, lv)] }) s)

/-! Table 8.2. -/

/-- The pin takes a level of rows 3 to 8 at once; a level that changes is recorded (R430). -/
def setBall (p : Fin 288) (lv : Option Bool) (s : State) : State :=
  let x := s.pin[p]
  let s := modPin p (fun x => { x.take s.tb.now (shownDrive s p (x.driveOf p lv)) with lvl := lv }) s
  match lv with
  | some b => if x.lvl = lv then s else recordEdge p s.tb.now b s
  | none => s

/-- The pin is not driven: rows 1 and 2. -/
def Pin.release (p : Fin 288) (row : Nat) (now : Stamp) (x : Pin) : Pin :=
  { x.take now (.undriven (if row = 1 then 1 else x.pull p)) with row := row, lvl := none }

/-- The pulse that is at its active level at the ball at `now`. -/
def Pin.risen (now : Stamp) (x : Pin) : Option Pulse :=
  x.pulses.find? fun q => notBefore now q.lead && match q.till with | some u => later u now | none => true

/-- A pulse in progress ends where the pin leaves row 8 and takes the level `lv` (R241, R244): its trailing edge is driven now,
if the pulse has risen and `lv` is not its active level; an edge decided for a later time is not driven, and counts for
nothing. -/
def Pin.cutPulse (now : Stamp) (lv : Option Bool) (x : Pin) : Pin :=
  let last := lastTrail x.prevTrail (x.pulses.filter fun q => match q.till with | some u => notBefore now u | none => false)
  { x with
    used := x.usedAt now, pulses := [], edges := [], hold := false, during := none
    prevTrail := match x.risen now with | some q => if lv = some q.act then last else some now | none => last }

/-- The pulse that a source at level `lv` shows when the pin enters row 8. -/
def Pin.shows (lv : Bool) (x : Pin) : Option (Bool × Bool) := if lv = x.act then some (x.gen, x.act) else none

/-- SCK of a pin entering row 8 at level `lv` falls later, at its own time (R206, R242). -/
def sckFalls (p : Fin 288) (lv : Bool) (s : State) : State :=
  let x := s.pin[p]
  let e := s.se[x.idx % 32]'(by omega)
  if x.kind = 5 ∧ x.idx < 32 ∧ e.sck ∧ s.tb.clk < e.sckFall ∧ (¬ x.gen ∨ lv = x.act) then
    let t := s.tb.now + BitVec.ofNat 64 (64 * (e.sckFall - s.tb.clk) + 256)
    if x.hold then modPin p (fun x => { x with src := !lv, hold := false, during := none }) s
    else queueEdge p t (!lv) (modPin p (fun x => { x with src := !lv, during := x.shows (!lv) }) s)
  else s

/-- A bounded pulse of a hold-pass pin completes in SAFE, until its trailing edge is at the ball (Table 8.2 row 4). -/
def Pin.completes (x : Pin) : Bool :=
  decide (x.row = 8) && x.passNow && x.pulses.any fun q => q.width.isSome && match q.till with
    | none => true
    | some u => q.cut || x.edges.any fun e => decide (e.1 = u)

/-- A leading edge at `t` passes the guard (R243 to R246). -/
def passLead (p : Fin 288) (t : Stamp) (lv : Bool) (width : Option Stamp) (s : State) : State :=
  queueEdge p t lv (modPin p (fun x =>
    let q : Pulse := { lead := t, width := width, counts := width.isNone, act := lv
                       clipAt := if x.maxw = 0 then none else some (t + BitVec.ofNat 64 (x.maxw.toNat * 64)) }
    { x with pulses := q :: x.pulses, used := x.used + (match width with | some w => w.toNat | none => 0) }) s)

/-- A leading edge is suppressed: the pin holds inactive until its source shows inactive (R245, R247). -/
def holdBack (p : Fin 288) (k : Fin 5) (s : State) : State :=
  violate p k (modPin p (fun x => { x with hold := true, suppr := inc8 x.suppr }) s)

/-- The pin enters row 8. Out of rows 3 to 7, and out of row 1 at the return of a supply, a guarded pin holds inactive until
its source shows inactive (R242, R249). Out of row 2 a guarded source that shows its active level makes a leading edge, decided
now and judged as an open pulse (R244, R235). -/
def enterLive (p : Fin 288) (s : State) : State :=
  let x := s.pin[p]
  let lv := (pinSource s p).getD false
  let active := x.gen && decide (lv = x.act)
  let s := setBall p (some (if active then !x.act else lv)) (modPin p (fun x => { x with
    row := 8, src := lv, hold := active && decide (x.row ≠ 2), during := x.shows lv }) s)
  if active ∧ x.row = 2 then
    let t := s.tb.now + 256
    match s.pin[p].judge s.tb.now t none with
    | some k => holdBack p k s
    | none => passLead p t lv none s
  else sckFalls p lv s

/-- The pin takes the row of Table 8.2 that applies now (R240 to R242, Table 8.2). -/
def refreshPin (p : Fin 288) (s : State) : State :=
  let x := s.pin[p]
  let row := pinRow s p
  if row = x.row then s
  else if row ≤ 2 then modPin p (fun x => (x.cutPulse s.tb.now none).release p row s.tb.now) s
  else if row < 8 then
    if row = 4 ∧ x.completes then s
    else setBall p x.safeLevel (modPin p (fun x => { x.cutPulse s.tb.now x.safeLevel with row := row }) s)
  else enterLive p s

/-- Every pin takes its row. -/
def refreshPins (s : State) : State := forAll 288 refreshPin s

/-! Forcing, suppression and source edges. -/

/-- The pin is forced by its energy budget (R246, R247). -/
def forcePin (p : Fin 288) (s : State) : State :=
  raiseFault 1 (!anyForced s) p 0 (refreshPin p (modPin p (fun x => { x with forced := true, force := inc8 x.force }) s))

/-- A suppressed pulse (R245, R247). -/
def suppressPulse (p : Fin 288) (k : Fin 5) (s : State) : State :=
  let s := holdBack p k s
  if k = 4 then forcePin p s else s

/-- The newest pulse of the pin ends at `t`; `cut` leaves the edge to a clip that is to come. -/
def Pin.endPulse (t : Stamp) (cut : Bool) (x : Pin) : Pin :=
  match x.pulses with
  | q :: l => if q.till.isNone then { x with pulses := { q with till := some t, cut := cut } :: l } else { x with prevTrail := some t }
  | [] => { x with prevTrail := some t }

/-- A trailing edge at `t` of the pulse that the source has shown in row 8 (R244, R245, R248). Where the clip or the force comes
first, it ends the pulse, and the source's edge is not driven. -/
def trailEdge (p : Fin 288) (gen : Bool) (t : Stamp) (lv : Bool) (s : State) : State :=
  let x := s.pin[p]
  let s := modPin p (fun x => { x with during := none }) s
  if gen && x.hold then modPin p (fun x => { x with hold := false }) s
  else
    match (x.pulses.head?.bind (·.clipAt)).filter fun c => gen && later t c with
    | some c => modPin p (Pin.endPulse c true) s
    | none =>
      let s := modPin p (Pin.endPulse t false) s
      if gen && (match x.forceAt with | some f => !later f t | none => false) then s else queueEdge p t lv s

/-- A leading edge at `t` in row 8; with GEN it is judged (R243, R244). -/
def leadEdge (p : Fin 288) (t : Stamp) (lv : Bool) (width : Option Stamp) (s : State) : State :=
  let x := s.pin[p].settle s.tb.now
  let s := modPin p (fun _ => { x with during := some (x.gen, x.act) }) s
  if !x.gen then queueEdge p t lv (modPin p (fun x => { x with pulses := { lead := t, width := width, act := lv } :: x.pulses }) s)
  else
    match x.judge s.tb.now t width with
    | some k => suppressPulse p k s
    | none => passLead p t lv width s

/-- The source of pin `p` makes an edge to `lv` that is due at the ball at `t`; `width` bounds the
pulse a leading edge starts (R243, R244). The pin moves only in row 8 of Table 8.2. -/
def sourceEdge (p : Fin 288) (t : Stamp) (lv : Bool) (width : Option Stamp) (s : State) : State :=
  let x := s.pin[p]
  let s := modPin p (fun x => { x with src := lv }) s
  if x.row ≠ 8 ∨ x.src = lv then s
  else match x.during with
    | some (gen, _) => trailEdge p gen t lv s
    | none =>
      if lv = x.act then leadEdge p t lv width s
      else queueEdge p t lv (modPin p (fun x => { x with prevTrail := some t }) s)

/-- Edges decided for later than `t`, and with them the ends of pulses, come at `t`. -/
def Pin.bringForward (t : Stamp) (x : Pin) : Pin :=
  let edges := x.edges.map fun e => if later e.1 t then (t, e.2) else e
  let ends (q : Pulse) : Bool := match q.till with | some u => later u t | none => false
  let owed := (x.pulses.filter ends).map fun q => (t, !q.act)
  { x with
    edges := edges ++ owed.filter fun e => !edges.contains e
    pulses := x.pulses.map fun q => if ends q then { q with till := some t, cut := false } else q }

/-- A pin at its safe level, or left to its PULL, follows a change of SAFE or PIN_IO (Table 8.2 rows 2 to 7). -/
def holdSafe (p : Fin 288) (s : State) : State :=
  let x := s.pin[p]
  if x.row = 2 then modPin p (Pin.release p 2 s.tb.now) s
  else if 3 ≤ x.row ∧ x.row ≤ 7 then setBall p x.safeLevel s
  else s

/-- SAFE and HOLDPASS as written take effect (R248). -/
def guardInForce (p : Fin 288) (s : State) : State :=
  holdSafe p (refreshPin p (modPin p (fun x => { x with
    passNow := bit x.gcfg 30, safeNow := BitVec.ofNat 2 (fld x.gcfg 28 27) }) s))

/-- `ENABLE` or `DISABLE` takes effect: Table 8.2 holds and no pin has a previous trailing edge, or every pin
is undriven (R234, R244). -/
def matrixInForce (on : Bool) (s : State) : State :=
  if on = s.pins.en then s
  else
  let s := if on then { s with pin := s.pin.map fun x => { x with prevTrail := none, pulses := [] } } else s
  refreshPins (modPins (fun b => { b with en := on }) s)

/-- Every pin that channel `n` drives as source KIND 1 sees the level `lv`, due at the ball at `t`. -/
def chanPins (n : Fin 256) (t : Stamp) (lv : Bool) (width : Option Stamp) (s : State) : State :=
  forAll 288 (fun p s =>
    if s.pin[p].kind = 1 ∧ s.pin[p].idx = n.val then sourceEdge p t lv width s else s) s

/-- The pins of channel `n`, KIND 1 and 2, take their rows. -/
def refreshChanPins (n : Fin 256) (s : State) : State :=
  forAll 288 (fun p s =>
    if (s.pin[p].kind = 1 ∨ s.pin[p].kind = 2) ∧ s.pin[p].idx = n.val then refreshPin p s else s) s

/-- The companion pins of channel `n` take its code at the boundary that begins cycle `t` (R61). -/
def companionPins (n : Fin 256) (t : Stamp) (s : State) : State :=
  forAll 288 (fun p s =>
    if s.pin[p].kind = 2 ∧ s.pin[p].idx = n.val ∧ s.pin[p].sub ≤ 2 then
      sourceEdge p t (bit s.ch[n].code s.pin[p].sub) none s else s) s

/-- The pins of shift engine `e` show its lanes and side pins four cycles after this one (R235). -/
def shiftPins (e : Fin 32) (s : State) : State :=
  forAll 288 (fun p s =>
    let x := s.pin[p]
    if (x.kind = 3 ∨ x.kind = 4) ∧ x.idx = e.val then
      match pinSource s p with
      | some lv => sourceEdge p (s.tb.now + 256) lv none s
      | none => s
    else s) s

/-- SCK of engine `e` takes a level at time `t`. -/
def sckPins (e : Fin 32) (t : Stamp) (lv : Bool) (s : State) : State :=
  forAll 288 (fun p s =>
    if s.pin[p].kind = 5 ∧ s.pin[p].idx = e.val then sourceEdge p t lv none s else s) s

end Sys2Proof.Machine
end

