-- ==== Sys2Proof/Machine/ScQueue.lean ====
section
/-! DEFINITION. ScQueue: requests entering a converter's injection queue, and the end of a
plausibility round (R350, R358, R359). -/

namespace Sys2Proof.Machine

def modSc (c : Fin 2) (f : Conv → Conv) (s : State) : State := { s with sc := s.sc.set c (f s.sc[c]) }
def modScs (f : ScShared → ScShared) (s : State) : State := { s with scs := f s.scs }

/-- The injections that wait; the calibration marker has room of its own (R350). -/
def Conv.injections (x : Conv) : Nat :=
  (x.queue.filter fun q => match q with | .inject _ => true | .cal => false).length
/-- A calibration marker waits. -/
def Conv.marked (x : Conv) : Bool := x.queue.contains .cal
/-- The queue takes another request. -/
def Conv.takes (x : Conv) : Bool := decide (x.st ≠ .stopped) && decide (x.injections < 8)

/-- Requests are dropped (R350). -/
def Conv.dropInj (k : Nat) (x : Conv) : Conv :=
  if k = 0 then x else { x with cntInj := addSat x.cntInj k, stat := setBit x.stat 4 true }

/-- A request enters the injection queue of converter `c` or is dropped (R350). -/
def injectRequest (c : Fin 2) (r : Injection) (s : State) : State :=
  modSc c (fun x => if x.takes then { x with queue := x.queue ++ [.inject r] } else x.dropInj 1) s

/-- A plausibility round fails (R359). -/
def plausFail (cause : BitVec 2) (s : State) : State :=
  pulse 411 (modScs (fun x => { x with fail := true, cause := cause, failCnt := inc8 x.failCnt, round := none }) s)

/-- The rise of channel `n`'s output asks each converter that names it (R350). -/
def channelInject (n : Fin 256) (s : State) : State :=
  forAll 2 (fun c s =>
    let t := s.sc[c].trig
    if bit t 31 ∧ fld t 30 23 = n.val then injectRequest c { kind := 2, input := BitVec.ofNat 4 (fld t 19 16) } s else s) s

end Sys2Proof.Machine
end

