-- ==== Sys2Proof/Machine/Channel.lean ====
section
/-! DEFINITION. Channel: the timer channels, their counters, compares, pulses, captures and register
writes (R41 to R70). Host and microcode reach a channel through the same operations (R124). -/

namespace Sys2Proof.Machine

def Chan.mode (c : Chan) : Nat := fld c.cfg 31 28
def Chan.shared (c : Chan) : Bool := bit c.cfg 27
def Chan.psc (c : Chan) : Nat := fld c.cfg 26 23
def Chan.pren (c : Chan) : Bool := bit c.cfg 22
/-! MATCH_GE, WCODE, ACT and POL as they are in force (R57). -/
def Chan.matchGe (c : Chan) : Bool := bit c.eff 21
def Chan.wcode (c : Chan) : BitVec 3 := BitVec.ofNat 3 (fld c.eff 17 15)
def Chan.edge (c : Chan) : Nat := fld c.cfg 14 13
/-- The action of COMPARE_OUT and CASCADE (R58). -/
def Chan.actCode (c : Chan) : EdgeAct :=
  match fld c.eff 19 18 with | 0 => .none | 1 => .set | 2 => .clear | _ => .toggle

/-- The other channel of a pair, and whether `n` is a low channel whose high one cascades (R63). -/
def highOf (n : Fin 256) : Fin 256 := ⟨n.val / 2 * 2 + 1, by omega⟩
def lowOf (n : Fin 256) : Fin 256 := ⟨n.val / 2 * 2, by omega⟩
def cascades (s : State) (n : Fin 256) : Bool := decide (n.val % 2 = 0) && decide (s.ch[highOf n].mode = 6)

/-- The domain state suppresses output events (R68). -/
def suppressing (s : State) : Bool :=
  s.dom.observe || !(decide (s.dom.state = .run) || decide (s.dom.state = .hold))

/-- Hardware sets bit `i` of CH_STATUS [7:0]; with its REQ bit the engine gets a request (R70). -/
def setFlag (n : Fin 256) (i : Nat) (s : State) : State :=
  let s' := modCh n (fun c => { c with flags := setBit c.flags i true }) s
  if bit s.ch[n].ie (8 + i) then
    post ⟨n.val / 16, by omega⟩ (n.val % 16) (pack [(i, 8), (n.val, 0)]) s'
  else s'

/-- An output event is suppressed; it is counted in ARMED, but not in OBSERVE, where it is suppressed as in CONFIG
(R34, R68). -/
def suppressEvent (n : Fin 256) (s : State) : State :=
  let s := setFlag n 7 s
  if s.dom.state = .armed ∧ ¬ s.dom.observe then modCh n (fun c => { c with supcnt := inc8 c.supcnt }) s else s

/-- TRG of shift engine `e` is set (R225). -/
def setTrg (e : Fin 32) (s : State) : State :=
  modSe e (fun x =>
    let x := { x with trgAt := some s.tb.clk }
    if x.trg then { x with trglost := inc8 x.trglost, stat := setBit x.stat 6 true } else { x with trg := true }) s

/-- The output of channel `n` rises: it triggers the shift engines and converters that name it
(R225, R350). -/
def channelRise (n : Fin 256) (s : State) : State :=
  channelInject n (forAll 32 (fun e s =>
    let x := s.se[e]
    if bit x.cfg 27 ∧ fld x.cfg 26 19 = n.val then setTrg e s else s) s)

/-- The channel output before POL becomes `raw`. -/
def setOut (n : Fin 256) (raw : Bool) (s : State) : State :=
  let old := s.ch[n].outLevel
  let s := modCh n (fun c => { c with out := raw }) s
  if !old && s.ch[n].outLevel then channelRise n s else s

/-- A local output edge of cycle `t`: at the ball four cycles after it (R47). -/
def localEdge (n : Fin 256) (t : Stamp) (raw : Bool) (width : Option Stamp) (s : State) : State :=
  let s := setOut n raw s
  chanPins n (t + 256) s.ch[n].outLevel width s

/-- What an action makes of the output (R58). -/
def EdgeAct.apply (a : EdgeAct) (raw : Bool) : Bool :=
  match a with
  | .none => raw | .set => true | .clear => false | .toggle => !raw | .pulse => true | .fire => true

/-- A FIRE commits in cycle `t`: the companion pins take the code (R61). -/
def fireCode (n : Fin 256) (t : Stamp) (code : BitVec 3) (s : State) : State :=
  companionPins n t (modCh n (fun c => { c with code := code }) s)

/-- A local channel stops, and with a low one the high channel of its cascade (R60, R65). -/
def stopLocal (n : Fin 256) (s : State) : State :=
  let s := modCh n (fun c => { c with run := false }) s
  if cascades s n then modCh (highOf n) (fun c => { c with run := false }) s else s

/-- The action of a match of the local counter in this cycle (R58 to R61). That a ONESHOT of width 0 stops in
its match cycle is the model's choice (log 67). -/
def matchAction (n : Fin 256) (s : State) : State :=
  let c := s.ch[n]
  let t := s.tb.now
  match c.mode with
  | 1 | 6 =>
    if c.actCode = .none then s
    else if suppressing s then suppressEvent n s
    else localEdge n t (c.actCode.apply c.out) none s
  | 2 => if suppressing s then suppressEvent n s else localEdge n t false none s
  | 3 | 8 =>
    if c.pulse then s
    else if c.width = 0 then
      let s := if suppressing s then suppressEvent n s else if c.mode = 8 then fireCode n t c.wcode s else s
      if c.mode = 3 then stopLocal n s else s
    else
      let sup := suppressing s
      let s := modCh n (fun c => { c with
        pulse := true, isLocal := true, once := decide (c.mode = 3), suppr := sup, endClk := s.tb.clk + c.width.toNat }) s
      if sup then suppressEvent n s
      else
        let s := if c.mode = 8 then fireCode n t c.wcode s else s
        localEdge n t true (some (BitVec.ofNat 64 (c.width.toNat * 64))) s
  | _ => s

/-- A match of the local counter in this cycle (R43, R45). -/
def localMatch (n : Fin 256) (s : State) : State := matchAction n (setFlag n 0 s)

/-- The counter's next step is a wrap: at CH_TOP, and at 0xFFFF_FFFF (R41, R42). -/
def Chan.wraps (c : Chan) : Bool := decide (c.cnt = c.top ∨ c.cnt = 0xFFFF_FFFF)

/-- The count has come to a compare value that can match (R43). -/
def Chan.compares (c : Chan) : Bool := decide (c.cnt = c.cmp ∧ c.cmp ≤ c.top)

/-- The counts that a capture can still ask for: those that began after cycle `lim`, and the one held then. -/
def heldSince (lim : Nat) : List Held → List Held
  | [] => []
  | h :: r => if lim < h.since then h :: heldSince lim r else [h]

/-- From cycle `from_` on the counter holds its count as it now stands (R54). -/
def Chan.note (from_ : Nat) (c : Chan) : Chan :=
  { c with hist := ⟨from_, c.cnt, c.steps⟩ :: heldSince (from_ - 0x10000) c.hist }

/-- A write of CH_CNT loads the value at the end of its cycle, which is no step (R42). -/
def Chan.loadCnt (clk : Nat) (v : Word) (c : Chan) : Chan := { c with cnt := v }.note (clk + 1)

/-- One step of a counter: a wrap to 0, else add 1; a wrap takes a held CH_TOP and the preload
(R41, R42, R46). -/
def Chan.step (c : Chan) (clk : Nat) : Chan :=
  Chan.note clk (if c.wraps then
    { c with cnt := 0, steps := c.steps + 1,
             top := c.heldTop.getD c.top, heldTop := none, cmp := if c.pren then c.pre else c.cmp }
  else { c with cnt := c.cnt + 1, steps := c.steps + 1 })

/-- A PWM output rises with the wrap unless the match is at 0 (R59). -/
def wrapAction (n : Fin 256) (s : State) : State :=
  let c := s.ch[n]
  if c.mode = 2 ∧ c.cmp ≠ 0 then
    if suppressing s then suppressEvent n s else localEdge n s.tb.now true none s
  else s

/-- The step of `n` has matched, wrapped, or both: the flags, MATCH before WRAP (R86), then the actions. -/
def afterStep (n : Fin 256) (wrap hit : Bool) (s : State) : State :=
  let s := if hit then setFlag n 0 s else s
  let s := if wrap then setFlag n 1 s else s
  let s := if wrap then wrapAction n s else s
  if hit then matchAction n s else s

/-- The counter of channel `n` steps in this cycle, with the high channel of its cascade (R41, R63, R64). -/
def counterStep (n : Fin 256) (s : State) : State :=
  let h := highOf n
  let pair := cascades s n && s.ch[h].run
  let wrap := s.ch[n].wraps
  let hw := wrap && s.ch[h].wraps
  let s := modCh n (fun c => { c.step s.tb.clk with nextStep := c.nextStep + 2 ^ c.psc }) s
  let s := if pair && wrap then modCh h (fun c => c.step s.tb.clk) s else s
  let hit := s.ch[n].compares
  let hits := pair && s.ch[h].compares && s.ch[n].compares
  let s := afterStep n wrap hit s
  if pair then afterStep h hw hits s else s

/-! Shared mode. -/

/-- The action, width and code of the shared compare (R58, R60, R61, R184). -/
def Chan.sharedAct (c : Chan) : EdgeAct × Stamp × BitVec 3 :=
  match c.mode with
  | 1 => (c.actCode, 0, 0)
  | 3 => (.pulse, c.width.setWidth 64, 0)
  | 7 => match c.event with | some v => (v.act, v.width, v.wcode) | none => (.none, 0, 0)
  | 8 => (.fire, c.width.setWidth 64, c.wcode)
  | _ => (.none, 0, 0)

/-- The horizon has been reached: TB64 is not earlier than four cycles before the target (R4, R49). -/
def Chan.atHorizon (c : Chan) (now : Stamp) : Bool := notBefore now (coarse c.tgt - 256)

/-- The compare enters its horizon in this cycle: the edge is committed (R49, R50, R61, R68, R244). -/
def commitEdge (n : Fin 256) (s : State) : State :=
  let c := s.ch[n]
  let (act, width, wcode) := c.sharedAct
  let onTime := decide (256 ≤ dist (coarse c.tgt) s.tb.now)
  let at_ := if onTime then c.tgt else s.tb.now + 256
  let sup := suppressing s && decide (act ≠ .none)
  let held := c.held
  let s := modCh n (fun c => { c with armed := true, horizon := true, edgeAt := at_, suppr := sup,
                                      act := act, actWidth := width, held := false }) s
  let s := if held then refreshChanPins n s else s
  let s := if onTime then s else setFlag n 5 s
  if act = .none then s
  else if sup then suppressEvent n s
  else
    let s := if act = .fire then fireCode n s.tb.now wcode s else s
    let pulse := decide (act = .pulse ∨ act = .fire)
    if pulse && decide (width = 0) then s
    else
      chanPins n at_ (act.apply c.out != bit c.eff 20) (if pulse then some width else none) s

/-- The compare is armed at its target and judged in this cycle (R49, R50). -/
def armCompare (n : Fin 256) (s : State) : State :=
  let s := modCh n (fun c => { c with armed := true }) s
  if s.ch[n].atHorizon s.tb.now then commitEdge n s else s

/-- The target takes a pair write (R51, R66). -/
def writeTarget (n : Fin 256) (v : Stamp) (s : State) : State :=
  let c := s.ch[n]
  if c.mode = 7 then s
  else
    let s := modCh n (fun c => { c with tgt := v }) s
    if c.armed && !c.horizon && s.ch[n].atHorizon s.tb.now then commitEdge n s else s

/-- The compare is no longer armed. -/
def Chan.disarm (c : Chan) : Chan := { c with armed := false, horizon := false }

/-- A committed action of the channel has ended: a channel being stopped stops (R67, R469). -/
def Chan.endAction (c : Chan) : Chan :=
  { c.disarm with pulse := false, event := none, run := c.run && !c.stopping, stopping := false }

/-- The target edge of a shared compare, in its cycle (R58, R60); true when the action ends with it. -/
def targetEdge (n : Fin 256) (s : State) : State × Bool :=
  let s := setFlag n 0 s
  let c := s.ch[n]
  let pulse := decide (c.act = .pulse ∨ c.act = .fire)
  -- a pin that has entered row 8 since the commit makes the edge now (R242)
  let s := if c.suppr ∨ c.act = .none ∨ (pulse ∧ c.actWidth = 0) then s
    else
      let s := setOut n (c.act.apply c.out) s
      chanPins n c.edgeAt s.ch[n].outLevel (if pulse then some c.actWidth else none) s
  if pulse ∧ c.actWidth ≠ 0 then
    (modCh n (fun c => { c with pulse := true, isLocal := false, once := false, endAt := c.edgeAt + c.actWidth }) s, false)
  else (modCh n Chan.endAction s, true)

/-- The falling edge of a pulse, in its cycle, as its rise committed it (R60, R61, R67); true when a shared
action ends with it. -/
def pulseEnd (n : Fin 256) (s : State) : State × Bool :=
  let c := s.ch[n]
  if c.isLocal then
    let s := if c.suppr then s else localEdge n s.tb.now false none s
    let s := modCh n (fun c => { c with pulse := false }) s
    (if c.once then stopLocal n s else s, false)
  else
    let s := if c.suppr then s else
      let s := setOut n false s
      chanPins n c.endAt s.ch[n].outLevel none s
    (modCh n Chan.endAction s, true)

/-! Register writes. -/

/-- In the cycle after an immediate write of CH_CMP, with MATCH_GE a value not above the count held at the end
of the write's cycle matches (R44, R45). -/
def compareWritten (n : Fin 256) (s : State) : State :=
  let c := s.ch[n]
  if c.run && !c.shared && c.matchGe && decide (c.mode ≠ 6) && decide (c.cmp ≤ c.cnt) then localMatch n s else s

/-- So for the pair of the cascade whose low channel is `l` (R64). -/
def pairWritten (l : Fin 256) (s : State) : State :=
  let h := highOf l
  if cascades s l && s.ch[h].run && s.ch[h].matchGe &&
      decide (join s.ch[h].cmp s.ch[l].cmp ≤ join s.ch[h].cnt s.ch[l].cnt) then localMatch h s
  else s

/-- An immediate write of CH_CMP; it is judged in the next cycle (R44, R45, R64). -/
def writeCmp (n : Fin 256) (v : Word) (s : State) : State :=
  let s := defer (.compare n) (modCh n (fun c => { c with cmp := v }) s)
  if cascades s (lowOf n) then defer (.comparePair (lowOf n)) s else s

/-- A write of CH_CNT (R42). -/
def writeCnt (n : Fin 256) (v : Word) (s : State) : State := modCh n (Chan.loadCnt s.tb.clk v) s

/-- A write of CH_CFG: a running channel takes ACT, POL, WCODE and MATCH_GE only; these take effect from the
next cycle (R57). -/
def writeChCfg (n : Fin 256) (v : Word) (s : State) : State :=
  let m : Word := if s.ch[n].run then 0x003F_8000 else 0xFFFF_E000
  defer (.chCfg n) (modCh n (fun c => { c with cfg := (c.cfg &&& ~~~ m) ||| (v &&& m) }) s)

/-- ACT, POL, WCODE and MATCH_GE as written take effect; a change of POL moves the output (R57). -/
def chCfgInForce (n : Fin 256) (s : State) : State :=
  let old := s.ch[n].outLevel
  let s := modCh n (fun c => { c with eff := c.cfg }) s
  let lv := s.ch[n].outLevel
  if old = lv then s
  else
    let s := if lv then channelRise n s else s
    chanPins n (s.tb.now + 256) lv none s

/-- A write of CH_FILT (R52, R53). -/
def writeFilt (n : Fin 256) (v : Word) (s : State) : State :=
  let v := v &&& 0xFFFF_E000
  let v := if fld v 31 24 = 0 then v ||| 0x0100_0000 else v
  let c := s.ch[n]
  let restart := decide (fld v 31 24 ≠ fld c.filt 31 24 ∨ fld v 15 13 ≠ fld c.filt 15 13)
  modCh n (fun c => { c with filt := v, epsCnt := 0, filtFrom := if restart then some s.tb.now else c.filtFrom }) s

def writeTop (n : Fin 256) (v : Word) (s : State) : State :=
  modCh n (fun c => if c.run then { c with heldTop := some v } else { c with top := v, heldTop := none }) s

/-! Commands (R67, Table 2.5). -/

def chStartStatus (n : Fin 256) (c : Chan) : CmdStatus :=
  if c.run ∨ (n.val % 2 = 1 ∧ c.mode = 6) then .stateRefused
  else if 9 ≤ c.mode ∨ (n.val % 2 = 0 ∧ c.mode = 6) ∨ (c.mode = 2 ∧ c.shared) ∨ (c.mode = 7 ∧ ¬ c.shared) then .argInvalid
  else .ok

/-- The channel begins to run (R41, R53, R62). -/
def Chan.begin (clk : Nat) (c : Chan) : Chan :=
  { c with run := true, nextStep := clk + 2 ^ c.psc, prevSteps := none, prevStamp := none,
           epsCnt := 0, pvalid := false, stopping := false, once := false }.note clk

/-- `START` (R41, R65). A high channel of a cascade whose own TBSEL is 1 starts with its low partner, and one
whose low partner is in shared mode does not: the model's choice (log 67). -/
def chStart (n : Fin 256) (s : State) : State :=
  let pair := cascades s n && !s.ch[n].shared
  let s := modCh n (Chan.begin s.tb.clk) s
  if pair then modCh (highOf n) (Chan.begin s.tb.clk) s else s

def chStopStatus (n : Fin 256) (c : Chan) : CmdStatus :=
  if ¬ c.run ∨ (n.val % 2 = 1 ∧ c.mode = 6) then .stateRefused else .ok

/-- STOP outside the event table's part (R67): a compare outside its horizon is disarmed, a committed
edge and a pulse complete. -/
def chStop (n : Fin 256) (s : State) : State :=
  let stopOne (c : Chan) : Chan :=
    let c := if c.armed && !c.horizon then c.disarm else c
    { c with run := false }
  let pair := cascades s n && !s.ch[n].shared
  let s := modCh n stopOne s
  if pair then modCh (highOf n) stopOne s else s

def chArmStatus (c : Chan) : CmdStatus :=
  if ¬ c.run ∨ ¬ c.shared ∨ c.mode = 7 ∨ c.armed ∨ c.pulse then .stateRefused else .ok
def chDisarmStatus (c : Chan) : CmdStatus :=
  if ¬ c.armed ∨ c.horizon ∨ c.mode = 7 then .stateRefused else .ok
def chReloadStatus (c : Chan) : CmdStatus := if c.shared then .stateRefused else .ok

/-- The outcome of a command of channel `n`. -/
def chAnswer (n : Fin 256) (st : CmdStatus) (s : State) : State :=
  refuse (bit s.ch[n].ie 16) st (modCh n (fun c => { c with cmd := c.cmd.answer st }) s)

/-- A judged command: its effect when accepted, its outcome always. -/
def chCommand (n : Fin 256) (st : CmdStatus) (f : State → State) (s : State) : State :=
  chAnswer n st (if st = .ok then f s else s)

/-! Captures. -/

/-- The first multiple of `2^k` not below `c`. -/
def roundUp (c k : Nat) : Nat := (c + 2 ^ k - 1) / 2 ^ k * 2 ^ k

/-- The cycle of the last of FN samples that agree, the first of them in cycle `c` or later (R52). -/
def lastSample (c : Stamp) (fn fpsc : Nat) : Stamp := atCyc (roundUp (cyc c) fpsc + (fn - 1) * 2 ^ fpsc)

/-- The qualification cycle of a filtered edge whose raw transition is at `t` (R52, R236): the ball is
sampled at the first boundary not before `t`, delivered three cycles later, and FN samples agree;
samples up to a filter restart do not count. -/
def qualifies (t : Stamp) (fn fpsc : Nat) (filtFrom : Option Stamp) : Stamp :=
  let c := coarse (t + 63) + 192
  lastSample (match filtFrom with | some f => laterOf c (coarse f + 64) | none => c) fn fpsc

/-- The stamp of an edge: its raw transition, or the filter's restart where that is later (R52). -/
def stampOf (t : Stamp) (filtFrom : Option Stamp) : Stamp :=
  match filtFrom with | some f => if later f t then f else t | none => t

/-- The count that the counter held in cycle `r`, a step in `r` itself made, and the steps made by then (R54). -/
def Chan.heldAt (r : Nat) (c : Chan) : Held :=
  match c.hist.find? (fun h => decide (h.since ≤ r)) with
  | some h => h
  | none => match c.hist.getLast? with | some h => h | none => ⟨r, c.cnt, c.steps⟩

/-- A qualifying edge of `n` is taken with stamp `t` in this cycle (R55, R62, R64). -/
def takeEdge (n : Fin 256) (t : Stamp) (s : State) : State :=
  let c := s.ch[n]
  let ago := (s.tb.now - coarse t).toNat / 64
  let raw := s.tb.clk - ago
  let s := if c.shared then modCh n (fun c => { c with capt := t }) s
    else modCh n (fun c => { c with cap := (c.heldAt raw).cnt }) s
  let h := highOf n
  let s := if cascades s n && !c.shared && s.ch[h].run then modCh h (fun d => { d with cap := (d.heldAt raw).cnt }) s else s
  let wasSet := bit c.flags 2
  let s := setFlag n 2 s
  let s := if wasSet then setFlag n 3 s else s
  if c.mode = 5 then
    let at_ := (c.heldAt raw).steps
    let (first, iv) : Bool × Nat :=
      if c.shared then (c.prevStamp.isNone, match c.prevStamp with | some p => (t - p).toNat | none => 0)
      else (c.prevSteps.isNone, match c.prevSteps with | some p => at_ - p | none => 0)
    let s := modCh n (fun c => { c with prevStamp := some t, prevSteps := some at_ }) s
    if first then s
    else
      let ovf := decide (2 ^ 32 ≤ iv) || (!c.shared && decide (c.top.toNat + 1 < iv))
      let s := modCh n (fun c => { c with per := if ovf then 0xFFFF_FFFF else BitVec.ofNat 32 iv, pvalid := true }) s
      if ovf then setFlag n 4 s else s
  else s

/-- The filtered input of `n` takes `level` with a raw transition at `t`, in this cycle (R52 to R55);
true when the edge is taken. -/
def filteredEdge (n : Fin 256) (level : Bool) (t : Stamp) (s : State) : State × Bool :=
  let c := s.ch[n]
  if c.level = level then (s, false)
  else
    let s := recordIn 2 n t (join (BitVec.ofNat 32 (b2n level))
      (BitVec.ofNat 32 ((s.tb.now - coarse t).toNat / 64))) [] s
    let s := modCh n (fun c => { c with level := level, filtFrom := none }) s
    let sel := match c.edge with | 0 => level | 1 => !level | 2 => true | _ => false
    if !(c.run && sel && (decide (c.mode = 4) || decide (c.mode = 5))) then (s, false)
    else if c.epsCnt < fld c.filt 23 16 then (modCh n (fun c => { c with epsCnt := c.epsCnt + 1 }) s, false)
    else (takeEdge n t (modCh n (fun c => { c with epsCnt := 0 }) s), true)

end Sys2Proof.Machine
end

