-- ==== Sys2Proof/Machine/Cis.lean ====
section
/-! DEFINITION. Cis: the Cistern's memory, its check bits and poison, ownership, and the granting of
accesses at a way (R281 to R295). -/

namespace Sys2Proof.Machine

/-! The bytes: a list of cells with rising addresses and no zero byte; an unlisted byte is 0 (R294). -/

def Memory.get : List Host.Cell → Nat → Byte
  | [], _ => 0
  | (b, v) :: r, a => if b = a then v else Memory.get r a

def Memory.put : List Host.Cell → Nat → Byte → List Host.Cell
  | [], a, v => if v = 0 then [] else [(a, v)]
  | (b, w) :: r, a, v =>
    if a < b then (if v = 0 then (b, w) :: r else (a, v) :: (b, w) :: r)
    else if a = b then (if v = 0 then r else (a, v) :: r)
    else (b, w) :: Memory.put r a v

/-- Every cell lies at or above `lo`, addresses rise, no byte is 0. -/
def Memory.wfFrom : Nat → List Host.Cell → Bool
  | _, [] => true
  | lo, (a, v) :: r => decide (lo ≤ a) && decide (v ≠ 0) && Memory.wfFrom (a + 1) r

/-- The canonical form. -/
def Memory.wf (m : List Host.Cell) : Bool := Memory.wfFrom 0 m

/-- Word `w` of the Cistern, little-endian (R9). -/
def Memory.word (m : List Host.Cell) (w : Nat) : BitVec 64 :=
  (List.range 8).foldr (fun i acc => (acc <<< 8) ||| (Memory.get m (8 * w + i)).setWidth 64) 0
def Memory.putWord (m : List Host.Cell) (w : Nat) (v : BitVec 64) : List Host.Cell :=
  (List.range 8).foldl (fun m i => Memory.put m (8 * w + i) ((v >>> (8 * i)).setWidth 8)) m

/-- Bank and way of a word (R281). -/
def bankOf (w : Nat) : Fin 8 := ⟨w / 2 ^ 18 % 8, by omega⟩
def wayOf (w : Nat) : Fin 4 := ⟨w % 4, by omega⟩

/-- The check groups that an inversion disturbs (R291, R295). -/
def groups (x : BitVec 16) : List Nat := (List.range 4).filter fun i => decide (fld x (4 * i + 3) (4 * i) ≠ 0)

/-- A word as its reader gets it (R291): data, and 0 correct, 1 corrected with its symbol, 2 uncorrectable. -/
def Cistern.decode (c : Cistern) (w : Nat) : BitVec 64 × Nat × Nat :=
  let v := Memory.word c.mem w
  let x := ((c.flipped.find? (fun p => decide (p.1 = w))).map (·.2)).getD 0
  if c.poison.contains w then (v, 2, 0)
  else match groups x with
    | [] => (v, 0, 0)
    | [i] => (v, 1, 16 + i)
    | [_, _] => (v, 2, 0)
    | _ =>
      -- three or more symbols: any of the three reports (R291)
      let r := Config.manySymbols v x
      (r.1, r.2 % 3, 16)

/-- A word is stored, with fresh check bits or poisoned (R292). -/
def Cistern.store (w : Nat) (v : BitVec 64) (poison : Bool) (c : Cistern) : Cistern :=
  { c with mem := Memory.putWord c.mem w v,
           flipped := c.flipped.filter (fun p => decide (p.1 ≠ w)),
           poison := if poison then (if c.poison.contains w then c.poison else w :: c.poison)
                     else c.poison.filter (· ≠ w) }

/-- A full-word write by the host port takes the injected check inversion (R295). -/
def Cistern.inject (w : Nat) (c : Cistern) : Cistern :=
  if c.inj = 0 then c else { c with flipped := (w, c.inj) :: c.flipped, inj := 0 }

/-- A read by `port` reports what it found (R291, R292). -/
def readWordAt (port w : Nat) (s : State) : State × BitVec 64 × Bool :=
  let (v, kind, sym) := s.cis.decode w
  let b := bankOf w
  match kind with
  | 0 => (s, v, false)
  | 1 => (modBank b (fun k => { k with ce := addSat k.ce 1, bstat := setBit k.bstat 1 true,
                                       ceaddr := pack [(sym, 27), (w, 3)] }) s, v, false)
  | _ =>
    let a := pack [(port, 27), (w, 3)]
    (raiseFault 4 true b a (modBank b (fun k => { k with bstat := setBit k.bstat 0 true, ueaddr := a }) s), v, true)

def AccKind.isWrite : AccKind → Bool
  | .read => false
  | _ => true
def AccKind.isFull : AccKind → Bool
  | .write _ _ => true
  | _ => false
/-- The access holds its way for two cycles (R283). -/
def AccKind.twoCycle : AccKind → Bool
  | .part _ _ _ | .add _ | .swap _ => true
  | _ => false

/-- Whether an owner admits a port (Table 10.2). -/
def admits (own : Word) (port : Nat) (wr : Bool) : Bool :=
  if port = 26 then true
  else match fld own 31 30 with
    | 0 => decide (port = 25)
    | 1 => decide (16 ≤ port ∧ port ≤ 23 ∨ port = 25)
    | 2 => if port < 16 then bit own port else decide (16 ≤ port ∧ port ≤ 23)
    | _ => if port = 24 then wr else decide (16 ≤ port ∧ port ≤ 23) && !wr

def admitted (s : State) (a : Access) : Bool := admits s.cis.banks[bankOf a.word].own a.port a.kind.isWrite

/-- A refused access is reported by its bank (R287). -/
def accessFault (port w : Nat) (wr : Bool) (s : State) : State :=
  modBank (bankOf w) (fun k => { k with
    bstat := setBit k.bstat 2 true, af := inc8 k.af, afault := pack [(port, 27), (b2n wr, 26), (w, 3)] }) s

/-- Bytes `be` of `v` over `old`. -/
def mergeBytes (old v : BitVec 64) (be : BitVec 8) : BitVec 64 :=
  (List.range 8).foldl (fun acc i => if bit be i then
    (acc &&& ~~~ (BitVec.ofNat 64 0xFF <<< (8 * i))) ||| (v &&& (BitVec.ofNat 64 0xFF <<< (8 * i))) else acc) old

/-- A granted access acts on its word; the data a reader gets (R283, R289, R291, R292). -/
def actOnWord (port w : Nat) (k : AccKind) (s : State) : State × BitVec 64 × Bool :=
  match k with
  | .read => readWordAt port w s
  | .write v p =>
    let s := modCis (Cistern.store w v p) s
    (if port = 25 then modCis (Cistern.inject w) s else s, v, p)
  | .part v be p =>
    let (s, old, q) := readWordAt port w s
    (modCis (Cistern.store w (mergeBytes old v be) (p || q)) s, old, q)
  | .add v =>
    let (s, old, q) := readWordAt port w s
    (modCis (Cistern.store w (old + v) q) s, old, q)
  | .swap v =>
    let (s, old, q) := readWordAt port w s
    (modCis (Cistern.store w v false) s, old, q)

/-- Whether data goes back to the port. -/
def Access.returns (a : Access) : Bool :=
  match a.kind with
  | .read | .add _ | .swap _ => true
  | _ => false

/-- Data sets out for its port, due four cycles from now (R283). -/
def sendBack (a : Access) (v : BitVec 64) (p : Bool) (s : State) : State :=
  if a.returns then
    modCis (fun c => { c with returns := c.returns ++ [⟨a.port, a.use, v, p, s.tb.clk + 4⟩] }) s
  else s

/-- The first access of `port` leaves the list of waiting ones. -/
def dropHead (port : Nat) (s : State) : State :=
  modCis (fun c => { c with waiting := c.waiting.eraseP fun a => decide (a.port = port) }) s

/-- The port of an access may present it from this cycle on (R286). -/
def turnOf (s : State) (a : Access) : Nat := if h : a.port < 27 then s.cis.turn[a.port] else 0

/-- The head access of each port (R285). -/
def headOf (s : State) (port : Nat) : Option Access := s.cis.waiting.find? fun a => decide (a.port = port)

/-- An element of `n` bytes has moved, poisoned or not (R308, R311). -/
def Pump.count (n : Nat) (poison : Bool) (x : Pump) : Pump :=
  { x with moved := x.moved + n, wait := false
           offset := match x.desc with | some d => (x.offset + n) % d.len | none => 0
           resPoison := x.resPoison || poison, stat := if poison then setBit x.stat 2 true else x.stat }

/-- A pump's element has been written to the Cistern (R308). -/
def elementWritten (a : Access) (s : State) : State :=
  if h : 16 ≤ a.port ∧ a.port < 24 then
    match a.kind with
    | .write _ p => modPump ⟨a.port - 16, by omega⟩ (Pump.count 8 p) s
    | _ => s
  else s

/-- An access is granted: it acts, and its data sets out (R283). -/
def grant (a : Access) (s : State) : State :=
  let (s, v, p) := actOnWord a.port a.word a.kind (elementWritten a (dropHead a.port s))
  sendBack a v p s

/-- A pump's descriptor in hand ends with an error (R312). -/
def failDesc (u : Fin 8) (code : BitVec 3) (s : State) : State :=
  modPump u (fun x => { x with fail := some (x.fail.getD code) }) s

/-- The head access of a port is refused at the way (R286, R287, R468). What an engine or the intake was to read
comes back unreadable; other reads return 0. -/
def refuseAccess (a : Access) (s : State) : State :=
  let s := accessFault a.port a.word a.kind.isWrite (dropHead a.port s)
  let s := modCis (fun c => { c with turn := c.turn.setIfInBounds a.port (s.tb.clk + 1) }) s
  if h : a.port < 16 then
    let s := modTe ⟨a.port, h⟩ (fun e => { e with stat := setBit e.stat 3 true }) s
    sendBack a 0 true s
  else if h : 16 ≤ a.port ∧ a.port < 24 then
    modPump ⟨a.port - 16, by omega⟩ (fun x => { x with asked := false }) (failDesc ⟨a.port - 16, by omega⟩ 3 s)
  else match a.use with
    | .job t => sendBack a 0 true { s with job := s.job.set t { s.job[t] with stat := setBit s.job[t].stat 11 true } }
    | _ => sendBack a 0 false s

/-- The access that a way grants among its candidates (R284): engines after the one last granted, the
recorder, the host port, pumps of the high class and then of the low one after the one last granted. -/
def pickAccess (s : State) (way : Way) (cands : List Access) : Option Access :=
  let at_ (p : Nat) : Option Access := cands.find? fun a => decide (a.port = p)
  let engines := (List.range 16).map fun i => (way.eng + 1 + i) % 16
  let pumps (prio : Bool) := ((List.range 8).map fun i => (way.pump + 1 + i) % 8).filter
    fun u => bit (s.pump[u % 8]'(by omega)).cfg 31 == prio
  (engines ++ [24, 25] ++ (pumps true).map (16 + ·) ++ (pumps false).map (16 + ·)).findSome? at_

/-- A full-word write loses to another one of its word (R290); a pump counts it as moved (log 68). -/
def loseWrite (a : Access) (s : State) : State :=
  let s := modBank (bankOf a.word) (fun k => { k with
    bstat := setBit k.bstat 3 true, wl := inc8 k.wl, wlost := pack [(a.port, 27), (a.word, 3)] }) (dropHead a.port s)
  if h : 16 ≤ a.port ∧ a.port < 24 then
    modPump ⟨a.port - 16, by omega⟩ (fun x => { x with resWlost := true, stat := setBit x.stat 1 true }) (elementWritten a s)
  else s

/-- The admitted accesses that stand at the head of their ports for a way (R285, R286). -/
def candidates (b : Fin 8) (w : Fin 4) (s : State) : List Access :=
  ((List.range 26).filterMap (headOf s)).filter fun a => decide (bankOf a.word = b ∧ wayOf a.word = w) && admitted s a

/-- Those of them that a way can choose among in this cycle. -/
def presented (b : Fin 8) (w : Fin 4) (s : State) : List Access :=
  (candidates b w s).filter fun a => decide (turnOf s a ≤ s.tb.clk)

/-- The way grants `a`, or the write of the lowest port where several write its word; the others are lost
(R283, R284, R290). -/
def wayTakes (b : Fin 8) (w : Fin 4) (a : Access) (s : State) : State :=
  let rivals := if a.kind.isFull then (presented b w s).filter fun x => x.kind.isFull && decide (x.word = a.word) else [a]
  let win := (rivals.find? fun x => rivals.all fun y => decide (x.port ≤ y.port)).getD a
  let s := (rivals.filter fun x => decide (x.port ≠ win.port)).foldl (fun s x => loseWrite x s) s
  let note (y : Way) : Way :=
    { eng := if win.port < 16 then win.port else y.eng
      pump := if 16 ≤ win.port ∧ win.port < 24 then win.port - 16 else y.pump
      free := s.tb.clk + (if win.kind.twoCycle then 2 else 1) }
  grant win (modBank b (fun k => { k with ways := k.ways.set w (note k.ways[w]) }) s)

/-- An access joins the end of its port's accesses. -/
def enqueue (a : Access) (s : State) : State := modCis (fun c => { c with waiting := c.waiting ++ [a] }) s

/-- The Cistern is being initialised somewhere: accesses wait (R294). -/
def initialising (s : State) (w : Nat) : Bool := bit s.cis.init (bankOf w)

/-! Wells. -/

def Well.depth (x : Well) : Nat := 16 * 2 ^ fld x.cfg 14 12
def Well.base (x : Well) : Nat := 16 * fld x.cfg 10 0
def Well.writer (x : Well) : Nat := fld x.cfg 31 26
def Well.reader (x : Well) : Nat := fld x.cfg 23 18

/-- Whether `who` (a code of Table 10.4) may write (R297). -/
def Well.writes (x : Well) (who : Nat) : Bool :=
  x.en && (decide (who ≠ 0 ∧ x.writer = who) ||
    (decide (x.writer = 2 ∧ 0x10 ≤ who ∧ who < 0x20) && bit x.temask (who - 0x10)))
def Well.reads (x : Well) (who : Nat) : Bool := x.en && decide (who ≠ 0 ∧ x.reader = who)

/-- A refused access (R298). -/
def Well.refuse (x : Well) : Well := { x with refused := inc8 x.refused, stat := setBit x.stat 2 true }

/-- Even parity over the data and the tag (R302). -/
def parity {n : Nat} (v : BitVec n) : Bool := (List.range n).foldl (fun a i => a != bit v i) false
def mkItem (v : BitVec 64) (tag : BitVec 2) : Item := { data := v, tag := tag, par := parity v != parity tag }
/-- The tag a reader gets: POISON where parity fails (R302). -/
def Item.ok (i : Item) : Bool := i.par == (parity i.data != parity i.tag)
def Item.readTag (i : Item) : BitVec 2 := if i.ok then i.tag else 3

/-- Items written, and entries freed, in cycle `clk` so far (R299). -/
def Well.freshIn (clk : Nat) (x : Well) : Nat := if x.movedAt = clk then x.fresh else 0
def Well.freedIn (clk : Nat) (x : Well) : Nat := if x.movedAt = clk then x.freed else 0
/-- What a reader sees in cycle `clk`, the count, and the entries that accept a write: an item written in a cycle is seen,
and an entry freed in it is free, from the next one (R299). -/
def Well.seen (clk : Nat) (x : Well) : List Item := x.items.take (x.items.length - x.freshIn clk)
def Well.count (clk : Nat) (x : Well) : Nat := x.items.length - x.freshIn clk + x.freedIn clk
def Well.room (clk : Nat) (x : Well) : Nat := x.depth - (x.items.length + x.freedIn clk)

/-- Whether R301 accepts a write in cycle `clk`. -/
def Well.accepts (clk : Nat) (x : Well) : Bool := if x.gcnt = 0 then decide (0 < x.room clk) else decide (2 ≤ x.room clk)

/-- An accepted writer's item enters or is dropped; a GAP item precedes the first one after drops (R301). -/
def Well.put (clk : Nat) (v : BitVec 64) (tag : BitVec 2) (x : Well) : Well :=
  if x.accepts clk then
    let add := (if x.gcnt = 0 then [] else [mkItem (x.gcnt.setWidth 64) 1]) ++ [mkItem v tag]
    { x with items := x.items ++ add, gcnt := 0, movedAt := clk, fresh := x.freshIn clk + add.length, freed := x.freedIn clk }
  else { x with gcnt := addSat x.gcnt 1, drop := inc8 x.drop, stat := setBit x.stat 0 true }

/-- Bound wells of an engine: the selectors that name well `k` (R83, Table 3.18). -/
def Engine.bindings (e : Engine) (k : Nat) : List Nat :=
  (List.range 8).filter fun i =>
    let w := e.wellsel[i / 4 % 2]'(by omega)
    bit w (8 * (i % 4) + 7) && decide (fld w (8 * (i % 4) + 5) (8 * (i % 4)) = k)

/-- `who` writes an item to well `k` (R298, R301); a count that leaves 0 posts to the engines bound (R83). -/
def wellPush (k : Fin 64) (who : Nat) (v : BitVec 64) (tag : BitVec 2) (s : State) : State :=
  let x := s.well[k]
  if !x.writes who then modWell k Well.refuse s
  else
    let clk := s.tb.clk
    let s := modWell k (Well.put clk v tag) s
    if x.count clk = 0 ∧ x.freshIn clk = 0 ∧ s.well[k].items.length ≠ x.items.length then
      forAll 16 (fun e s => (s.te[e].bindings k).foldl (fun s i => post e (24 + i) (BitVec.ofNat 32 k) s) s) s
    else s

/-- The well's oldest item leaves it (R299). -/
def wellDrop (k : Fin 64) (s : State) : State :=
  let clk := s.tb.clk
  modWell k (fun x => { x with
    items := x.items.drop 1, movedAt := clk, fresh := x.freshIn clk, freed := x.freedIn clk + min 1 x.items.length }) s

/-- An item as it is read: a parity failure is reported (R302). -/
def wellReport (k : Fin 64) (i : Item) (s : State) : State :=
  if i.ok then s else modWell k (fun x => { x with parerr := inc8 x.parerr, stat := setBit x.stat 1 true }) s

end Sys2Proof.Machine
end

