-- ==== Sys2Proof/Machine/Slots.lean ====
section
/-! DEFINITION. Slots: a product line's slots, held store, counters and completion queue, and the
closure of slots (R254 to R257, R263, R269 to R271, R277). -/

namespace Sys2Proof.Machine

/-- The counters of Table 9.16, by their place in `Line.cnt`. -/
inductive JobCnt where
  | crc | beyond | late | dup | vmiss | nojob | orphan | unread | cdrop | rptbad | vnoslot | vlate
  | bindlost | gatefail | detgap | untrk | vdup
  deriving DecidableEq, Repr

def JobCnt.idx : JobCnt → Fin 20
  | .crc => 0 | .beyond => 1 | .late => 2 | .dup => 3 | .vmiss => 4 | .nojob => 5 | .orphan => 6 | .unread => 7
  | .cdrop => 8 | .rptbad => 9 | .vnoslot => 10 | .vlate => 11 | .bindlost => 12 | .gatefail => 13
  | .detgap => 14 | .untrk => 15 | .vdup => 19

/-- A counter takes `k` events. -/
def Line.count (c : JobCnt) (k : Nat) (x : Line) : Line :=
  { x with cnt := x.cnt.set c.idx (addSat x.cnt[c.idx] k) }
/-- A counter and a flag of JOB_STAT. -/
def Line.note (c : JobCnt) (i : Nat) (x : Line) : Line := { x.count c 1 with stat := setBit x.stat i true }

def Line.size (x : Line) : Nat := 2 ^ (fld x.ring 31 28 + 4)
def Line.heldCount (x : Line) : Nat := (x.held.toList.filter Option.isSome).length
/-- AHEAD (R277). -/
def Line.ahead (x : Line) : Nat := (x.wr - x.inp).toNat + x.heldCount
def Line.inflight (x : Line) : Nat := (x.slots.toList.filter fun v => decide (v.st ≠ .free)).length

/-- The bind base: the PSN of the oldest OPEN slot, else the next PSN (R263). -/
def Line.base (x : Line) : Word :=
  x.slots.toList.foldl (fun b v => if v.st = .opened ∧ x.psnNext - b < x.psnNext - v.psn then v.psn else b) x.psnNext

/-- Held records whose PSN the bind base has passed are discarded (R263). -/
def Line.orphans (x : Line) : Line :=
  let b := x.base
  let gone (r : Option JobRec) : Bool := match r with | some r => decide ((r.psn - b).toInt < 0) | none => false
  let k := (x.held.toList.filter gone).length
  if k = 0 then x else { (x.count .orphan k) with held := x.held.map fun r => if gone r then none else r }

/-- Line `t` changes; a fall of AHEAD below the watermark is a crossing (R277). -/
def modLine (t : Fin 4) (f : Line → Line) (s : State) : State :=
  let x := s.job[t]
  let y := (f x).orphans
  let y := if x.ahead < y.level.toNat ∨ y.level.toNat ≤ y.ahead then y
    else { y with cross := inc8 y.cross, stat := setBit y.stat 10 true }
  { s with job := s.job.set t y }

/-- Entries of the completion ring, and those that can be written now: none without Bus Master Enable (R270). -/
def Line.crSize (x : Line) : Nat := 2 ^ (fld x.crCfg 23 20 + 4)
def Line.crFull (x : Line) : Bool := decide ((x.crWr.toNat + 1) % x.crSize = x.crRd.toNat % x.crSize)
def Line.crRoom (bm : Bool) (x : Line) : Nat :=
  if bm then x.crSize - 1 - (x.crWr.toNat % x.crSize + x.crSize - x.crRd.toNat % x.crSize) % x.crSize else 0

/-- A completion record is to be written. One that the ring has no room for, or that Bus Master Enable at 0 (`bm`)
holds back, waits in the queue of 32 entries or is dropped (R270). -/
def Line.complete (bm : Bool) (psn : Word) (kind : Nat) (cause : BitVec 16) (ang : Angle) (x : Line) : Line :=
  if !bit x.crCfg 31 then x
  else if 32 + x.crRoom bm ≤ x.queue.length then x.note .cdrop 8
  else { x with queue := x.queue ++ [⟨psn, BitVec.ofNat 8 kind, cause, ang⟩] }

/-- Slots in flight in the order of their PSNs, oldest first, by index (R258). -/
def Line.oldestFirst (x : Line) (f : Slot → Bool) : List (Fin 512) :=
  sortBy (fun i j => decide (x.psnNext - x.slots[j].psn ≤ x.psnNext - x.slots[i].psn))
    ((List.finRange 512).filter fun i => f x.slots[i])

/-- One slot is closed: REJECTED with its causes and the one given; a slot already decided has its
record (R269, R271). -/
def Line.closeSlot (bm : Bool) (cause : Nat) (x : Line) (i : Fin 512) : Line :=
  let v := x.slots[i]
  let x := if v.st = .rejecting then x
    else x.complete bm v.psn 5 (setBit v.cause cause true) v.ang
  { x with slots := x.slots.set i { v with st := .free } }

/-- Every slot of line `t` is closed with a cause: 8 SAFE, 9 STATE, 10 LOST (R269, Table 9.7). -/
def closeSlots (t : Fin 4) (cause : Nat) (s : State) : State :=
  let l := s.job[t].oldestFirst fun v => decide (v.st ≠ .free)
  if l.isEmpty then s
  else modLine t (fun x => let y := l.foldl (Line.closeSlot (busMaster s) cause) x
    { y with stat := setBit y.stat 12 true }) s

end Sys2Proof.Machine
end

