-- ==== Sys2Proof/Machine/Angle.lean ====
section
/-! DEFINITION. Angle: the tracker's angle, speed and conversion of an angle to a time
(R149, R157 to R159), and the predictor (R155). -/

namespace Sys2Proof.Machine

def Trk.follows (x : Trk) : Bool := bit x.cfg 30
def Trk.pattern (x : Trk) : Nat := fld x.cfg 28 27
def Trk.wsel (x : Trk) : Fin 8 := Fin.ofNat 8 (fld x.cfg 26 24)
/-- N, the regular teeth per revolution. -/
def Trk.n (x : Trk) : Nat := if x.follows then x.followN else fld x.cfg 11 0 + 1
def Trk.hi (x : Trk) : Nat := fld x.win 15 8
def Trk.lo (x : Trk) : Nat := fld x.win 7 0
def Trk.fn (x : Trk) : Nat := fld x.filt 31 24
def Trk.fpsc (x : Trk) : Nat := fld x.filt 15 13
def Trk.refPos (x : Trk) : Nat := fld x.ref 21 16
def Trk.wlen (x : Trk) : Nat := fld x.ref 6 0
def Trk.gmax (x : Trk) : Nat := fld x.pred 10 8

/-- The angle of tooth `k` in revolution `rev`, 8 revolution bits over 48 fraction bits (R149). -/
def toothAngle (n k : Nat) (rev : BitVec 8) : BitVec 56 := rev ++ BitVec.ofNat 48 (k * 2 ^ 48 / n)

/-- An A32 angle of a 56-bit one, truncated (R6). -/
def toA32 (a : BitVec 56) : Angle := (a >>> 24).setWidth 32

/-- The extrapolated angle at time `t` (R157); e carries 16 fraction bits. -/
def Trk.angleAt (x : Trk) (t : Stamp) : BitVec 56 :=
  x.baseA + BitVec.ofInt 56 (Int.fdiv (dist t x.baseT * 2 ^ 64) (x.n * x.e : Nat))

/-- The published angle at time `t`: it never decreases (R157); held while VALID is 0 (R160). -/
def Trk.published (x : Trk) (t : Stamp) : Angle :=
  if x.valid then
    let a := toA32 (x.angleAt t)
    if (a - x.high).toInt < 0 then x.high else a
  else x.angle

/-- The speed (R158), saturating. -/
def speedOf (n e : Nat) : Word := BitVec.ofNat 32 (min (2 ^ 32 - 1) (2 ^ 62 / (n * e)))

/-- The interval of the `j`-th tooth ahead, with 16 fraction bits (R159). -/
def Trk.interval (x : Trk) (j : Nat) : Int := max (x.e + min j 7 * x.a) (12800 * 2 ^ 16)

/-- The sum of the first `n` intervals: from the eighth on they are equal. -/
def Trk.intervals (x : Trk) (n : Nat) : Int :=
  (List.range (min n 8)).foldl (fun t j => t + x.interval j) 0 + (n - 8 : Nat) * x.interval 7

/-- The predicted time of an angle (R159), without the test of VALID. -/
def Trk.timeOf (x : Trk) (a : Angle) : Stamp :=
  let d := ((a.setWidth 56 <<< 24) - x.baseA).toInt
  let y := (d * x.n) >>> 32
  let t : Int := if y < 0 then (y * x.e) >>> 16
    else
      let n := (y / 65536).toNat
      x.intervals n + ((x.interval n * (y % 65536)) >>> 16)
  let r := x.baseT + BitVec.ofInt 64 (t >>> 16)
  if r = 0 then 1 else r

/-- The tracker with the prediction that was in force at the start of cycle `clk` (R184). -/
def Trk.atStart (clk : Nat) (x : Trk) : Trk :=
  match x.was with
  | some w => if w.clk = clk then { x with followN := w.followN, baseT := w.baseT, baseA := w.baseA, e := w.e, a := w.a } else x
  | none => x

/-- The prediction is kept as a publication of cycle `clk` replaces it (R184). -/
def Trk.keepPrediction (clk : Nat) (x : Trk) : Trk :=
  { x with was := some ⟨clk, x.followN, x.baseT, x.baseA, x.e, x.a⟩ }

/-- `A2T` (R159): 0 means no prediction. -/
def Trk.a2t (x : Trk) (a : Angle) : Stamp := if x.valid then x.timeOf a else 0

/-- The predictor takes a measured interval (R155); true for a large residual. -/
def Trk.learn (x : Trk) (m : Nat) : Trk × Bool :=
  let r : Int := (m * 65536 : Nat) - x.e
  let ar := r.natAbs
  let rtol := fld x.pred 31 24
  let big := decide (ar * 1024 > rtol * x.e)
  let small := decide (ar * 2048 ≤ rtol * x.e)
  let drop := small && decide (fld x.pred 7 0 ≤ x.quiet + 1)
  let lvl := if big then x.gmax else if drop then x.lvl - 1 else x.lvl
  let quiet := if big || !small || drop then 0 else x.quiet + 1
  let ka := fld x.pred 19 16 - lvl
  let kb := fld x.pred 15 12 - lvl
  let p : Int := x.e + (r >>> ka)
  let a := x.a + (r >>> kb)
  let sat (v : Int) : Word := BitVec.ofInt 32 (max (-(2 ^ 31)) (min (2 ^ 31 - 1) v))
  ({ x with lvl := lvl, quiet := quiet, p := p.toNat, a := a, e := (p + a).toNat,
            resid := sat (r >>> 16),
            resmax := if x.resmax.toNat < ar / 65536 then BitVec.ofNat 32 (min (2 ^ 32 - 1) (ar / 65536)) else x.resmax },
   big)

/-- The predictor passes a synthetic tooth (R155). -/
def Trk.coast (x : Trk) : Trk :=
  { x with p := x.e, e := ((x.e : Int) + x.a).toNat, lvl := x.gmax, quiet := 0 }

/-- FAST or SLOW, by their cause codes (R156). -/
def Trk.range (x : Trk) : Option (BitVec 3) :=
  if x.e < 12800 * 65536 then some 4 else if 2 ^ 48 ≤ x.e then some 5 else none

end Sys2Proof.Machine
end

