-- ==== Sys2Proof/Machine/Events.lean ====
section
/-! DEFINITION. Events: the event tables, placement, issue, commit, squash, discard (R177 to R195, R469). -/

namespace Sys2Proof.Machine

def Trk.entry (x : Trk) (i : Nat) : EvEntry := x.table.getD i {}
def Trk.modEntry (i : Nat) (f : EvEntry → EvEntry) (x : Trk) : Trk := { x with table := x.table.modify i f }
def modEv (t : Fin 4) (i : Nat) (f : EvEntry → EvEntry) (s : State) : State := modWt t (Trk.modEntry i f) s
/-! EV_CFG as it is in force (R194). -/
def Trk.lead (x : Trk) : Nat := fld x.evNow 31 24
def Trk.runF (x : Trk) : Nat := fld x.evNow 23 19
def Trk.everyOn (x : Trk) : Bool := bit x.evNow 3
def Trk.nrefOn (x : Trk) : Bool := bit x.evNow 2
def Trk.ndiscOn (x : Trk) : Bool := bit x.evNow 1
def Trk.noverOn (x : Trk) : Bool := bit x.evNow 0

def EvState.code : EvState → Nat
  | .free => 0 | .waiting => 1 | .issued => 2 | .committed => 3
def EvEntry.uncommitted (v : EvEntry) : Bool := decide (v.st = .waiting ∨ v.st = .issued)
/-- The event needs a channel. -/
def EvEntry.usesChannel (v : EvEntry) : Bool := decide (v.action < 4)
/-- The channel of the event: within its engine's cluster. -/
def EvEntry.channel (v : EvEntry) : Fin 256 := ⟨16 * v.engine.val + v.chan.toNat, by have := v.chan.isLt; omega⟩
/-- What a channel does for the event (Table 6.4). -/
def EvEntry.act (v : EvEntry) : EdgeAct :=
  match v.action.toNat with | 0 => .set | 1 => .clear | 2 => .pulse | 3 => .fire | _ => .none

/-- An event notice to the engine that placed the event (R193). -/
def eventNotice (t : Fin 4) (i code : Nat) (s : State) : State :=
  let v := s.wt[t].entry i
  post v.engine (17 + 2 * t) (pack [(code, 24), (v.tag.toNat, 10), (i, 0)]) s

/-- The channel gives up the event without an edge. A channel whose STOP waits for that event stops with it: where a TB64
load ends the event, the model's choice (log 79). -/
def withdraw (v : EvEntry) (s : State) : State :=
  if (v.st = .issued ∨ v.st = .committed) ∧ v.usesChannel then
    modCh v.channel (fun c => { c.disarm with event := none, run := c.run && !c.stopping, stopping := false }) s
  else s

/-- The indices of the entries that satisfy a test. -/
def Trk.indices (x : Trk) (f : EvEntry → Bool) : List Nat :=
  (List.range x.table.length).filter fun i => f (x.entry i)

/-- Entry `i` returns to FREE; its contents stay (R177). -/
def freeEntry (t : Fin 4) (i : Nat) (s : State) : State :=
  modEv t i (fun v => { v with st := .free }) (withdraw (s.wt[t].entry i) s)

/-- With NDISC, each engine that placed events discarded together gets one notice with their number (R188). -/
def discardNotices (t : Fin 4) (engs : List (Fin 16)) (s : State) : State :=
  if s.wt[t].ndiscOn then
    forAll 16 (fun e s => if engs.contains e then
      post e (17 + 2 * t) (pack [(0x14, 24), (min 2047 (engs.count e), 0)]) s else s) s
  else s

/-- Events that satisfy a test return to FREE without an edge; the engines that placed them (R188). -/
def dropEvents (t : Fin 4) (f : EvEntry → Bool) (s : State) : State × List (Fin 16) :=
  let l := s.wt[t].indices f
  (l.foldl (fun s i => freeEntry t i s) s, l.map fun i => (s.wt[t].entry i).engine)

/-- Events that satisfy a test are discarded, counted and reported (R188). -/
def discardEvents (t : Fin 4) (f : EvEntry → Bool) (s : State) : State :=
  let (s, engs) := dropEvents t f s
  if engs.isEmpty then s
  else discardNotices t engs (modWt t (fun x => { x with
    evDisc := addSat x.evDisc engs.length, evstat := setBit x.evstat 4 true }) s)

/-- Uncommitted events that satisfy a test are discarded (Table 6.5). -/
def discard (t : Fin 4) (f : EvEntry → Bool) (s : State) : State := discardEvents t (fun v => v.uncommitted && f v) s

/-- An entry of the table that is not FREE holds channel `n`. -/
def EvEntry.holds (n : Fin 256) (v : EvEntry) : Bool := decide (v.st ≠ .free) && v.usesChannel && decide (v.channel = n)

/-- The tracker's channels: those that hold an entry, and those issued to (R189). -/
def Trk.channels (x : Trk) : List (Fin 256) :=
  (List.finRange 256).filter fun n => x.table.any (EvEntry.holds n) || x.issuedTo.contains n.val

/-- Channel `n` carries out a COMMITTED event, of whichever tracker. -/
def committedOn (n : Fin 256) (s : State) : Bool :=
  s.wt.toList.any fun x => x.table.any fun v => EvEntry.holds n v && decide (v.st = .committed)

/-- Channels are driven safe, each once its COMMITTED event has ended (R189). -/
def driveSafe (chans : List (Fin 256)) (s : State) : State :=
  chans.foldl (fun s n =>
    if committedOn n s then modCh n (fun c => { c with heldDue := true }) s
    else refreshChanPins n (modCh n (fun c => { c with held := true, heldDue := false }) s)) s

/-- No issue step follows in this cycle (R190). -/
def barIssue (t : Fin 4) (s : State) : State := modWt t (fun x => { x with evBar := some s.tb.clk }) s

/-- All uncommitted events are discarded and the channels driven safe (Table 6.5). -/
def discardAll (t : Fin 4) (s : State) : State :=
  driveSafe s.wt[t].channels (discard t (fun _ => true) (barIssue t s))

/-- At a load of TB64 the COMMITTED events whose channel is outside its horizon end as well (R40, R188). -/
def discardLoad (t : Fin 4) (s : State) : State :=
  let ends (v : EvEntry) : Bool := decide (v.st = .committed) && v.usesChannel &&
    decide (s.ch[v.channel].event.isSome) && s.ch[v.channel].armed && !s.ch[v.channel].horizon
  driveSafe s.wt[t].channels (discardEvents t (fun v => v.uncommitted || ends v) (barIssue t s))

/-- A squash withdraws every ISSUED event (R185). -/
def squash (t : Fin 4) (s : State) : State :=
  let s := (s.wt[t].indices fun v => decide (v.st = .issued)).foldl (fun s i =>
    modEv t i (fun v => { v with st := .waiting, squashed := true }) (withdraw (s.wt[t].entry i) s)) s
  barIssue t (modWt t (fun x => { x with squashes := x.squashes + 1 }) s)

/-- An ISSUED event commits (R183, R184, R187). A width in angle is converted by the prediction in force at the start of
the cycle. -/
def commitEvent (t : Fin 4) (i : Nat) (s : State) : State :=
  let x := s.wt[t]
  let v := x.entry i
  let y := x.atStart s.tb.clk
  let w : Stamp := if v.unit then y.timeOf (v.angle + v.width.setWidth 32) - y.timeOf v.angle else v.width.setWidth 64
  let ex := v.synbase || later s.tb.now (x.baseT + BitVec.ofNat 64 (x.e / 65536))
  let s := modEv t i (fun v => { v with st := .committed, fixed := w, extrap := v.extrap || ex }) s
  let s := if ex then modWt t (fun x => { x with evExtrap := inc8 x.evExtrap, evstat := setBit x.evstat 0 true }) s else s
  if v.usesChannel then
    modCh v.channel (fun c => { c with event := c.event.map fun y => { y with width := w } }) s
  else s

/-- The commit test of an event with the LEAD in force (R183). -/
def Trk.commits (now : Stamp) (v : EvEntry) (x : Trk) : Bool :=
  decide (v.st = .issued ∧ -(x.lead * 64 : Nat) ≤ dist now (coarse v.target))

/-- Every ISSUED event whose time has come commits (R183, R190). -/
def commitDue (t : Fin 4) (s : State) : State :=
  let x := s.wt[t]
  (x.indices fun v => x.commits s.tb.now v).foldl (fun s i => commitEvent t i s) s

/-- The event goes to its channel with its target, armed (R181). -/
def issueTo (t : Fin 4) (i : Nat) (target : Stamp) (s : State) : State :=
  let v := s.wt[t].entry i
  let s := modWt t (fun x =>
    let x := x.modEntry i fun v => { v with st := .issued, target := target, synbase := x.baseSynth,
                                            reissued := v.reissued || v.squashed, squashed := false }
    if v.squashed then { x with evReiss := inc8 x.evReiss } else x) s
  if v.usesChannel then
    let n := v.channel
    let s := modWt t (fun x => if x.issuedTo.contains n.val then x else { x with issuedTo := n.val :: x.issuedTo }) s
    modCh n (fun c => { c with tgt := target, armed := true, horizon := false,
                               event := some ⟨t, i, v.act, 0, v.wcode⟩ }) s
  else s

/-- The compare of the event's channel enters its horizon when it is due in the cycle of the issue (R50). -/
def judgeIssued (v : EvEntry) (s : State) : State :=
  if v.usesChannel && s.ch[v.channel].atHorizon s.tb.now then commitEdge v.channel s else s

/-- The event has been overtaken (R182, Table 6.3). -/
def overdue (t : Fin 4) (i : Nat) (target : Stamp) (s : State) : State :=
  let v := s.wt[t].entry i
  let notice (code : Nat) (s : State) : State := if s.wt[t].noverOn then eventNotice t i code s else s
  match v.policy.toNat with
  | 1 =>
    notice 0x12 (modWt t (fun x => { x.modEntry i (fun v => { v with st := .free, dropped := true }) with
      evDrop := inc8 x.evDrop, evstat := setBit x.evstat 2 true }) s)
  | 2 =>
    notice 0x13 (modWt t (fun x => { x.modEntry i (fun v => { v with angle := v.angle + 0x0100_0000, deferred := true }) with
      evDefer := inc8 x.evDefer, evstat := setBit x.evstat 3 true }) s)
  | _ =>
    let s := commitEvent t i (issueTo t i target s)
    let s := modWt t (fun x => { x.modEntry i (fun v => { v with late := true }) with
      evLate := inc8 x.evLate, evstat := setBit x.evstat 1 true }) s
    notice 0x11 (judgeIssued v s)

/-- Event `i` of the table comes before `j` in angle order from the base (R180); of two at one angle the lower entry: the
model's choice (log 80). -/
def Trk.angleBefore (x : Trk) (i j : Nat) : Bool :=
  let d (k : Nat) : Int := ((x.entry k).angle - toA32 x.baseA).toInt
  decide (d i < d j ∨ (d i = d j ∧ i < j))

/-- The first WAITING event in angle order whose channel is free (R180, R181). -/
def Trk.nextEvent (x : Trk) : Option Nat :=
  let busy (v : EvEntry) : Bool := v.usesChannel &&
    x.table.any fun u => u.usesChannel && decide (u.channel = v.channel ∧ (u.st = .issued ∨ u.st = .committed))
  (x.indices fun v => decide (v.st = .waiting) && !busy v).foldl
    (fun b i => match b with | none => some i | some j => if x.angleBefore i j then some i else some j) none

/-- The issue step; a cycle of a discard or a squash has none (R181, R190). The test for a channel that no longer runs in
ANGLE_EVENT stands after the two horizons and before the overdue test: the model's choice (log 81). -/
def issueStep (t : Fin 4) (s : State) : State :=
  let x := s.wt[t]
  if !x.valid || decide (x.evBar = some s.tb.clk) then s
  else match x.nextEvent with
  | none => s
  | some i =>
    let v := x.entry i
    let aheadA := (v.angle - toA32 x.baseA).toInt
    if 8 * 2 ^ 24 ≤ aheadA * x.n then s
    else
      let target := x.timeOf v.angle
      let ahead := dist target s.tb.now
      if (x.runF * 65536 : Nat) < ahead then s
      else if v.usesChannel ∧ ¬ (s.ch[v.channel].run ∧ s.ch[v.channel].mode = 7) then
        let s := modWt t (fun x => { x.modEntry i (fun v => { v with st := .free }) with
          evChfail := inc8 x.evChfail, evstat := setBit x.evstat 5 true }) s
        if x.noverOn then eventNotice t i 0x15 s else s
      else if ahead < 0 then overdue t i target s
      else
        let s := issueTo t i target s
        let s := if ahead < (x.lead * 64 : Nat) then commitEvent t i s else s
        judgeIssued v s

/-- The outcome of a tracker operation, from the host or from engine `e` (R171). -/
def wtAnswer (t : Fin 4) (from_ : Option (Fin 16)) (st : CmdStatus) (s : State) : State :=
  refuse (bit s.wt[t].ie 16) st (modWt t (fun x => { x with
    cmd := x.cmd.answer st, srch := from_.isNone,
    srce := match from_ with | some e => BitVec.ofNat 4 e | none => x.srce }) s)

/-- The first check of Table 6.2 that a placement fails: its outcome, and whether the table was full. -/
def placeCheck (t : Fin 4) (b : Word) (aux : BitVec 24) (chan : Fin 256) (s : State) : CmdStatus × Bool :=
  let action := fld aux 19 17
  let policy := fld aux 16 15
  let x := s.wt[t]
  if 6 ≤ action ∨ policy = 3 ∨ fld b 31 27 ≠ 0 ∨ fld aux 13 11 ≠ 0 then (.argInvalid, false)
  else if policy = 2 ∧ action = 3 then (.argInvalid, false)
  else if action = 4 ∧ fld aux 23 21 ≠ 0 then (.argInvalid, false)
  else if ¬ x.valid ∨ s.dom.state = .safe then (.stateRefused, false)
  else if 1024 ≤ (x.table.filter fun v => decide (v.st ≠ .free)).length then (.stateRefused, true)
  else if action < 4 ∧ ¬ (s.ch[chan].run ∧ s.ch[chan].mode = 7) then (.stateRefused, false)
  else if action < 4 ∧ (List.finRange 4).any (fun u => decide (u ≠ t) && s.wt[u].table.any fun v =>
      decide (v.st ≠ .free) && v.usesChannel && decide (v.channel = chan)) then (.stateRefused, false)
  else (.ok, false)

/-- The lowest FREE entry of the table. -/
def Trk.freeIndex (x : Trk) : Nat := (x.table.findIdx? fun v => decide (v.st = .free)).getD x.table.length

/-- A placement for engine `e` reaches the tracker (R178, R179); its outcome. -/
def placeEvent (t : Fin 4) (e : Fin 16) (a b : Word) (aux : BitVec 24) (chan : Fin 256) (s : State) : State × CmdStatus :=
  let (st, full) := placeCheck t b aux chan s
  if st = .ok then
    let v : EvEntry := {
      st := .waiting, angle := a
      chan := BitVec.ofNat 4 (if fld aux 19 17 < 4 then chan.val % 16 else fld aux 23 20)
      action := BitVec.ofNat 3 (fld aux 19 17), policy := BitVec.ofNat 2 (fld aux 16 15), unit := bit aux 14
      tag := BitVec.ofNat 11 (fld aux 10 0), engine := e
      wcode := BitVec.ofNat 3 (fld b 26 24), width := BitVec.ofNat 24 (fld b 23 0) }
    (modWt t (fun x =>
      let i := x.freeIndex
      { x with table := if i < x.table.length then x.table.set i v else x.table ++ [v] }) s, st)
  else
    let s := modWt t (fun x => if full then { x with evFull := inc8 x.evFull, evstat := setBit x.evstat 7 true }
      else { x with evstat := setBit x.evstat 6 true }) s
    (if s.wt[t].nrefOn then
      post e (17 + 2 * t) (pack [(0x1F, 24), (st.code, 21), (fld aux 10 0, 10)]) s else s, st)

/-- Every uncommitted event with the tag returns to FREE; the engines are told, nothing is counted (R188, R190, R191). -/
def cancelTag (t : Fin 4) (tag : Nat) (s : State) : State :=
  let (s, engs) := dropEvents t (fun v => v.uncommitted && decide (v.tag.toNat = tag)) (commitDue t s)
  discardNotices t engs s

/-- Every uncommitted event with the tag takes a new angle; an ISSUED one is withdrawn (R190, R191). -/
def moveTag (t : Fin 4) (tag : Nat) (angle : Angle) (s : State) : State :=
  let s := commitDue t s
  (s.wt[t].indices fun v => v.uncommitted && decide (v.tag.toNat = tag)).foldl (fun s i =>
    modEv t i (fun v => { v with angle := angle, st := .waiting }) (withdraw (s.wt[t].entry i) s)) s

/-- The last step of the event of a channel is done: it returns to FREE in the next cycle (R180, R184). -/
def endEvent (ev : Option IssuedEvent) (s : State) : State :=
  match ev with | some v => defer (.evFree v.trk v.idx) s | none => s

/-- An event whose last step is done returns to FREE; a channel that waits for it is driven safe (R184, R189). -/
def eventFree (t : Fin 4) (i : Nat) (s : State) : State :=
  let v := s.wt[t].entry i
  let s := modEv t i (fun v => { v with st := .free }) s
  if v.usesChannel ∧ s.ch[v.channel].heldDue then
    refreshChanPins v.channel (modCh v.channel (fun c => { c with held := true, heldDue := false }) s)
  else s

/-- STOP of an ANGLE_EVENT channel (R469): an ISSUED event returns to WAITING; a COMMITTED one
completes, and the channel stops after it. -/
def stopChannel (n : Fin 256) (s : State) : State :=
  let c := s.ch[n]
  match c.mode, c.event with
  | 7, some v =>
    if (s.wt[v.trk].entry v.idx).st = .committed then modCh n (fun c => { c with stopping := true }) s
    else
      modEv v.trk v.idx (fun u => { u with st := .waiting }) (modCh n (fun c => { c.disarm with event := none, run := false }) s)
  | _, _ => chStop n s

end Sys2Proof.Machine
end

