-- ==== Sys2Proof/Machine/Irq.lean ====
section
/-! DEFINITION. Irq: the level of each interrupt source, the entry into SAFE, and the end of every
command: an entry into SAFE that a fault asks for, then the sources follow (R31, R320, R467). -/

namespace Sys2Proof.Machine

/-- nFAULT is driven low: while the core's supplies are valid, with the matrix disabled or from an accepted
`DISABLE` on, or with a cause of GUARD_FAULT (R250). -/
def nfault (s : State) : Bool := s.sys.coreOk && (!s.pins.en || !s.pins.cmdEn || decide (s.pins.fault ≠ 0))

/-- Pins forced by their budget (GUARD_NFORCED). -/
def forcedPins (s : State) : Nat := (s.pin.toList.filter (·.forced)).length

/-- The guard flags of every pin as one number, five bits a pin (R251). -/
def guardFlags (s : State) : Nat := s.pin.toList.foldr (fun x a => a <<< 5 ||| x.gstat.toNat) 0
/-- A guard enable as it stands for every pin. -/
def guardEnables (s : State) : Nat := (List.range 288).foldl (fun a _ => a <<< 5 ||| fld s.pins.ie 4 0) 0

/-- ORDER and DEEP of every target as one number, two bits a target (Table 11.4). -/
def Ic.errors (ic : Ic) : Nat := ic.tgt.toList.foldr (fun t a => a <<< 2 ||| (2 * b2n t.order + b2n t.deep)) 0

/-- The status flags behind shared source `k` and their enables, where the source is the OR of flags or, as `nFAULT`, has
flags among its causes (R69, R107, R175, R228, R250, R251, R276, R303, R315, R324, R364, R396, R425, R446). -/
def sourceFlags (s : State) (k : Nat) : Option (Nat × Nat) :=
  if h : k < 256 then some (s.ch[k].flags.toNat, s.ch[k].ie.toNat)
  else if h : k < 272 then let x := s.te[k - 256]'(by omega); some (x.stat.toNat, x.ie.toNat)
  else if h : k < 288 then
    let x := s.wt[(k - 272) / 4]'(by omega)
    if (k - 272) % 4 = 0 then some (x.stat.toNat, x.ie.toNat) else none
  else if h : k < 320 then let x := s.se[k - 288]'(by omega); some (x.stat.toNat, x.ie.toNat)
  else if h : k < 384 then let x := s.well[k - 320]'(by omega); some (x.stat.toNat, x.ie.toNat)
  else if h : k < 392 then let x := s.pump[k - 384]'(by omega); some (x.stat.toNat, x.ie.toNat)
  else if h : k < 400 then let x := s.cis.banks[k - 392]'(by omega); some (x.bstat.toNat, x.bie.toNat)
  else if h : k < 404 then let x := s.job[k - 400]'(by omega); some (x.stat.toNat, x.ie.toNat)
  else if k < 408 then none
  else if h : k < 410 then let x := s.sc[k - 408]'(by omega); some (x.stat.toNat, x.ie.toNat)
  else match k with
  | 410 => some (b2n s.scs.fail, 1)
  | 416 => some (s.link.stat.toNat, s.link.ie.toNat)
  | 432 => some (guardFlags s, guardEnables s)
  | 434 => some (s.pins.fault.toNat, 0x1F)
  | 435 => some (fld s.pins.evt 25 16, 0x3FF)
  | 436 => some (fld s.pins.evt 8 0, 0x1FF)
  | 440 => some (s.rcd.stat.toNat, s.rcd.ie.toNat)
  | 449 => some (s.ic.errors, 2 ^ 64 - 1)
  | 450 => some (s.sys.stat.toNat, s.sys.ie.toNat)
  | _ => none

/-- The level that the device gives shared source `k`; none for a source that pulses or is never raised (R175, R250, R251,
R320, R419). -/
def sourceLevel (s : State) (k : Nat) : Option Bool :=
  if k = 434 then some (nfault s)
  else match sourceFlags s k with
  | some (f, e) => some (decide (f &&& e ≠ 0))
  | none =>
    if h : 272 ≤ k ∧ k < 288 then
      if (k - 272) % 4 = 2 then some (decide ((s.wt[(k - 272) / 4]'(by omega)).st = .lost)) else none
    else match k with
    | 417 => some s.link.timef
    | 418 => some s.dom.observe
    | 433 => some (decide (forcedPins s ≠ 0))
    | 453 => some (!(s.sys.vanaOk && s.sys.vkeepOk))
    | 456 => some (s.calm.wake[0])
    | 457 => some (s.calm.wake[1])
    | 458 => some (s.calm.wake[2])
    | 459 => some (s.calm.wake[3])
    | _ => none

/-- One source follows its level: a rise at once; a level that has ended falls with the next cycle, unless it is
there again in this one (R13). -/
def settleOne (s : State) (ic : Ic) (k : Fin 496) : Ic :=
  match sourceLevel s k with
  | some true => if ic.src[k].live then { ic with falls := ic.falls.filter (· ≠ k) } else ic.input k true
  | some false => if ic.src[k].live ∧ k ∉ ic.falls then { ic with falls := k :: ic.falls } else ic
  | none => ic

/-- A flag that hardware sets in the cycle in which a host access has cleared it counts as an event of its source (R13, R324). -/
def setAgain (s : State) (ic : Ic) (c : Fin 496 × Nat) : Ic :=
  match sourceFlags s c.1 with
  | some (f, e) => if c.2 &&& f &&& e ≠ 0 then { ic.event c.1 with cleared := (c.1, c.2 - (c.2 &&& f)) :: ic.cleared } else { ic with cleared := c :: ic.cleared }
  | none => ic

/-- Every source that a level drives follows it. -/
@[irreducible] def settleIc (s : State) : Ic :=
  s.ic.cleared.foldl (setAgain s) ((List.finRange 496).foldl (settleOne s) { s.ic with cleared := [] })
def settle (s : State) : State := { s with ic := settleIc s }

/-- A host access has made `s` of `before`: the flags that it cleared are noted for this cycle (R13). -/
def noteClears (before s : State) : State :=
  let gone (k : Fin 496) : Nat := match sourceFlags before k, sourceFlags s k with
    | some (f, _), some (g, _) => f - (f &&& g)
    | _, _ => 0
  let l := (List.finRange 496).filterMap fun k => if gone k = 0 then none else some (k, gone k)
  { s with ic := { s.ic with cleared := l ++ s.ic.cleared } }

/-- A domain state is entered (R21, R188, R240, R269, R430): the slots and events that end with it,
the record, the pins; a transition ends DOZE (R415). -/
def enterDomain (d : DomState) (s : State) : State :=
  let old := s.dom.state
  let s := modDom (fun x => { x with state := d }) s
  if old = d then s
  else
    let s := recordIn 15 0 s.tb.now (BitVec.ofNat 64 (d.code + 8 * b2n s.dom.observe)) [] s
    let s := if d = .safe then forAll 4 (fun t s => closeSlots t 8 (discardAll t (commitDue t s))) s
      else if (old = .run ∨ old = .hold) ∧ (d = .armed ∨ d = .config) then forAll 4 (fun t s => closeSlots t 9 s) s
      else s
    refreshPins (modSys (fun x => if x.pwr = .doze then { x with pwr := .active } else x) s)

/-- SAFE is entered at once: a pending transition is discarded, the root broadcasts (R31, R32). -/
def enterSafe (s : State) : State :=
  let s := modDom (fun x => { x with pend := false, safeWait := false, safeNow := false,
                                     bcast := some (frame s + BitVec.ofNat 48 x.lead.toNat) }) s
  enterDomain .safe s

/-- What ends every command; in REPLAY only DSTATE records change the domain state (R440). -/
def finish (s : State) : State :=
  settle (if s.dom.safeNow then modDom (fun d => { d with safeNow := false }) (if live s then enterSafe s else s) else s)

/-- The answer of a command whose effect is `s`: the next state, after what ends every command. -/
def done (s : State) : Host.Outcome State Fault Refusal := .next (finish s)

end Sys2Proof.Machine
end

