-- ==== Sys2Proof/Machine/Lane.lean ====
section
/-! DEFINITION. Lane: messages and their queues, the characters of a link frame, and its sending (R371, R382, R394, R395). -/

namespace Sys2Proof.Machine

/-- One bit, one byte, and the bytes of a word of the CRC-32 of IEEE 802.3, reflected. -/
def crcBit (c : Word) : Word := if bit c 0 then (c >>> 1) ^^^ 0xEDB8_8320 else c >>> 1
def crcByte (c : Word) (b : Byte) : Word :=
  crcBit (crcBit (crcBit (crcBit (crcBit (crcBit (crcBit (crcBit (c ^^^ b.setWidth 32))))))))
def crc32 (l : List Byte) : Word := ~~~ l.foldl crcByte 0xFFFF_FFFF
def wordOctets (w : Word) : List Byte := [w.setWidth 8, (w >>> 8).setWidth 8, (w >>> 16).setWidth 8, (w >>> 24).setWidth 8]

/-- Depth of the device (R370). -/
def Link.depth (l : Link) : Nat := fld l.path 19 16
/-! Messages (R394, R395). -/

/-- A message is dropped at port `k`. -/
def dropMsg (k : Fin 4) (s : State) : State :=
  modLink (fun l => { l with stat := setBit l.stat 6 true }) (modPort k (fun x => { x with mdrop := inc8 x.mdrop }) s)

/-- The messages queued at port `k` are dropped, each counted (R392, R394). -/
def dropQueue (k : Fin 4) (s : State) : State :=
  s.link.ports[k].queue.foldl (fun s _ => dropMsg k s) (modPort k (fun x => { x with queue := [] }) s)

/-- LINK_RXH of a message (Table 13.10). -/
def msgHead (m : LinkMsg) : Word :=
  pack [(1, 31), (b2n m.bcast, 30), (m.type.toNat, 20), (m.src.toNat, 0)]

/-- Payload bytes 8i to 8i + 7. -/
def msgQuad (m : LinkMsg) (i : Fin 4) : BitVec 64 := join m.data[2 * i.val + 1] m.data[2 * i.val]

/-- A message reaches the receive queue (R395); it came in on port `k`. -/
def deliverMsg (k : Fin 4) (m : LinkMsg) (s : State) : State :=
  if 16 ≤ s.link.rxq.length then dropMsg k s
  else
    let s := recordIn 12 0 s.tb.now ((msgHead m).setWidth 64)
      ((List.finRange 4).map fun i => mkRec 14 i.val s.tb.now (msgQuad m i)) s
    pulse 419 (modLink (fun l => { l with rxq := l.rxq ++ [m], stat := setBit l.stat 5 true }) s)

/-- A message joins the queue of port `k`, or is dropped there. -/
def queueMsg (k : Fin 4) (m : LinkMsg) (s : State) : State :=
  let x := s.link.ports[k]
  if x.state ≠ .up ∨ x.ver = 1 ∨ 8 ≤ x.queue.length then dropMsg k s
  else modPort k (fun x => { x with queue := x.queue ++ [m] }) s

/-- The destination lies below the device: the `DN` port of the next hop (R370, R394). -/
def Link.hopTo (l : Link) (dst : BitVec 20) : Option (Fin 4) :=
  if l.depth < fld dst 19 16 ∧ (l.depth = 0 ∨ fld dst (2 * l.depth - 1) 0 = fld l.path (2 * l.depth - 1) 0) then
    match fld dst (2 * l.depth + 1) (2 * l.depth) with
    | 0 => some 1 | 1 => some 2 | 2 => some 3 | _ => none
  else none

/-- A message is queued for forwarding; `k` is the port it came in on, none for the device's own (R394). -/
def forwardMsg (k : Option (Fin 4)) (m : LinkMsg) (s : State) : State :=
  if m.bcast then
    forAll 4 (fun j s => if s.link.ports[j].state = .up ∧ some j ≠ k then queueMsg j m s else s) s
  else if m.dst = s.link.path then s
  else match s.link.hopTo m.dst with
    | some j => queueMsg j m s
    | none => queueMsg 0 m s

/-- The frame's messages that count: version 1 carries none, a frame at most four. -/
def LinkPort.msgs (x : LinkPort) (f : LinkFrame) : List LinkMsg := if x.ver = 1 then [] else f.msgs.take 4

/-- Bytes 0 to 23 of a slot, 8 at a time (Table 13.3). -/
def slotQuad (v : WheelSlot) (i : Nat) : BitVec 64 :=
  match i with
  | 0 => BitVec.ofNat 64 (v.st.toNat * 32 + b2n v.syn * 16 + b2n v.big * 8 + v.rev.toNat * 2 ^ 8 +
      v.idx.toNat * 2 ^ 16 + v.nm1.toNat * 2 ^ 28 + v.stamp.toNat * 2 ^ 40)
  | 1 => BitVec.ofNat 64 (v.stamp.toNat / 2 ^ 24 + v.e.toNat * 2 ^ 40)
  | _ => BitVec.ofNat 64 (v.e.toNat / 2 ^ 24 + v.a.toNat * 2 ^ 24)

/-- What the octets of a section become on the lane. -/
def onLane (l : List Byte) : List LinkChar := l.map LinkChar.data

/-- Characters 1 to 631 of a link frame that leaves by port `k`; none stands for an idle character (Table 13.2). The inner
layout that the table leaves open is `Config`'s (log 71). -/
def frameSections (k : Fin 4) (f : LinkFrame) : List (Option Byte) :=
  let slots := f.slots.toList.flatMap fun v => wordOctets (lo32 (slotQuad v 0)) ++ wordOctets (hi32 (slotQuad v 0)) ++
    wordOctets (lo32 (slotQuad v 1)) ++ wordOctets (hi32 (slotQuad v 1)) ++ wordOctets (lo32 (slotQuad v 2)) ++
    wordOctets (hi32 (slotQuad v 2))
  let control := if k = 0 then Config.linkUp f.up else Config.linkDown f.down
  let msgs := (List.range 4).flatMap fun i => match f.msgs[i]? with
    | some m => (Config.linkMessage m).toList.map some
    | none => List.replicate 42 none
  ((Config.linkHeader f.frame f.path f.tvalid f.version).toList ++ slots ++ control.toList).map some ++ msgs

/-- The characters of a link frame: the marker, its sections, the CRC-32 over them and four idle ones (Table 13.2). -/
def frameCharacters (k : Fin 4) (f : LinkFrame) : List LinkChar :=
  let l := frameSections k f
  .marker :: l.map (fun b => match b with | some b => .data b | none => .idle) ++
    onLane (wordOctets (crc32 (l.map fun b => b.getD Config.linkIdle))) ++ List.replicate 4 .idle

/-- The device's own messages join the queues; one for the device itself is delivered (R394). -/
def routeOwn (s : State) : State :=
  s.link.txq.foldl (fun s m =>
    forwardMsg none m (if !m.bcast && decide (m.dst = s.link.path) then deliverMsg 0 m s else s))
    (modLink (fun l => { l with txq := [] }) s)

/-- The frame of port `k` leaves with at most four messages, if the port is still in UP. A version-1 port drops what waits
for it (R394). -/
def sendFrame (k : Fin 4) (s : State) : State :=
  let x := s.link.ports[k]
  match s.link.sending[k] with
  | none => s
  | some f =>
    if x.state ≠ .up then s
    else if x.ver = 1 then
      let f := { f with msgs := [] }
      emit (.link k f (frameCharacters k f)) (dropQueue k s)
    else
      let f := { f with msgs := x.queue.take 4 }
      emit (.link k f (frameCharacters k f)) (modPort k (fun x => { x with queue := x.queue.drop 4 }) s)

/-- The line link sends its frames (R371, R382, R394). -/
def sendFrames (s : State) : State :=
  modLink (fun l => { l with sending := Vector.replicate 4 none }) (forAll 4 sendFrame (routeOwn s))

end Sys2Proof.Machine
end

