-- ==== Sys2Proof/Machine/Lines.lean ====
section
/-! DEFINITION. Lines: the verdict of a slot, the judgement of a job record, and what of a product line waits for the end of its
cycle (R263, R267, R272). -/

namespace Sys2Proof.Machine

def Line.ofsOf (x : Line) (i : Fin 6) : Angle := x.ofs[i]
def modSlot (t : Fin 4) (i : Fin 512) (f : Slot → Slot) (s : State) : State :=
  modLine t (fun x => { x with slots := x.slots.set i (f x.slots[i]) }) s

/-- A verdict for slot `i`: 1 PASS, 2 FAIL. -/
def slotVerdict (t : Fin 4) (i : Fin 512) (v : BitVec 2) (s : State) : State :=
  let x := s.job[t].slots[i]
  match x.st with
  | .rejecting => modLine t (Line.count .vlate 1) s
  | .free => modLine t (Line.count .vnoslot 1) s
  | _ =>
    let s := if x.verdict = 0 then s else modLine t (Line.count .vdup 1) s
    modSlot t i (fun y => { y with verdict := if v = 2 then 2 else if y.verdict = 0 then 1 else y.verdict }) s

/-- The slot in flight that holds a PSN. -/
def Line.find (x : Line) (psn : Word) : Option (Fin 512) :=
  (List.finRange 512).find? fun i => decide (x.slots[i].st ≠ .free ∧ x.slots[i].psn = psn)

/-- A verdict-pin edge (R267). -/
def verdictPin (t : Fin 4) (stamp : Stamp) (s : State) : State :=
  let w := s.wt[t]
  let x := s.job[t]
  if !w.valid then modLine t (Line.count .vnoslot 1) s
  else
    let a := toA32 (w.angleAt stamp)
    let inside (v : Slot) : Bool := decide (v.st ≠ .free) &&
      decide (0 ≤ (a - (v.ang + x.ofsOf 2)).toInt) && decide ((a - (v.ang + x.ofsOf 3)).toInt < 0)
    match (x.oldestFirst inside).head? with
    | some i => slotVerdict t i 1 s
    | none => modLine t (Line.count .vnoslot 1) s

/-- CRC-16 of R261, most significant bit first. -/
def crc16 (l : List Byte) : BitVec 16 :=
  l.foldl (fun (c : BitVec 16) (b : Byte) =>
    (List.range 8).foldl (fun (c : BitVec 16) _ => if c.getMsbD 0 then (c <<< 1) ^^^ 0x1021 else c <<< 1)
      (c ^^^ (b.setWidth 16 <<< 8))) 0xFFFF

/-- The bytes of a list of 64-bit words, little-endian. -/
def wordBytes (l : List (BitVec 64)) : List Byte :=
  l.flatMap fun (w : BitVec 64) => (List.range 8).map fun i => (w >>> (8 * i)).setWidth 8

/-- The record in eight words (Table 9.3). -/
def jobRec (delta : Word) (w : Vector (BitVec 64) 8) : JobRec :=
  { psn := lo32 w[0] + delta, flags := (w[0] >>> 32).setWidth 8, vlen := (w[0] >>> 40).setWidth 8,
    patAddr := lo32 w[1], patLen := hi32 w[1],
    vdata := #v[w[2], w[3], w[4], w[5], w[6]], tag := lo32 w[7] }

/-- A record that has been read is judged (R263). -/
def Line.judge (w : Vector (BitVec 64) 8) (bad : Bool) (x : Line) : Line :=
  let r := jobRec (if x.rewinding then x.deltaNow else 0) w
  let d := (r.psn - x.base).toInt
  let k : Fin 64 := Fin.ofNat 64 r.psn.toNat
  let bound : Bool := match x.find r.psn with
    | some i => decide (x.slots[i].st ≠ .opened ∧ x.slots[i].kind = 0)
    | none => false
  let x := { x with inp := x.inp + 1, rewinding := x.rewinding && decide (x.inp + 1 ≠ x.rwEnd) }
  if bad then x.note .unread 1
  else if crc16 ((wordBytes w.toList).take 62) ≠ (w[7] >>> 48).setWidth 16 then x.note .crc 1
  else if d < 0 then (if bound then x.note .dup 2 else x.note .late 1)
  else if 64 ≤ d then x.note .beyond 1
  else if x.held[k].isSome then x.note .dup 2
  else { x with held := x.held.set k (some r) }

/-- What waits for the end of its cycle acts: a verdict-pin edge that was a detection too, then a record whose intake is complete
(R272). -/
def settleLine (t : Fin 4) (s : State) : State :=
  let s := match s.job[t].pinEdge with
    | some stamp => verdictPin t stamp (modLine t (fun x => { x with pinEdge := none }) s)
    | none => s
  match s.job[t].taken with
  | some r => modLine t (fun x => { x.judge r.1 r.2 with taken := none }) s
  | none => s

end Sys2Proof.Machine
end

