-- ==== Sys2Proof/Machine/Wheel.lean ====
section
/-! DEFINITION. Wheel: the wheel inputs, their thresholds, tooth signals and register (R143 to R147). -/

namespace Sys2Proof.Machine

def WheelIn.mode (w : WheelIn) : Nat := fld w.cfg 31 30
def WheelIn.frac (w : WheelIn) : Nat := fld w.cfg 27 22
def WheelIn.thrMin (w : WheelIn) : Nat := fld w.cfg 21 12
/-- The peak hold that gives a threshold of THR_MIN (R145, R147): of the values that do, the least, and 1,023 where none of
the register does: the model's choice (log 82). -/
def WheelIn.floor (w : WheelIn) : BitVec 10 := BitVec.ofNat 10 (min 1023 ((w.thrMin * 64 + w.frac - 1) / w.frac))
/-- The threshold that the peak hold and the registers give (R144, Table 5.1). In DIGITAL and OFF, which have none, it is 0:
the model's choice (log 83). -/
def WheelIn.threshold (w : WheelIn) : Nat :=
  match w.mode with
  | 1 => max w.thrMin (w.frac * w.peak.toNat / 64)
  | 2 => w.thrMin
  | _ => 0
/-- The threshold takes that value. -/
def WheelIn.follow (w : WheelIn) : WheelIn := { w with thr := w.threshold }
/-- A zero crossing or rising edge at `at_`: the tooth signal rises, and the next tooth has its threshold (R143, R144, R147). -/
def WheelIn.lead (at_ : Stamp) (peak : BitVec 10) (w : WheelIn) : WheelIn :=
  WheelIn.follow { w with
    level := true, wait := false, armed := false, leadAt := some at_
    peak := if w.mode = 1 then peak else w.peak, since := if w.mode = 1 then frameOf at_ else w.since }
/-- The falling edge of DIGITAL, the arming of ADAPTIVE and FIXED. -/
def WheelIn.trail (w : WheelIn) : WheelIn := { w with level := false, armed := decide (w.mode = 1 ∨ w.mode = 2) }
/-- The peak hold loses a sixteenth of itself, and the threshold follows (R145). -/
def WheelIn.decay (w : WheelIn) : WheelIn :=
  WheelIn.follow { w with
    since := w.since + BitVec.ofNat 48 (fld w.cfg 7 0)
    peak := if w.floor ≤ w.peak - w.peak / 16 then w.peak - w.peak / 16
            else if w.floor ≤ w.peak then w.floor else w.peak }

/-- An edge of the comparator of input `i` that a capture channel sees (R146). One that a tracker's command has told of is
known already; the peak of another is a free value, for no command carries it (log 84). -/
def winEdge (i : Fin 8) (level : Bool) (at_ : Stamp) (s : State) : State :=
  if level then
    if s.win[i].leadAt = some at_ then s
    else modWin i (WheelIn.lead at_ (Config.toothPeak s.free)) { s with free := s.free + 1 }
  else modWin i WheelIn.trail s

/-- A write of WIN_CFG as it is stored (Table 5.22). -/
def winCfgStored (v : Word) : Word :=
  let v := v &&& 0xEFFF_FFFF
  let v := putFld v 27 22 (min 56 (max 8 (fld v 27 22)))
  if fld v 7 0 = 0 then v ||| 1 else v

/-- A tracker that is not STOPPED reads the input (R147, R166). -/
def winBusy (s : State) (i : Fin 8) : Bool :=
  s.wt.toList.any fun x => decide (x.st ≠ .stopped) && !x.follows && decide (x.wsel = i)

/-- A write of WIN_CFG takes effect (R147): a change of MODE or POL sets the threshold anew, other writes leave it to the next
tooth. -/
def winCfgInForce (i : Fin 8) (v : Word) (s : State) : State :=
  let v := winCfgStored v
  let old := s.win[i].cfg
  let s := modWin i (fun w =>
    let w := { w with cfg := v }
    if fld old 31 29 = fld v 31 29 then w
    else WheelIn.follow { w with peak := w.floor, armed := false, level := false, wait := true, since := frame s }) s
  if fld old 31 29 = fld v 31 29 then s
  else forAll 4 (fun t s => modWt t (fun x => if !x.follows && decide (x.wsel = i) then { x with level := false } else x) s) s

/-- A write of WIN_CFG; it takes effect in the next cycle (R147). -/
def writeWin (i : Fin 8) (v : Word) (s : State) : State := if winBusy s i then s else deferLast (.winCfg i v) s

end Sys2Proof.Machine
end

