-- ==== Sys2Proof/Machine/Cycle.lean ====
section
/-! DEFINITION. Cycle: what a cycle leaves to the next one, the passing of cycles, and the service of
Cistern accesses at their ways. -/

namespace Sys2Proof.Machine

/-- A register of a shift engine takes a written value in the cycle after the write: SE_IE, SE_CMPV, SE_CMPM, SE_SIG, and the
SE_WRAP that a running engine holds for its next crossing (R198, R217, Table 7.3). -/
def seRegInForce (off : Nat) (v : Word) (x : Shift) : Shift :=
  match off with
  | 0x0C => { x with heldWrap := some (BitVec.ofNat 5 (fld v 4 0), BitVec.ofNat 5 (fld v 12 8)) }
  | 0x20 => { x with ie := v &&& 0x1_007F }
  | 0x2C => { x with cmpv := v }
  | 0x30 => { x with cmpm := v }
  | 0x3C => { x with temask := (v >>> 16).setWidth 16 }
  | _ => x

/-- Without a clock a running shift engine's phase stands, and so does a converter that switches. -/
def Shift.stand (clk : Nat) (x : Shift) : Shift := if x.st = .run then { x with phAt := clk, nextAt := clk + 1 } else x
def Conv.stand (clk : Nat) (x : Conv) : Conv :=
  match x.phase with | .switch _ => { x with phase := .switch (clk + 4000) } | _ => x
/-- Shift engines and converters stand in this cycle, and in the next ones until DOZE ends (Table 14.7): how they go on is the
model's choice (log 91). -/
def standIn (s : State) : State :=
  if allClocked s then s
  else
    let s := forAll 32 (fun e s => modSe e (Shift.stand s.tb.clk) s) s
    defer .standing (forAll 2 (fun c s => modSc c (Conv.stand s.tb.clk) s) s)

/-- What the cycle before has left to this one. -/
def Later.act (a : Later) (s : State) : State :=
  match a with
  | .compare n => compareWritten n s
  | .comparePair n => pairWritten n s
  | .chCfg n => chCfgInForce n s
  | .matrix => matrixInForce s.pins.cmdEn s
  | .guard p => guardInForce p s
  | .owner b v => modBank b (fun k => { k with own := v }) s
  | .evCfg t => modWt t (fun x => { x with evNow := x.evcfg }) s
  | .seReg e off v => modSe e (seRegInForce off v) s
  | .winCfg i v => winCfgInForce i v s
  | .evFree t i => eventFree t i s
  | .standing => standIn s
  | .line t => settleLine t s
  | .slept => modCalm (fun c => { c with slept := true }) s
  | .linkOut 0 => sendFrames s
  | .linkOut (n + 1) => defer (.linkOut n) s

/-- One cycle passes, and what was left to the new one comes about. -/
def nextCycle (s : State) : State :=
  let l := s.later
  finish (l.foldl (fun s a => a.act s) (tick 1 { s with later := [] }))

/-- `k` CCLK cycles pass; before CCLK runs none does (R36, R37). What the present one asks for by its end, an entry into
SAFE or a source's level, comes before it passes (R320, R467). -/
def advance : Nat → State → State
  | 0, s => s
  | k + 1, s =>
    if !s.tb.running then s
    else
      let s := finish s
      if s.later.isEmpty then finish (tick (k + 1) s) else advance k (nextCycle s)

/-- Time comes to cycle `c`, if it has not. -/
def runClk (c : Nat) (s : State) : State := advance (c - s.tb.clk) s

/-- Time comes to the cycle of `t`, if it has not. -/
def runTo (t : Stamp) (s : State) : State :=
  if notBefore s.tb.now (coarse t) then s else advance ((coarse t - coarse s.tb.now).toNat / 64) s

/-- `f` follows when cycle `c`, or time `t`, has come; without CCLK it never does (R37, R414). -/
def atClk (c : Nat) (f : State → State) (s : State) : State :=
  let s := runClk c s
  if s.tb.clk < c then s else f s
def atTime (t : Stamp) (f : State → State) (s : State) : State :=
  let s := runTo t s
  if notBefore s.tb.now (coarse t) then f s else s

/-- `f` follows in the next cycle. -/
def inNext (f : State → State) (s : State) : State := atClk (s.tb.clk + 1) f s

/-- A removal from well `k` is served in the next cycle when that of this one is taken (R299). -/
def wellTurn (k : Fin 64) (s : State) : State := if 0 < s.well[k].freedIn s.tb.clk then runClk (s.tb.clk + 1) s else s

/-! Accesses at their ways (R283 to R287). -/

/-- The first cycle in which a port presents one of these accesses (R286). -/
def firstTurn (l : List Access) (s : State) : Nat := (l.map (turnOf s)).foldl min (s.tb.clk + 1)

/-- A way grants one of the accesses that wait at it, in the first cycle in which it is free (R283, R284). -/
def wayGrant (b : Fin 8) (w : Fin 4) (s : State) : State :=
  if (candidates b w s).isEmpty then s
  else
    let s := runClk (max s.cis.banks[b].ways[w].free (firstTurn (candidates b w s) s)) s
    match pickAccess s s.cis.banks[b].ways[w] (presented b w s) with
    | some a => wayTakes b w a s
    | none => s

/-- A way grants until no access waits at it. -/
def wayClear (b : Fin 8) (w : Fin 4) : Nat → State → State
  | 0, s => s
  | k + 1, s => if (candidates b w s).isEmpty then s else wayClear b w k (wayGrant b w s)

/-- The accesses of `port` are served in turn, one a cycle, each by its way's order, until none waits (R284 to R286). -/
def serveWays (port : Nat) : Nat → State → State
  | 0, s => s
  | k + 1, s =>
    match headOf s port with
    | none => s
    | some a =>
      if initialising s a.word then s
      else
        let s := if admitted s a then wayGrant (bankOf a.word) (wayOf a.word) s else refuseAccess a s
        serveWays port k (if (headOf s port).isSome then advance 1 s else s)
def serve (port : Nat) (s : State) : State := serveWays port s.cis.waiting.length s

/-- Data for `use` reaches `port`, four cycles after its grant (R283). -/
def awaitData (port : Nat) (use : AccUse) (s : State) : State × BitVec 64 × Bool :=
  let mine (r : Return) : Bool := decide (r.port = port ∧ r.use = use)
  match s.cis.returns.find? mine with
  | some r => (modCis (fun c => { c with returns := c.returns.eraseP mine }) (runClk r.due s), r.data, r.poison)
  | none => (s, 0, true)

/-- `port` reads a word, after the accesses that it has issued before: the data, and whether it is poisoned or refused. -/
def portRead (port w : Nat) (use : AccUse) (s : State) : State × BitVec 64 × Bool :=
  awaitData port use (serve port (enqueue ⟨port, w, .read, use⟩ s))

end Sys2Proof.Machine
end

