-- ==== Sys2Proof/Machine/Wt.lean ====
section
/-! DEFINITION. Wt: the trackers: judging edges, windows, the seek, states, publication, phase (R148 to R175). -/

namespace Sys2Proof.Machine

/-! The tracker's edge test. -/

def TrkState.code : TrkState → Nat
  | .stopped => 0 | .seeking => 1 | .synced => 2 | .holdover => 3 | .lost => 4

/-- E of the expected edge, with 16 fraction bits (Table 5.3). -/
def Trk.e16 (x : Trk) : Expect → Nat
  | .regular => x.e
  | .extra => x.refPos * x.e / 64
  | .zero => (64 - x.refPos) * x.e / 64

/-- The outcome of R152. -/
inductive Verdict where
  | noise | accept | late
  deriving DecidableEq, Repr

/-- The test of R152 for an edge at `s` after `prev`. -/
def Trk.judge (x : Trk) (prev s : Stamp) (e16 : Nat) : Verdict :=
  let d := (s - prev).toNat
  if d < 128 * 64 then .noise
  else if d * 64 * 65536 < x.lo * e16 then .noise
  else if x.hi * e16 ≤ d * 64 * 65536 then .late
  else .accept

/-- An interval inside the range of R156. -/
def inRange (d : Nat) : Bool := decide (12800 ≤ d ∧ d < 2 ^ 32)

/-- The classes of the last WLEN teeth match WT_WPAT (Table 5.2). -/
def Trk.codeMatch (x : Trk) : Bool :=
  (List.range x.wlen).all fun i => bit x.clsKnown (x.wlen - 1 - i) && (bit x.cls (x.wlen - 1 - i) == bit x.wpat i)

/-- A tooth enters the class history, its class not known yet (R150). -/
def Trk.pushClass (lead : Option Stamp) (x : Trk) : Trk :=
  { x with cls := x.cls <<< 1, clsKnown := x.clsKnown <<< 1, waitCls := lead }

/-- A trailing edge at `s` classifies the tooth that waits for it (R150). -/
def Trk.classify (s : Stamp) (x : Trk) : Trk :=
  match x.waitCls with
  | none => x
  | some l =>
    { x with waitCls := none, clsKnown := setBit x.clsKnown 0 true,
             cls := setBit x.cls 0 (decide (fld x.ref 13 8 * x.e ≤ (s - l).toNat * 64 * 65536)) }

/-! State changes. -/

def trkPost (t : Fin 4) (arg : Word) (num : Nat) (s : State) : State :=
  postMask (BitVec.ofNat 16 (fld s.wt[t].note 31 16)) num arg s
/-- A notice of Table 5.9, with its enable bit in WT_NOTE. -/
def trkNotice (t : Fin 4) (code en data : Nat) (s : State) : State :=
  if bit s.wt[t].note en then trkPost t (pack [(code, 24), (data % 2 ^ 24, 0)]) (17 + 2 * t) s else s

/-- VALID falls: angle and speed hold (R160). A SETREV that still waits is dropped: the model's choice (log 85). -/
def Trk.invalidate (now : Stamp) (x : Trk) : Trk :=
  { x with angle := x.published now, valid := false, setrev := none }

/-- Nothing is expected. -/
def Trk.idle (x : Trk) : Trk := { x with cand := none, noref := false, expect := .regular, extraOk := false }
/-- A seek starts at step 1 of Table 5.5 (R161). -/
def Trk.restart (x : Trk) : Trk := { x.idle with prev := none, good := 0, missrun := 0, refrun := 0 }

/-- The state the tracker shows (R160). -/
def showTrk (t : Fin 4) (st : TrkState) (s : State) : State :=
  modWt t (fun x => { x with st := st, active := x.active || decide (st = .synced ∨ st = .holdover ∨ st = .lost) }) s

/-- The notice of a change from state `old` to `new` (R174). -/
def stateNotice (t : Fin 4) (old new : TrkState) (cause : Nat) (s : State) : State :=
  if old ≠ new ∨ new = .seeking then trkNotice t 1 3 (new.code * 256 + old.code * 16 + cause) s else s

/-- A change of state: what the tracker shows and the notice of it (R160, R174). -/
def setTrk (t : Fin 4) (st : TrkState) (cause : Nat) (s : State) : State :=
  stateNotice t s.wt[t].st st cause (showTrk t st s)

/-- Entry into LOST with `shown` as the last published angle, but for its notice (R160, R162, R188, R189, R250, R269). -/
def loseTrackAt (t : Fin 4) (cause : Nat) (shown : Angle) (s : State) : State :=
  let live := decide (s.dom.state = .run ∨ s.dom.state = .hold)
  let s := modWt t (fun x => { x.idle with
    angle := if x.valid then shown else x.angle, valid := false, setrev := none
    cause := BitVec.ofNat 3 cause, stat := setBit x.stat 2 true, losts := inc8 x.losts, lostNow := true, lostAt := s.tb.clk }) s
  let s := closeSlots t 10 (discardAll t (showTrk t .lost s))
  if live then raiseFault 3 true t 0 s else s
def loseTrack (t : Fin 4) (cause : Nat) (s : State) : State := loseTrackAt t cause (s.wt[t].published s.tb.now) s

/-- Entry into LOST, with its notice (R162, R174). -/
def enterLost (t : Fin 4) (cause : Nat) (s : State) : State :=
  stateNotice t s.wt[t].st .lost cause (loseTrack t cause s)

/-- Entry into STOPPED (Table 5.4). -/
def enterStopped (t : Fin 4) (s : State) : State :=
  let s := setTrk t .stopped 1 (modWt t (fun x => (x.invalidate s.tb.now).idle) s)
  closeSlots t 10 (discardAll t s)

/-- Entry into SEEKING with a cause, but for its discards; an automatic return keeps the cause of the loss (Table 5.4). -/
def enterSeeking (t : Fin 4) (cause : Nat) (s : State) : State :=
  let s := modWt t (fun x => { (x.invalidate s.tb.now).restart with cause := BitVec.ofNat 3 cause }) s
  closeSlots t 10 (setTrk t .seeking cause s)

/-- A TB64 load meets tracker `t` (R167, R188). -/
def trkLoad (t : Fin 4) (s : State) : State :=
  if s.wt[t].st = .stopped then
    -- COMMITTED events outlive STOP
    if s.wt[t].table.any fun v => decide (v.st = .committed) then discardLoad t s else s
  else
    discardLoad t (enterSeeking t 6 (modWt t (fun x => { x with
      cls := 0, clsKnown := 0, waitCls := none, p := 0, a := 0, e := 0, lvl := 0, quiet := 0,
      stat := setBit x.stat 10 true }) s))

/-! Teeth. -/

/-- The tooth after this one: its index and revolution; SETREV names it (R149, R172). -/
def Trk.nextTooth (accepted : Bool) (x : Trk) : Nat × BitVec 8 × Bool :=
  let rev : BitVec 8 := (x.baseA >>> 48).setWidth 8
  let i := x.tooth.toNat + 1
  let (i, rev) := if x.n ≤ i then (0, rev + 1) else (i, rev)
  match x.setrev with
  | some r => if (accepted ∧ x.pattern = 0) ∨ (x.pattern ≠ 0 ∧ i = 0) then (0, r, true) else (i, rev, false)
  | none => (i, rev, false)

/-- The edge expected after tooth `i` (Table 5.3). -/
def Trk.after (x : Trk) (i : Nat) : Expect := if x.pattern = 1 ∧ i + 1 = x.n then .extra else .regular

/-- What the reference check at a tooth 0 found (R161). -/
inductive RefCheck where
  | none | passed | failed (run : Nat)
  deriving DecidableEq, Repr

/-- The reference check at a tooth 0 (R161), but for its notice. -/
def refCheck (t : Fin 4) (s : State) : State × RefCheck :=
  let x := s.wt[t]
  if x.pattern = 0 then (s, .none)
  else if (if x.pattern = 1 then x.extraOk else x.codeMatch) then
    (modWt t (fun x => { x with extraOk := false, refrun := 0 }) s, .passed)
  else
    let n := min 255 (x.refrun + 1)
    let s := modWt t (fun x => { x with extraOk := false, refrun := n, reffail := inc8 x.reffail,
                                        stat := setBit x.stat 5 true }) s
    (if fld x.limits 15 8 ≤ n then loseTrack t 3 s else s, .failed n)

/-- The notices of a tooth, in the cycle after its decision (Table 5.6): a failed check, the changes of state with their causes
(R174). -/
def decisionNotices (t : Fin 4) (ref : RefCheck) (changes : List (TrkState × TrkState × Nat)) (s : State) : State :=
  let s := match ref with
    | .failed n => trkNotice t 2 4 n s
    | _ => s
  changes.foldl (fun s c => stateNotice t c.1 c.2.1 c.2.2 s) s

/-- Every tracker that `who` selects and whose phase measure names `t` measures its tooth 0 at `stamp` (R169). -/
def phaseUpdate (t : Fin 4) (who : Fin 4 → Bool) (stamp : Stamp) (s : State) : State :=
  forAll 4 (fun a s =>
    let x := s.wt[a]
    if !who a ∨ !bit x.phaseCfg 31 ∨ fld x.phaseCfg 1 0 ≠ t.val then s
    else if !x.valid then modWt a (fun x => { x with phaseCfg := setBit (setBit x.phaseCfg 30 false) 29 false }) s
    else
      let ang := toA32 (x.angleAt stamp)
      let pv := bit x.phaseCfg 30
      let s := modWt a (fun x => { x with
        prate := if pv then ang - x.phase else 0, phase := ang, stat := setBit x.stat 8 true,
        phaseCfg := setBit (setBit x.phaseCfg 30 true) 29 pv }) s
      trkNotice a 3 5 ang.toNat (pulse (Fin.ofNat 496 (275 + 4 * a.val)) s)) s

/-- The recorder takes a tooth: 0 accepted, 1 synthetic, 2 noise (Table 15.1). -/
def recordTooth (t : Fin 4) (kind : Nat) (big : Bool) (stamp : Stamp) (i : Nat) (rev : BitVec 8) (s : State) : State :=
  recordOut 4 t stamp (BitVec.ofNat 64 (kind + 4 * b2n big + i * 2 ^ 12 + rev.toNat * 2 ^ 24)) s

/-- A tooth as its decision left it: synthetic or accepted, a large residual, its renumbering, its reference check, the state
before the decision, whether it moves the base (R161), its stamp, index and revolution. -/
structure Tooth where
  syn   : Bool
  big   : Bool
  renum : Bool
  ref   : RefCheck
  old   : TrkState
  moves : Bool
  stamp : Stamp
  i     : Nat
  rev   : BitVec 8

/-- What a decision leaves to the next cycle (Table 5.6). -/
inductive Sequel where
  | none
  /-- A tooth is published; the predictor takes its measured interval, or coasts over a synthetic one. -/
  | tooth (d : Tooth) (m : Option Nat)
  /-- An accepted edge of a seek: its stamp and interval, whether step 2 took it, and the count of a missing reference. -/
  | seek (stamp : Stamp) (m : Nat) (first : Bool) (lack : Option Nat)
  /-- The edge is LATE: it waits for the close of the window that began at `prev`. -/
  | late (prev : Stamp)

/-- What the tracker shows of a tooth in the cycle after its decision; one that is lost keeps its angle and speed (R157, R158,
R160, R161, R164). `shown` is the angle published so far. -/
def Trk.takeTooth (d : Tooth) (lost : Bool) (shown : Angle) (x : Trk) : Trk :=
  let b := toothAngle x.n d.i d.rev
  let x := { x with toothAt := d.stamp, tooth := BitVec.ofNat 12 d.i, stat := if d.big then setBit x.stat 6 true else x.stat }
  let x := if d.moves then { x with baseT := d.stamp, baseA := b, baseSynth := d.syn, baseBig := d.big } else x
  if lost then x
  else { x with high := if x.valid && !d.renum then shown else toA32 b, valid := true, speed := speedOf x.n x.e }

/-- A real tooth 0 reaches the phase measures of the trackers that `who` selects (R169). -/
def toothPhase (t : Fin 4) (d : Tooth) (who : Fin 4 → Bool) (s : State) : State :=
  if decide (d.i = 0) && !d.syn then phaseUpdate t who d.stamp s else s

/-- A tooth is shown, with its notice (R164, R173). Notices leave by ascending request number (R86): the phase measures of
lower trackers stand before it. -/
def showTooth (t : Fin 4) (d : Tooth) (lost : Bool) (shown : Angle) (s : State) : State :=
  let s := toothPhase t d (fun a => decide (a < t)) (modWt t (Trk.takeTooth d lost shown) s)
  let zero := decide (d.i = 0)
  let sel := fld s.wt[t].note 1 0
  if sel = 1 ∨ (sel = 2 ∧ zero) ∨ (sel = 3 ∧ (d.syn ∨ d.big)) then
    trkPost t (pack [(b2n d.syn, 31), (b2n d.big, 30), (b2n (zero && d.ref = .passed), 29), (d.rev.toNat, 16), (d.i, 0)]) (16 + 2 * t) s
  else s

/-- What follows the tooth notice: the other notices, the pulse at tooth 0, the squash, the phase measures (R169, R173, R175,
R185). -/
def afterTooth (t : Fin 4) (d : Tooth) (changes : List (TrkState × TrkState × Nat)) (s : State) : State :=
  let s := decisionNotices t d.ref changes s
  let s := if d.i = 0 then pulse (Fin.ofNat 496 (273 + 4 * t.val)) s else s
  let s := if d.syn ∨ d.big ∨ s.wt[t].everyOn then squash t s else s
  toothPhase t d (fun a => decide (t ≤ a)) s

/-- A tooth is published, with the changes of state that came with it. -/
def publish (t : Fin 4) (d : Tooth) (changes : List (TrkState × TrkState × Nat)) (shown : Angle) (s : State) : State :=
  afterTooth t d changes (showTooth t d (decide (s.wt[t].st = .lost)) shown s)

/-- The predictor takes a tooth (R155). -/
def Trk.predict (m : Option Nat) (x : Trk) : Trk := match m with | some m => (x.learn m).1 | none => x.coast

/-- The cycle after the decision of a tooth: the commit test, the predictor, the range check, the publication (R155, R156,
R164, R184, R190). A loss by the range check comes with the publication (R160). -/
def toothNext (t : Fin 4) (d : Tooth) (m : Option Nat) (s : State) : State :=
  let s := commitDue t s
  let st := s.wt[t].st
  let change : TrkState × TrkState × Nat := (d.old, st, if st = .lost then s.wt[t].cause.toNat else 0)
  let shown := s.wt[t].published s.tb.now
  let s := modWt t (fun x => Trk.predict m (x.keepPrediction s.tb.clk)) s
  match (if st = .lost then none else s.wt[t].range) with
  | some c =>
    let s := showTooth t d true shown s
    let s := loseTrackAt t c.toNat shown (modWt t (fun x => { x with stat := setBit x.stat 9 true }) s)
    afterTooth t d [change, (st, .lost, c.toNat)] s
  | none => publish t d [change] shown s

/-- The predictor at step 2 of a seek (Table 5.5). -/
def Trk.firstInterval (m : Nat) (x : Trk) : Trk := { x with p := m * 65536, e := m * 65536, a := 0, lvl := x.gmax, quiet := 0 }

/-- The cycle after an accepted edge of a seek: the predictor, the stamp, a large residual (R155, R163, R164). -/
def seekNext (t : Fin 4) (stamp : Stamp) (m : Nat) (first : Bool) (lack : Option Nat) (s : State) : State :=
  let s := modWt t (fun x =>
    let r := if first then (x.firstInterval m, false) else x.learn m
    { r.1 with toothAt := stamp, stat := if r.2 then setBit x.stat 6 true else x.stat }) s
  match lack with | some n => trkNotice t 4 4 n s | none => s

/-- What a decision has left to this cycle. -/
def Sequel.act (t : Fin 4) (q : Sequel) (s : State) : State :=
  match q with
  | .tooth d m => toothNext t d m s
  | .seek stamp m first lack => seekNext t stamp m first lack s
  | .none | .late _ => s
/-- The next cycle has something to do. -/
def Sequel.acts (q : Sequel) : Bool := match q with | .tooth .. | .seek .. => true | .none | .late _ => false

/-- A decision of this cycle, with what it leaves to the next one. -/
def decided (t : Fin 4) (r : State × Sequel) : State := if r.2.acts then inNext (r.2.act t) r.1 else r.1

/-- A leading edge judged ACCEPT in SYNCED or HOLDOVER (R152, R154, R155, R160, R161). -/
def acceptEdge (t : Fin 4) (stamp : Stamp) (s : State) : State × Sequel :=
  let x := s.wt[t]
  if x.expect = .extra then (modWt t (fun x => { x with prev := some stamp, expect := .zero, extraOk := true }) s, .none)
  else
    let m := (stamp - x.toothAt).toNat
    let big := (x.learn m).2
    let (i, rev, renum) := x.nextTooth true
    let (s, ref) := if i = 0 then refCheck t s else (s, .none)
    let s := modWt t (fun x => { x.pushClass (some stamp) with missrun := 0, teeth := x.teeth + 1 }) s
    let s := recordTooth t 0 big stamp i rev s
    let s :=
      if s.wt[t].st = .lost then s
      else
        let s := modWt t (fun x => { x with
          prev := some stamp, expect := x.after i, setrev := if renum then none else x.setrev }) s
        if x.st = .holdover then showTrk t .synced (modWt t (fun x => { x with stat := setBit x.stat 0 true }) s) else s
    (s, .tooth ⟨false, big, renum, ref, x.st, true, stamp, i, rev⟩ (some m))

/-- An edge is rejected as noise (R152). -/
def noiseEdge (t : Fin 4) (stamp : Stamp) (s : State) : State :=
  let s := modWt t (fun x => { x with noise := inc8 x.noise, stat := setBit x.stat 3 true }) s
  recordTooth t 2 false stamp s.wt[t].tooth.toNat ((s.wt[t].baseA >>> 48).setWidth 8) s

/-- The cycle in which the present window has closed and its edges have qualified (R153). -/
def Trk.closeAt (x : Trk) (prev : Stamp) : Stamp :=
  let off := (x.hi * x.e16 x.expect / 64 + 65535) / 65536
  let lat := x.fn * 2 ^ x.fpsc + 2
  let c := prev + BitVec.ofNat 64 (off + lat * 64 + 63)
  coarse c

/-- A window closes with no accepted edge, in this cycle (R153, R154, R161). Where its tooth reaches REF_LIMIT and MISS_LIMIT
both, the cause shown is REF: the model's choice (log 86). -/
def closeWindow (t : Fin 4) (s : State) : State × Sequel :=
  let x := s.wt[t]
  match x.prev with
  | none => (s, .none)
  | some prev =>
    if x.st = .seeking then (modWt t Trk.restart s, .none)
    else
      let stamp := prev + BitVec.ofNat 64 (x.e16 x.expect / 65536)
      if x.expect = .extra then (modWt t (fun x => { x with prev := some stamp, expect := .zero, extraOk := false }) s, .none)
      else
        let miss := x.missrun + 1
        let s := modWt t (fun x => { x with missrun := miss, synth := inc8 x.synth, stat := setBit x.stat 4 true }) s
        let (i, rev, renum) := x.nextTooth false
        let (s, ref) := if i = 0 then refCheck t s else (s, .none)
        let s := modWt t (Trk.pushClass none) (recordTooth t 1 false stamp i rev s)
        let missed := decide (fld x.limits 7 0 ≤ miss)
        let s :=
          if s.wt[t].st = .lost then s
          else if missed then loseTrack t 2 s
          else
            let s := modWt t (fun x => { x with
              prev := some stamp, expect := x.after i, setrev := if renum then none else x.setrev }) s
            if x.st = .synced then
              showTrk t .holdover (modWt t (fun x => { x with stat := setBit x.stat 1 true }) s) else s
        (s, .tooth ⟨true, false, renum, ref, x.st, !missed, stamp, i, rev⟩ none)

/-- The edge is the origin of a seek (Table 5.5, step 1). -/
def Trk.origin (stamp : Stamp) (x : Trk) : Trk := { (x.pushClass (some stamp)) with prev := some stamp, good := 0 }

/-- SYNCED is entered at tooth 0 of revolution 0 (R149, R160, R163, R189). -/
def syncAt (t : Fin 4) (m : Nat) (stamp : Stamp) (s : State) : State × Sequel :=
  let x := s.wt[t]
  let big := (x.learn m).2
  let ref : RefCheck := if x.pattern = 0 then .none else .passed
  let s := modWt t (fun x => { x with stat := setBit x.stat 0 true, issuedTo := [], expect := x.after 0 }) s
  (showTrk t .synced (recordTooth t 0 big stamp 0 0 s), .tooth ⟨false, big, true, ref, x.st, true, stamp, 0, 0⟩ (some m))

/-- A further edge of a seek that is judged ACCEPT (Table 5.5, steps 4, 6 to 8). That WT_TEETH counts the accepted edges of a
seek, from step 2 on, is the model's choice (log 87). -/
def seekAccept (t : Fin 4) (prev stamp : Stamp) (s : State) : State × Sequel :=
  let x := s.wt[t]
  let m := (stamp - prev).toNat
  if !inRange m then (modWt t (fun x => x.restart.origin stamp) s, .none)
  else
    let teeth := fld x.limits 23 16
    let code := decide (x.pattern = 2 ∧ teeth ≤ x.good) && x.codeMatch
    let zero : Bool := match x.cand with | some c => decide (x.judge c stamp (x.e16 .zero) = .accept) | none => false
    let good := x.good + 1
    let s := modWt t (fun x => { x.pushClass (some stamp) with
      prev := some stamp, good := good, cand := none, teeth := x.teeth + 1 }) s
    if (x.pattern = 0 ∧ teeth ≤ good) ∨ (x.pattern = 1 ∧ zero) ∨ code then syncAt t m stamp s
    else
      let lack := decide (x.pattern ≠ 0 ∧ ¬ x.noref ∧ teeth + 2 * x.n ≤ good)
      let s := if lack then modWt t (fun x => { x with noref := true, stat := setBit x.stat 7 true }) s else s
      (s, .seek stamp m false (if lack then some (min 255 good) else none))

/-- A leading edge in SEEKING (Table 5.5). -/
def seekEdge (t : Fin 4) (stamp : Stamp) (s : State) : State × Sequel :=
  let x := s.wt[t]
  match x.prev with
  | none => (modWt t (Trk.origin stamp) s, .none)
  | some prev =>
    let d := (stamp - prev).toNat
    if x.good = 0 then
      if inRange d then
        (modWt t (fun x => { x.pushClass (some stamp) with prev := some stamp, good := 1, teeth := x.teeth + 1 }) s,
          .seek stamp d true none)
      else (modWt t (Trk.origin stamp) s, .none)
    else
      match x.judge prev stamp x.e with
      | .accept => seekAccept t prev stamp s
      | .late => (s, .late prev)
      | .noise =>
        if x.pattern = 1 ∧ fld x.limits 23 16 ≤ x.good ∧ x.judge prev stamp (x.e16 .extra) = .accept then
          (modWt t (fun x => { x with cand := some stamp }) s, .none)
        else (noiseEdge t stamp s, .none)

/-- A leading edge is judged in this cycle (R152, R163, R190). -/
def decideEdge (t : Fin 4) (stamp : Stamp) (s : State) : State × Sequel :=
  let s := commitDue t s
  let x := s.wt[t]
  match x.st, x.prev with
  | .seeking, _ => seekEdge t stamp s
  | .stopped, _ | .lost, _ | _, none => (s, .none)
  | _, some prev =>
    match x.judge prev stamp (x.e16 x.expect) with
    | .noise => (noiseEdge t stamp s, .none)
    | .accept => acceptEdge t stamp s
    | .late => (s, .late prev)

/-- A LATE edge waits for the close of the window that began at `prev`; it is judged again in the next cycle, where the
publication of the window's tooth may have come (R152 to R154). -/
def judgeLate (t : Fin 4) (prev : Stamp) (judge : State → State) (s : State) : State :=
  atTime (s.wt[t].closeAt prev) (fun s =>
    let r := closeWindow t (commitDue t s)
    inNext (fun s => judge (r.2.act t s)) r.1) s

/-- A leading edge is judged, over at most `fuel` windows. -/
def judgeEdge (t : Fin 4) (stamp : Stamp) : Nat → State → State
  | 0, s => s
  | fuel + 1, s =>
    let r := decideEdge t stamp s
    match r.2 with
    | .late prev => judgeLate t prev (judgeEdge t stamp fuel) r.1
    | _ => decided t r

/-- An edge of one input is judged by several trackers in one cycle, each on its own (R146). -/
def decideAll (l : List (Fin 4)) (stamp : Stamp) (s : State) : State × List (Fin 4 × Sequel) :=
  l.foldl (fun r t => let q := decideEdge t stamp r.1; (q.1, r.2 ++ [(t, q.2)])) (s, [])
/-- What their decisions leave to the next cycle comes about in it; LATE edges wait. -/
def judgeAll (l : List (Fin 4)) (stamp : Stamp) (s : State) : State :=
  let r := decideAll l stamp s
  let s := if r.2.any fun q => q.2.acts then inNext (fun s => r.2.foldl (fun s q => q.2.act q.1 s) s) r.1 else r.1
  r.2.foldl (fun s q => match q.2 with | .late prev => judgeLate q.1 prev (judgeEdge q.1 stamp 600) s | _ => s) s

/-! Commands (Table 5.8). -/

/-- The checks of R148. -/
def trkConfigOk (x : Trk) (s : State) : Bool :=
  decide (x.pattern ≠ 3) && decide (8 ≤ x.n) && !(decide (x.pattern = 1) && decide (64 * x.lo ≤ x.refPos * x.hi)) &&
  !(decide (x.pattern = 2) && (decide (x.wlen = 0 ∨ 64 < x.wlen) || decide (s.win[x.wsel].mode ≠ 0)))

def wtStartStatus (t : Fin 4) (s : State) : CmdStatus :=
  let x := s.wt[t]
  if !x.follows && !trkConfigOk x s then .argInvalid
  else if x.st ≠ .stopped ∨ (x.follows ∧ ¬ s.link.tvalid) then .stateRefused
  else .ok
def wtRunStatus (t : Fin 4) (s : State) : CmdStatus := if s.wt[t].st = .stopped then .stateRefused else .ok
def wtSetrevStatus (t : Fin 4) (s : State) : CmdStatus :=
  let x := s.wt[t]
  if (x.st = .synced ∨ x.st = .holdover) ∧ ¬ x.follows ∧ ¬ x.table.any EvEntry.uncommitted then .ok else .stateRefused

/-- A tracker command, from the host or an engine: its effect when accepted, its outcome always. -/
def wtCommand (t : Fin 4) (from_ : Option (Fin 16)) (st : CmdStatus) (f : State → State) (s : State) : State :=
  wtAnswer t from_ st (if st = .ok then f s else s)

def wtReseek (t : Fin 4) (from_ : Option (Fin 16)) (s : State) : State :=
  wtCommand t from_ (wtRunStatus t s) (fun s => discardAll t (enterSeeking t 1 s)) s

end Sys2Proof.Machine
end

