-- ==== Sys2Proof/Machine/Time.lean ====
section
/-! DEFINITION. Time: the domain state's commands and transitions (R26 to R35, R467), the load of
TB64 and what moves with it (R36 to R40, R167). -/

namespace Sys2Proof.Machine

/-- A host START, or a domain transition, ends DOZE in its own cycle (R415). -/
def endDoze (s : State) : State := modSys (fun x => if x.pwr = .doze then { x with pwr := .active } else x) s

/-! Domain commands. -/

/-- A fault enabled in SYS_SAFE_MASK is active (R467). -/
def faultActive (s : State) : Bool :=
  (bit s.dom.mask 0 && anyMchk s) || (bit s.dom.mask 1 && anyForced s) || (bit s.dom.mask 2 && s.link.timef) ||
  (bit s.dom.mask 3 && bit s.pins.fault 3) || (bit s.dom.mask 4 && bit s.pins.fault 4) ||
  (bit s.dom.mask 5 && bit s.link.stat 0)

/-- SYS_DSTATE.PERMIT (R29). -/
def permit (s : State) : Bool := !anyMchk s && !anyForced s && !faultActive s

/-- The state a domain command is judged against: SAFE once a commanded SAFE waits (R31). -/
def judgedState (s : State) : DomState := if s.dom.safeWait then .safe else s.dom.state

/-- The domain commands (Table 1.11). -/
inductive DomCmd where
  | arm | run | hold | stop | disarm | safe | clear
  deriving DecidableEq, Repr

/-- The state a command leads to, where Table 1.6 allows it from `d`. -/
def DomCmd.target (c : DomCmd) (d : DomState) : Option DomState :=
  match c, d with
  | .arm, .config => some .armed
  | .run, .armed | .run, .hold => some .run
  | .hold, .run => some .hold
  | .stop, .run | .stop, .hold => some .armed
  | .disarm, .armed => some .config
  | .safe, .config | .safe, .armed | .safe, .run | .safe, .hold => some .safe
  | .clear, .safe => some .config
  | _, _ => none

/-- The outcome of a domain command (R27 to R33, R440). -/
def domStatus (c : DomCmd) (s : State) : CmdStatus :=
  match c.target (judgedState s) with
  | none => .stateRefused
  | some _ =>
    if !live s then .stateRefused
    else if c ≠ .safe ∧ (s.dom.pend ∨ (c ≠ .clear ∧ ¬ isRoot s)) then .stateRefused
    else if c = .arm ∧ faultActive s then .stateRefused
    else if c = .clear ∧ ¬ permit s then .stateRefused
    else .ok

def domAnswer (st : CmdStatus) (s : State) : State :=
  refuse (bit s.sys.ie 16) st (modDom (fun d => { d with cmd := d.cmd.answer st }) s)

/-- OBSERVE begins or ends: the record and the pins (R34, R430). -/
def setObserve (on : Bool) (s : State) : State :=
  if s.dom.observe = on then s
  else
    let s := modDom (fun d => { d with observe := on }) s
    refreshPins (recordIn 15 0 s.tb.now (BitVec.ofNat 64 (s.dom.state.code + 8 * b2n on)) [] s)

/-- The effect of an accepted domain command (R30 to R32, R389). A `CLEAR` accepted before the effective frame of the
root's SAFE broadcast leaves that broadcast to be sent to its end: the model's choice (log 69). -/
def domEffect (c : DomCmd) (s : State) : State :=
  match c with
  | .safe =>
    modDom (fun d => { d with pend := false, safeWait := true, bcast := some (frame s + BitVec.ofNat 48 d.lead.toNat) }) s
  | .clear =>
    if isRoot s then
      modDom (fun d => { d with pend := true, pstate := .config, eff := frame s + BitVec.ofNat 48 d.lead.toNat }) s
    else setObserve true (enterDomain .config s)
  | _ =>
    match c.target s.dom.state with
    | some t => modDom (fun d => { d with pend := true, pstate := t, eff := frame s + BitVec.ofNat 48 d.lead.toNat, bcast := none }) s
    | none => s

def domCommand (c : DomCmd) (s : State) : State :=
  let st := domStatus c s
  domAnswer st (if st = .ok then domEffect c s else s)

/-- A transition takes effect at this frame boundary (R21, R23). -/
def moveDomain (d : DomState) (s : State) : State := enterDomain d (modDom (fun x => { x with movedIn := some (frame s) }) s)

/-- What is due at this frame boundary takes effect (R21, R30, R31); not in REPLAY (R440). -/
def applyTransition (s : State) : State :=
  if !live s ∨ s.dom.movedIn = some (frame s) then s
  else if s.dom.safeWait then moveDomain .safe (modDom (fun d => { d with safeWait := false }) s)
  else if s.dom.pend ∧ 0 ≤ (frame s - s.dom.eff).toInt then
    let late := decide (frame s ≠ s.dom.eff)
    moveDomain s.dom.pstate (modDom (fun d => { d with pend := false, late := if late then inc8 d.late else d.late }) s)
  else s

/-- The root's present state is taken at this boundary, where no other transition took effect, and no pending one is left; no
broadcast takes the device out of SAFE (R23, R29, R388). -/
def takeRoot (s : State) : State :=
  match s.link.takeDue with
  | some d =>
    if s.dom.state = .safe ∨ s.dom.safeWait ∨ s.dom.movedIn = some (frame s) then s
    else moveDomain d (modDom (fun x => { x with pend := false, late := inc8 x.late }) s)
  | none => s

/-- What the link has asked for at this boundary: the root's state, OBSERVE (R376, R387, R388, R389);
in REPLAY it waits (R440). -/
def applyLink (s : State) : State :=
  if !live s then s
  else
    let s := takeRoot s
    let s := if s.link.obsDue then setObserve true s else s
    modLink (fun l => { l with takeDue := none, obsDue := false }) s

/-! The load of TB64. -/

/-- A compare armed outside its placement horizon (R40). -/
def Chan.outside (c : Chan) : Bool := c.shared && c.armed && !c.horizon && !c.pulse

/-- What of a channel lies in time moves by `d`: a committed edge and its pulse complete as they were placed (R40). That
PERIOD_MEASURE begins anew is the model's choice (log 67). -/
def Chan.moveTime (d : Stamp) (c : Chan) : Chan :=
  let c := { c with filtFrom := c.filtFrom.map (· + d) }
  let c := if c.shared ∧ c.mode = 5 then { c with pvalid := false, prevStamp := none } else c
  if c.horizon ∨ c.pulse then { c with edgeAt := c.edgeAt + d, endAt := c.endAt + d } else c

/-- A compare outside its horizon is disarmed without an edge (R40). -/
def Chan.loadDisarm (c : Chan) : Chan := if c.outside then { c.disarm with event := none } else c

/-- What of a pin lies in time moves by `d`. -/
def Pin.moveTime (d : Stamp) (x : Pin) : Pin :=
  { x with edges := x.edges.map fun e => (e.1 + d, e.2), hist := x.hist.map fun e => (e.1 + d, e.2)
           prevTrail := x.prevTrail.map (· + d)
           pulses := x.pulses.map fun q => { q with lead := q.lead + d, clipAt := q.clipAt.map (· + d), till := q.till.map (· + d) }
           window := x.window + frameOf d }

/-- TBJ of the channels whose compare the load disarms, with their requests (R40, R70). -/
def loadFlags (s : State) : State := forAll 256 (fun n x => if s.ch[n].outside then setFlag n 6 x else x) s

/-- What of the pins, the channels, the wheel inputs and the tracker filters lies in time moves by `d`, frame numbers by `f`. -/
def moveParts (d : Stamp) (f : BitVec 48) (s : State) : State :=
  { s with
    pin := s.pin.map (Pin.moveTime d)
    ch := s.ch.map (Chan.moveTime d)
    win := s.win.map fun w => { w with since := w.since + f, leadAt := w.leadAt.map (· + d), noted := w.noted.map fun q => (q.1, q.2 + d) }
    wt := s.wt.map fun x => { x with filtFrom := x.filtFrom.map (· + d) } }

/-- The effective frames of the pending transition and of the root's broadcast move (R38). -/
def Domain.moveTime (f : BitVec 48) (x : Domain) : Domain :=
  { x with eff := x.eff + f, bcast := x.bcast.map (· + f), movedIn := x.movedIn.map (· + f) }

/-- VALID of a tracker that a load meets falls with the angle that the old time gave (R160, R167). -/
def loadInvalidates (s : State) : State :=
  { s with wt := s.wt.map fun x => if x.st = .stopped then x else x.invalidate s.tb.now }

/-- TB64 takes the value `v`, a frame boundary, in this cycle, which a boundary would have begun: what lies in time moves with it,
and in the loaded frame compares are disarmed and trackers seek (R38, R40, R167); `keep` leaves the effective frame of a pending
transition where it is (R376). -/
def moveTb (v : Stamp) (keep : Bool) (s : State) : State :=
  let d := v - s.tb.now
  let f := frameOf v - frame s
  let s := modDom (fun x => if keep then x else x.moveTime f) (moveParts d f (loadInvalidates s))
  let s := modTb (fun t => { t with now := v, frameDue := true }) s
  let s := forAll 4 trkLoad (loadFlags s)
  { s with ch := s.ch.map Chan.loadDisarm }

/-- `f` follows at the next frame boundary, or at this one while its R21 is due. -/
def atBoundary (f : State → State) (s : State) : State :=
  if s.tb.frameDue then f s else atClk (s.tb.clk + (1024 - frameCycle s)) f s

def tbLoadStatus (s : State) : CmdStatus :=
  if s.dom.state ≠ .config ∨ s.tb.src ∨ s.tb.loadPend then .stateRefused else .ok

/-! The commands. -/

def execDomainArm (p : Port) (s : State) : Host.Outcome State Fault Refusal := done (host p (domCommand .arm) s)
def execDomainRun (p : Port) (s : State) : Host.Outcome State Fault Refusal := done (host p (domCommand .run) s)
def execDomainHold (p : Port) (s : State) : Host.Outcome State Fault Refusal := done (host p (domCommand .hold) s)
def execDomainStop (p : Port) (s : State) : Host.Outcome State Fault Refusal := done (host p (domCommand .stop) s)
def execDomainDisarm (p : Port) (s : State) : Host.Outcome State Fault Refusal := done (host p (domCommand .disarm) s)
def execDomainSafe (p : Port) (s : State) : Host.Outcome State Fault Refusal := done (host p (domCommand .safe) s)
def execDomainClear (p : Port) (s : State) : Host.Outcome State Fault Refusal := done (host p (domCommand .clear) s)

/-- The boundary at which the pending transition is due comes, and it takes effect (R30). -/
def transitionEffect (s : State) : State :=
  if !s.dom.pend && !s.dom.safeWait then s
  else if !s.dom.safeWait && decide (0 < (s.dom.eff - frame s).toInt) then
    atTime (s.dom.eff.setWidth 64 <<< 16) applyTransition s
  else atBoundary applyTransition s

def execDomainTransitionEffect (s : State) : Host.Outcome State Fault Refusal := done (transitionEffect s)

/-- `LOAD` (R38, R39). -/
def tbLoad (s : State) : State :=
  let st := tbLoadStatus s
  modTb (fun t => { t with
    cmd := t.cmd.answer st
    loadPend := t.loadPend || decide (st = .ok)
    loadVal := if st = .ok then join t.setHi t.setLo &&& 0xFFFF_FFFF_FFFF_0000 else t.loadVal }) s

def execTbLoad (p : Port) (s : State) : Host.Outcome State Fault Refusal := done (host p tbLoad s)

/-- The pending load takes effect at the boundary (R38, R40, R167). -/
def tbLoadEffect (s : State) : State :=
  if s.tb.loadPend then
    atBoundary (fun s => modTb (fun t => { t with loadPend := false }) (moveTb s.tb.loadVal false s)) s
  else s

def execTbLoadEffect (s : State) : Host.Outcome State Fault Refusal := done (tbLoadEffect s)

end Sys2Proof.Machine
end

