-- ==== Sys2Proof/Machine/Job.lean ====
section
/-! DEFINITION. Job: product tracking: detections, stages, binding, verdicts, the intake, the rewind
mark, completion records (R254 to R280). -/

namespace Sys2Proof.Machine

/-- The well endpoint code of line `t` (Table 10.4). -/
def lineCode (t : Fin 4) : Nat := 0x28 + t.val
/-- The outcome of a command or a refused write of line `t` (R278, R276). -/
def jobAnswer (t : Fin 4) (st : CmdStatus) (s : State) : State :=
  refuse (bit s.job[t].ie 16) st (modLine t (fun x => { x with cmd := x.cmd.answer st }) s)

/-! Detection (R255, R256). -/

/-- The lowest FREE slot. -/
def Line.freeSlot (x : Line) : Option (Fin 512) := (List.finRange 512).find? fun i => decide (x.slots[i].st = .free)

/-- A product that gets no slot: 11 SLOTFULL, 12 NOANGLE (R256, R270). -/
def untracked (t : Fin 4) (cause : Nat) (ang : Angle) (s : State) : State :=
  modLine t (fun x =>
    let y := (x.note .untrk 5).complete (busMaster s) x.psnNext 6 (setBit 0 cause true) ang
    { y with psnNext := x.psnNext + 1 }) s

/-- A detection of line `t` with stamp `stamp`. -/
def detect (t : Fin 4) (stamp : Stamp) (s : State) : State :=
  let x := s.job[t]
  let w := s.wt[t]
  if w.valid then
    let ang := toA32 (w.angleAt stamp)
    let near := match x.lastAng with | some l => decide ((ang - l).toInt < (fld x.det 23 0 : Nat)) | none => false
    if near then modLine t (Line.count .detgap 1) s
    else match x.freeSlot with
      | none => untracked t 11 ang s
      | some i =>
        modLine t (fun x => { x with
          psnNext := x.psnNext + 1, lastAng := some ang,
          slots := x.slots.set i { st := .opened, psn := x.psnNext, ang := ang } }) s
  else untracked t 12 0 s

/-- The line takes detections: enabled, in RUN, HOLD or SAFE (R255). -/
def detects (s : State) (t : Fin 4) : Bool :=
  s.job[t].en && allClocked s && decide (s.dom.state = .run ∨ s.dom.state = .hold ∨ s.dom.state = .safe)

/-- A channel that serves as a detector or a verdict input: CAPTURE in shared mode (R255, R267). -/
def Chan.stamps (c : Chan) : Bool := decide (c.mode = 4) && c.shared

/-! Verdicts and reports (R267). -/

/-- A report for slot `i`: 1 PRINTED, 2 REJECT, 3 PASS, 4 FAIL. A PRINTED record follows the BOUND
one (R271). -/
def slotReport (t : Fin 4) (i : Fin 512) (code : Nat) (s : State) : State :=
  let x := s.job[t].slots[i]
  if code = 3 then slotVerdict t i 1 s
  else if code = 4 then slotVerdict t i 2 s
  else match x.st with
  | .rejecting => modLine t (Line.count .vlate 1) s
  | .free => modLine t (Line.count .vnoslot 1) s
  | st =>
    if code = 2 then modSlot t i (fun y => { y with cause := setBit y.cause 4 true }) s
    else
      let s := if x.printed ∨ st = .opened then s else modLine t (Line.complete (busMaster s) x.psn 3 0 x.ang) s
      modSlot t i (fun y => { y with printed := true }) s

/-- A verdict record: code 3 or 4 for a PSN. -/
def verdictFor (t : Fin 4) (psn : Word) (code : Nat) (s : State) : State :=
  match s.job[t].find psn with
  | some i => slotReport t i code s
  | none => modLine t (Line.count .vnoslot 1) s

/-- A verdict-pin edge acts; one that is a detection too acts at the end of its cycle, after stages and reports (R272). -/
def pinEdge (t : Fin 4) (detection : Bool) (stamp : Stamp) (s : State) : State :=
  if detection then defer (.line t) (modLine t (fun x => { x with pinEdge := some stamp }) s) else verdictPin t stamp s

/-- The lines take a taken edge of channel `n`: detections, then verdict edges (R255, R267, R272). -/
def lineEdges (n : Fin 256) (stamp : Stamp) (s : State) : State :=
  if !s.ch[n].stamps then s
  else forAll 4 (fun t s =>
    let x := s.job[t]
    let detection := detects s t && decide (fld x.det 31 24 = n.val)
    let s := if detection then detect t stamp s else s
    if x.en ∧ allClocked s ∧ bit x.vpin 23 ∧ fld x.vpin 31 24 = n.val then pinEdge t detection stamp s else s) s

/-! Stages (R258). -/

inductive Stage where
  | bind | print | decision | gate
  deriving DecidableEq, Repr

/-- The stage a slot has reached at the published angle `a`, if one is due. -/
def Line.dueStage (x : Line) (a : Angle) (v : Slot) : Option Stage :=
  let reached (o : Fin 6) : Bool := decide (0 ≤ (a - (v.ang + x.ofsOf o)).toInt)
  match v.st with
  | .free => none
  | .opened => if reached 0 then some .bind else none
  | .bound => if !v.print then (if reached 1 then some .print else none)
              else if reached 4 then some .decision else none
  | .rejecting => if reached 5 then some .gate else none

/-- The slot with the lowest PSN whose stage is due, with that stage. -/
def nextStage (t : Fin 4) (s : State) : Option (Fin 512 × Stage) :=
  let x := s.job[t]
  let a := s.wt[t].published s.tb.now
  (x.oldestFirst fun v => (x.dueStage a v).isSome).head?.bind fun i => (x.dueStage a x.slots[i]).map fun g => (i, g)

/-- The words of a bind item (Table 9.5). -/
def bindItem (x : Line) (i : Fin 512) (v : Slot) (r : Option JobRec) : List (BitVec 64) :=
  let w0 (flags vlen : Nat) : BitVec 64 := join v.psn (pack [(i.val, 23), (v.kind.toNat, 21), (flags, 8), (vlen, 0)])
  match r with
  | some r => [w0 r.flags.toNat r.vlen.toNat, join r.patLen r.patAddr] ++ r.vdata.toList ++ [join v.ang r.tag]
  | none =>
    [w0 0 0, if v.kind = 1 then join x.defLen x.defAddr else 0] ++ List.replicate 5 0 ++ [join v.ang 0]

/-- The bind stage of slot `i` (R265, R266). -/
def bindSlot (t : Fin 4) (i : Fin 512) (s : State) : State :=
  let x := s.job[t]
  let v := x.slots[i]
  let k : Fin 64 := Fin.ofNat 64 v.psn.toNat
  let r := x.held[k].filter fun r => decide (r.psn = v.psn)
  let v := match r with
    | some r => { v with kind := 0, flags := r.flags, cause := if bit r.flags 0 then setBit v.cause 4 true else v.cause }
    | none => { v with kind := if bit x.cfg 28 then 1 else 2, cause := setBit v.cause 0 true }
  let s := if r.isSome then s else modLine t (Line.note .nojob 0) s
  let (s, v) :=
    if bit x.wells 31 then
      let w : Fin 64 := Fin.ofNat 64 (fld x.wells 29 24)
      if 8 ≤ s.well[w].room s.tb.clk then
        ((bindItem x i v r).foldl (fun s d => wellPush w (lineCode t) d 0 s) s, v)
      else (modLine t (Line.note .bindlost 7) s, { v with cause := setBit v.cause 6 true })
    else (s, v)
  modLine t (fun y =>
    let y := { y with slots := y.slots.set i { v with st := .bound },
                      held := if r.isSome then y.held.set k none else y.held }
    let y := y.complete (busMaster s) v.psn (if r.isSome then 1 else 2) (if r.isSome then 0 else v.cause) v.ang
    if v.printed then y.complete (busMaster s) v.psn 3 0 v.ang else y) s

/-- The print stage (Table 9.2). -/
def printSlot (t : Fin 4) (i : Fin 512) (s : State) : State :=
  let hold := decide (s.dom.state = .hold)
  modSlot t i (fun v => { v with print := true, cause := if hold then setBit v.cause 5 true else v.cause }) s

/-- The gate event of a rejected product (R268). -/
def placeGate (t : Fin 4) (v : Slot) (s : State) : State × CmdStatus :=
  let x := s.job[t]
  let n : Fin 256 := Fin.ofNat 256 (fld x.gate 31 24)
  let aux : BitVec 24 := BitVec.ofNat 24 (2 <<< 17 + b2n (bit x.gate 23) <<< 14 + fld x.gate 10 0)
  placeEvent t (Fin.ofNat 16 (n.val / 16)) (v.ang + x.ofsOf 5) (x.gateW &&& 0xFF_FFFF) aux n s

/-- The decision stage (R268, R276). -/
def decideSlot (t : Fin 4) (i : Fin 512) (s : State) : State :=
  let x := s.job[t]
  let v := x.slots[i]
  let miss := bit x.cfg 30 && decide (v.verdict = 0)
  let s := if miss then modLine t (Line.note .vmiss 3) s else s
  let c := if miss then setBit v.cause 1 true else v.cause
  let c := if v.verdict = 2 then setBit c 2 true else c
  let c := if bit x.cfg 29 ∧ v.kind = 0 ∧ ¬ bit v.flags 1 ∧ ¬ v.printed then setBit c 3 true else c
  if c = 0 then
    modLine t (fun y => ({ y with slots := y.slots.set i { v with st := .free } }).complete (busMaster s) v.psn 4 0 v.ang) s
  else
    let (s, st) := placeGate t v s
    let s := if st = .ok then s else modLine t (Line.note .gatefail 6) s
    let c := if st = .ok then c else setBit c 7 true
    let s := modLine t (fun y =>
      ({ y with slots := y.slots.set i { v with st := .rejecting, cause := c } }).complete (busMaster s) v.psn 5 c v.ang) s
    pulse (Fin.ofNat 496 (404 + t.val)) s

/-- The stage action `g` of line `t`, when it is the next one due; a line makes one in a cycle (R258). -/
def stageAction (t : Fin 4) (g : Stage) (s : State) : State :=
  if !s.job[t].en || !allClocked s then s
  else
    let s := if s.job[t].staged = some s.tb.clk then runClk (s.tb.clk + 1) s else s
    match nextStage t s with
    | some (i, h) =>
      if h ≠ g then s
      else
        let s := modLine t (fun x => { x with staged := some s.tb.clk }) s
        match g with
        | .bind => bindSlot t i s
        | .print => printSlot t i s
        | .decision => decideSlot t i s
        | .gate => modSlot t i (fun v => { v with st := .free }) s
    | none => s

/-! The intake (R260 to R264). -/

/-- Eight words from word address `a` through the host port: the words, and whether one of them is unreadable (R260, R263). -/
def readRing (t : Fin 4) (a : Nat) (s : State) : State × Vector (BitVec 64) 8 × Bool :=
  let s := serve 25 ((List.range 8).foldl (fun s i => enqueue ⟨25, a + i, .read, .job t⟩ s) s)
  (List.finRange 8).foldl (fun (r : State × Vector (BitVec 64) 8 × Bool) (i : Fin 8) =>
    let (s, v, p) := awaitData 25 (.job t) r.1
    (s, r.2.1.set i v, r.2.2 || p)) (s, Vector.replicate 8 0, false)

/-- Line `t` has its record, to be judged at the end of this cycle: after a bind of the same cycle, which it misses (R263, R272). -/
def takeRecord (t : Fin 4) (w : Vector (BitVec 64) 8) (bad : Bool) (s : State) : State :=
  defer (.line t) (modLine t (fun x => { x with taken := some (w, bad) }) s)

/-- One intake, which follows the one before; DOZE clocks none (R260, R263, R414, R440). -/
def intake (t : Fin 4) (s : State) : State :=
  let s := if s.job[t].taken.isSome then runClk (s.tb.clk + 1) s else s
  let x := s.job[t]
  if !(x.en && x.taken.isNone && decide (x.inp ≠ x.wr) && live s && allClocked s) then s
  else
    let a := (fld x.ring 23 6 * 64 + 64 * (x.inp.toNat % x.size)) / 8
    let (s, w, bad) := readRing t a s
    let data := (List.finRange 8).map fun i => mkRec 8 i.val s.tb.now w[i]
    let s := recordIn 7 t s.tb.now (join (BitVec.ofNat 32 x.inp.toNat) (lo32 w[0])) data s
    takeRecord t w bad s

/-! The rewind mark, commands and writes (R262, R273 to R275, R278, R279). -/

def Line.ringWrStatus (w : BitVec 16) (x : Line) : CmdStatus :=
  if x.size < (w - x.wr).toNat ∨ x.size < (w - x.inp).toNat then .stateRefused else .ok

/-- A write of JOB_RING_WR; it acts after the intake of its cycle (R272). -/
def writeRing (t : Fin 4) (w : BitVec 16) (s : State) : State :=
  let s := settleLine t s
  let x := s.job[t]
  let st := x.ringWrStatus w
  if st = .ok then
    modLine t (fun x =>
      if x.markv ∧ x.size < (w - x.mark).toNat then { x with wr := w, markv := false, stat := setBit x.stat 9 true }
      else { x with wr := w }) s
  else jobAnswer t st s

/-- The checks of R259, Table 9.14 and Table 9.15. -/
def Line.enableOk (x : Line) : Bool :=
  let o (i : Fin 6) : Nat := x.ofs[i].toNat
  let base := fld x.ring 23 6 * 64
  decide (0 < o 0 ∧ o 0 ≤ o 1 ∧ o 1 < o 4) && decide (o 2 < o 3 ∧ o 3 ≤ o 4 ∧ o 4 < o 5 ∧ o 5 < 0x4000_0000) &&
  decide (o 5 - o 2 ≤ 255 * x.pitch.toNat) && decide (fld x.ring 31 28 ≤ 8) && decide (fld x.crCfg 23 20 ≤ 12) &&
  decide (base / 2 ^ 21 = (base + 64 * x.size - 1) / 2 ^ 21)

def jobEnableStatus (t : Fin 4) (s : State) : CmdStatus :=
  if !s.job[t].enableOk then .argInvalid
  else if s.job[t].en ∨ s.dom.state ≠ .config then .stateRefused else .ok
def jobDisableStatus (t : Fin 4) (s : State) : CmdStatus :=
  if !s.job[t].en ∨ s.dom.state ≠ .config then .stateRefused else .ok
def setmarkStatus (t : Fin 4) (s : State) : CmdStatus :=
  let x := s.job[t]
  if x.size < (x.wr - x.arg.setWidth 16).toNat then .argInvalid
  else if x.rewinding then .stateRefused else .ok
def rewindStatus (t : Fin 4) (s : State) : CmdStatus :=
  let x := s.job[t]
  let d := (x.mark - x.inp).toNat
  if !x.markv ∨ x.rewinding ∨ (1 ≤ d ∧ d ≤ x.size) then .stateRefused else .ok
def setpsnStatus (t : Fin 4) (s : State) : CmdStatus :=
  if s.job[t].inflight ≠ 0 ∨ s.dom.state = .run ∨ s.dom.state = .hold ∨ s.dom.state = .safe then .stateRefused else .ok

/-- A line command, judged after the intake of its cycle (R272). -/
def jobCommand (t : Fin 4) (judge : State → CmdStatus) (f : State → State) (s : State) : State :=
  let s := settleLine t s
  jobAnswer t (judge s) (if judge s = .ok then f s else s)

def jobDisable (t : Fin 4) (s : State) : State :=
  modLine t (fun x => { x with en := false, held := Vector.replicate 64 none }) (closeSlots t 9 s)

/-- FLUSH: the held store is emptied, each record counted. -/
def Line.flush (x : Line) : Line := { x.count .orphan x.heldCount with held := Vector.replicate 64 none }

def Line.rewind (x : Line) : Line :=
  { x with rwEnd := x.inp, inp := x.mark, deltaNow := x.delta, rewinding := decide (x.mark ≠ x.inp) }

/-! Completion records (R270). -/

/-- The oldest waiting record is written to host memory and announced. -/
def writeCompletion (t : Fin 4) (s : State) : State :=
  let x := s.job[t]
  match x.queue with
  | [] => s
  | c :: rest =>
    let size := x.crSize
    if !bit x.crCfg 31 ∨ x.crFull ∨ ¬ busMaster s ∨ ¬ allClocked s then s
    else
      let at_ := x.crWr.toNat % size
      let d : List (BitVec 32) := [c.psn,
        pack [(c.cause.toNat, 16), (b2n x.phase, 15), (t.val, 8), (c.kind.toNat, 0)], c.ang, (frame s).setWidth 32]
      let bytes := d.flatMap fun (w : BitVec 32) => (List.range 4).map fun i => ((w >>> (8 * i)).setWidth 8, false)
      let s := emit (.hostWrite (x.crBase + BitVec.ofNat 64 (16 * at_)) bytes) s
      let s := modLine t (fun x => { x with
        queue := rest, crWr := BitVec.ofNat 16 ((at_ + 1) % size),
        phase := if at_ + 1 = size then !x.phase else x.phase }) s
      pulsePriv (Fin.ofNat 32 (fld x.crCfg 28 24)) 1 s

/-- The next item of the report well (R267). -/
def reportItem (t : Fin 4) (s : State) : State :=
  let k : Fin 64 := Fin.ofNat 64 (fld s.job[t].wells 21 16)
  let s := wellTurn k s
  let x := s.job[t]
  if !(x.en && allClocked s && bit x.wells 23 && s.well[k].reads (lineCode t)) then s
  else match s.well[k].seen s.tb.clk with
  | [] => s
  | it :: _ =>
    let s := wellDrop k (wellReport k it s)
    let psn := hi32 it.data
    let code := fld it.data 31 28
    let i : Fin 512 := Fin.ofNat 512 (fld it.data 24 16)
    if it.readTag ≠ 0 ∨ code = 0 ∨ 4 < code ∨ x.slots[i].psn ≠ psn then modLine t (Line.count .rptbad 1) s
    else slotReport t i code s

/-- A write of JOB_VREC (R267). -/
def verdictRecord (p : Port) (t : Fin 4) (code : Nat) (s : State) : State :=
  if code = 3 ∨ code = 4 then
    let psn := match p with | .pcie _ => s.job[t].stagePcie | .spi => s.job[t].stageSpi
    verdictFor t psn code (recordIn 9 t s.tb.now (join (BitVec.ofNat 32 code) psn) [] s)
  else jobAnswer t .argInvalid s

/-! The commands. -/

def execBind (t : Fin 4) (s : State) : Host.Outcome State Fault Refusal := done (stageAction t .bind s)
def execPrintStage (t : Fin 4) (s : State) : Host.Outcome State Fault Refusal := done (stageAction t .print s)
def execDecision (t : Fin 4) (s : State) : Host.Outcome State Fault Refusal := done (stageAction t .decision s)
def execGateAngle (t : Fin 4) (s : State) : Host.Outcome State Fault Refusal := done (stageAction t .gate s)
/-- A slot opened in SAFE is closed in the cycle after (R269). -/
def safeSlotClose (t : Fin 4) (s : State) : State :=
  if s.dom.state = .safe ∧ allClocked s then inNext (closeSlots t 8) s else s
def execSafeSlotClose (t : Fin 4) (s : State) : Host.Outcome State Fault Refusal := done (safeSlotClose t s)
def execIntake (t : Fin 4) (s : State) : Host.Outcome State Fault Refusal := done (intake t s)
def execReportWellItem (t : Fin 4) (s : State) : Host.Outcome State Fault Refusal := done (reportItem t s)
def execCompletionRecord (t : Fin 4) (s : State) : Host.Outcome State Fault Refusal := done (writeCompletion t s)
def execVerdictRecord (p : Port) (t : Fin 4) (code : BitVec 4) (s : State) : Host.Outcome State Fault Refusal :=
  done (host p (verdictRecord p t code.toNat) s)
def execJobVrecPsnWrite (p : Port) (t : Fin 4) (v : BitVec 32) (s : State) : Host.Outcome State Fault Refusal :=
  done (host p (modLine t fun x => match p with
    | .pcie _ => { x with stagePcie := v }
    | .spi => { x with stageSpi := v }) s)
def execJobRingWrWrite (p : Port) (t : Fin 4) (v : BitVec 32) (s : State) : Host.Outcome State Fault Refusal :=
  done (host p (writeRing t (v.setWidth 16)) s)
def execJobEnable (p : Port) (t : Fin 4) (s : State) : Host.Outcome State Fault Refusal :=
  done (host p (jobCommand t (jobEnableStatus t) (modLine t fun x => { x with en := true })) s)
def execJobDisable (p : Port) (t : Fin 4) (s : State) : Host.Outcome State Fault Refusal :=
  done (host p (jobCommand t (jobDisableStatus t) (jobDisable t)) s)
def execSetmark (p : Port) (t : Fin 4) (s : State) : Host.Outcome State Fault Refusal :=
  done (host p (jobCommand t (setmarkStatus t) (modLine t fun x => { x with mark := x.arg.setWidth 16, markv := true })) s)
def execRewind (p : Port) (t : Fin 4) (s : State) : Host.Outcome State Fault Refusal :=
  done (host p (jobCommand t (rewindStatus t) (modLine t Line.rewind)) s)
def execJobFlush (p : Port) (t : Fin 4) (s : State) : Host.Outcome State Fault Refusal :=
  done (host p (jobCommand t (fun _ => .ok) (modLine t Line.flush)) s)
def execSetpsn (p : Port) (t : Fin 4) (s : State) : Host.Outcome State Fault Refusal :=
  done (host p (jobCommand t (setpsnStatus t) (modLine t fun x => { x with psnNext := x.arg })) s)

end Sys2Proof.Machine
end

