-- ==== Sys2Proof/Machine/Timer.lean ====
section
/-! DEFINITION. Timer: the commands of the timer channels (R41 to R70). -/

namespace Sys2Proof.Machine

/-- The channel's own counter steps: it runs in local mode and is no high half of a cascade (R41, R63). -/
def Chan.counts (n : Fin 256) (c : Chan) : Bool := c.run && !c.shared && !(decide (n.val % 2 = 1) && decide (c.mode = 6))

/-- The next step of the counter of `n`, in its cycle. -/
def stepCounter (n : Fin 256) (s : State) : State :=
  if s.ch[n].counts n then atClk s.ch[n].nextStep (counterStep n) s else s

/-- The armed compare of `n` enters its horizon; an event commits no later (R49, R183). -/
def enterHorizon (n : Fin 256) (s : State) : State :=
  commitEdge n (match s.ch[n].event with
    | some v => if (s.wt[v.trk].entry v.idx).st = .issued then commitEvent v.trk v.idx s else s
    | none => s)

/-- The horizon of the armed compare of `n` comes (R49). -/
def reachHorizon (n : Fin 256) (s : State) : State :=
  let c := s.ch[n]
  if c.armed && !c.horizon && c.shared then atTime (coarse c.tgt - 256) (enterHorizon n) s else s

/-- An edge whose action may end with it: then its event ends (R184). -/
def endingWith (ev : Option IssuedEvent) (r : State × Bool) : State := if r.2 then endEvent ev r.1 else r.1

/-- The committed edge of `n` comes to its time (R58, R184). -/
def reachTarget (n : Fin 256) (s : State) : State :=
  let c := s.ch[n]
  if c.horizon && !c.pulse then atTime c.edgeAt (fun s => endingWith c.event (targetEdge n s)) s else s

/-- The pulse of `n` ends (R60). -/
def reachPulseEnd (n : Fin 256) (s : State) : State :=
  let c := s.ch[n]
  let f (s : State) : State := endingWith c.event (pulseEnd n s)
  if c.pulse then (if c.isLocal then atClk c.endClk f s else atTime c.endAt f s) else s

/-- What the routed source shows at `stamp` allows an edge of `n` to `level`: an input that CHIN gives no source is a
constant 0, a ball that the device drives carries what it drives, and a wheel input that is OFF is low (R143, R231). -/
def chinAllows (n : Fin 256) (level : Bool) (stamp : Stamp) (s : State) : Bool :=
  let code := s.pins.chin[n].toNat
  if code = 511 then !level
  else if h : code < 288 then (s.pin[code].ballAt stamp).getD level == level
  else !level || decide (s.win[(code - 288) % 8].mode ≠ 3)

/-- When the input of `n` qualifies with a raw transition at `stamp`, and the stamp of its edge (R52, R236). The constant 0
of an input without a source has no ball to be sampled: its run begins with the first sample after the change of the
source (R231). -/
def captureAt (n : Fin 256) (stamp : Stamp) (s : State) : Stamp × Stamp :=
  let c := s.ch[n]
  let fn := fld c.filt 31 24
  let fpsc := fld c.filt 15 13
  if s.pins.chin[n] = 511 then let f := c.filtFrom.getD stamp; (lastSample (coarse f + 64) fn fpsc, f)
  else (qualifies stamp fn fpsc c.filtFrom, stampOf stamp c.filtFrom)

/-- The wheel input that a capture channel selects has the transition too, whether or not its filter passes it on
(R144, R146). -/
def chinEdge (n : Fin 256) (level : Bool) (stamp : Stamp) (s : State) : State :=
  let code := s.pins.chin[n].toNat
  if 288 ≤ code ∧ code < 296 then winEdge ⟨code % 8, by omega⟩ level stamp s else s

/-- The filtered input of `n` takes a level, a raw transition at `stamp` (R52 to R55, R440). -/
def capture (n : Fin 256) (level : Bool) (stamp : Stamp) (s : State) : State :=
  if !live s || !chinAllows n level stamp s then s
  else
    let s := chinEdge n level stamp s
    let (at_, t) := captureAt n stamp s
    atTime at_ (fun s =>
      let (s, taken) := filteredEdge n level t s
      if taken then lineEdges n t s else s) s

/-- The target's low half is staged at its port; in ANGLE_EVENT nothing is (R51, R66). That each port has a staging
register in every channel is the model's choice (log 67). -/
def stageTarget (p : Port) (n : Fin 256) (v : Word) (s : State) : State :=
  modCh n (fun c => if c.mode = 7 then c else match p with
    | .pcie _ => { c with stagePcie := v }
    | .spi => { c with stageSpi := v }) s

/-- The write of the high half moves the pair into the target (R51). -/
def commitTarget (p : Port) (n : Fin 256) (v : Word) (s : State) : State :=
  writeTarget n (join v (match p with | .pcie _ => s.ch[n].stagePcie | .spi => s.ch[n].stageSpi)) s

/-- RELOAD: an immediate write of CH_PRE (R44). -/
def chReload (n : Fin 256) (s : State) : State := writeCmp n s.ch[n].pre s

def execCounterStep (n : Fin 256) (s : State) : Host.Outcome State Fault Refusal := done (stepCounter n s)
def execPlacementHorizon (n : Fin 256) (s : State) : Host.Outcome State Fault Refusal := done (reachHorizon n s)
def execTargetEdge (n : Fin 256) (s : State) : Host.Outcome State Fault Refusal := done (reachTarget n s)
def execPulseEnd (n : Fin 256) (s : State) : Host.Outcome State Fault Refusal := done (reachPulseEnd n s)
def execCapture (n : Fin 256) (level : Bool) (stamp : BitVec 64) (s : State) : Host.Outcome State Fault Refusal :=
  done (capture n level stamp s)

def execChCntWrite (p : Port) (n : Fin 256) (v : BitVec 32) (s : State) : Host.Outcome State Fault Refusal :=
  done (host p (writeCnt n v) s)
def execChTopWrite (p : Port) (n : Fin 256) (v : BitVec 32) (s : State) : Host.Outcome State Fault Refusal :=
  done (host p (writeTop n v) s)
def execChCmpWrite (p : Port) (n : Fin 256) (v : BitVec 32) (s : State) : Host.Outcome State Fault Refusal :=
  done (host p (writeCmp n v) s)
def execChTgtLoWrite (p : Port) (n : Fin 256) (v : BitVec 32) (s : State) : Host.Outcome State Fault Refusal :=
  done (host p (stageTarget p n v) s)
def execChTgtHiWrite (p : Port) (n : Fin 256) (v : BitVec 32) (s : State) : Host.Outcome State Fault Refusal :=
  done (host p (commitTarget p n v) s)
def execChFiltWrite (p : Port) (n : Fin 256) (v : BitVec 32) (s : State) : Host.Outcome State Fault Refusal :=
  done (host p (writeFilt n v) s)

def execChStart (p : Port) (n : Fin 256) (s : State) : Host.Outcome State Fault Refusal :=
  done (host p (fun s => chCommand n (chStartStatus n s.ch[n]) (chStart n) s) s)
def execChStop (p : Port) (n : Fin 256) (s : State) : Host.Outcome State Fault Refusal :=
  done (host p (fun s => chCommand n (chStopStatus n s.ch[n]) (stopChannel n) s) s)
def execChArm (p : Port) (n : Fin 256) (s : State) : Host.Outcome State Fault Refusal :=
  done (host p (fun s => chCommand n (chArmStatus s.ch[n]) (armCompare n) s) s)
def execChDisarm (p : Port) (n : Fin 256) (s : State) : Host.Outcome State Fault Refusal :=
  done (host p (fun s => chCommand n (chDisarmStatus s.ch[n]) (modCh n Chan.disarm) s) s)
def execChReload (p : Port) (n : Fin 256) (s : State) : Host.Outcome State Fault Refusal :=
  done (host p (fun s => chCommand n (chReloadStatus s.ch[n]) (chReload n) s) s)

end Sys2Proof.Machine
end

