-- ==== Sys2Proof/Machine/PinCmd.lean ====
section
/-! DEFINITION. PinCmd: edges at the ball, guards and their windows, the matrix's commands and
writes, the I/O supplies (R230 to R253). -/

namespace Sys2Proof.Machine

/-- SKEW of a pin, T64 units (R235). -/
def Pin.skew (x : Pin) : Stamp := ((x.io >>> 26).setWidth 6).signExtend 64

/-- The earliest of the edges that wait, and the others. -/
def firstEdge : List (Stamp × Bool) → Option ((Stamp × Bool) × List (Stamp × Bool))
  | [] => none
  | e :: r =>
    match firstEdge r with
    | none => some (e, [])
    | some (f, q) => if later e.1 f.1 then some (f, e :: q) else some (e, r)

/-- The next decided edge of the pin reaches its ball (R235, R237). -/
def edgeAtBall (p : Fin 288) (s : State) : State :=
  match firstEdge s.pin[p].edges with
  | none => s
  | some (e, rest) =>
    let t := e.1 + s.pin[p].skew
    atTime t (fun s => refreshPin p (modPin p (fun x =>
      { x.take t (shownDrive s p (x.drive p e.2)) with edges := rest }) s)) s

/-- The edge of a clip at `t` joins the edges that wait; a leading edge decided before it for a later time stays the last. -/
def clipEdge (p : Fin 288) (t : Stamp) (lv : Bool) (s : State) : State :=
  let x := s.pin[p]
  let s := queueEdge p t lv s
  if x.edges.any fun e => later e.1 t then modPin p (fun y => { y with lvl := x.lvl }) s else s

/-- The oldest pulse that a clip is to end (R245). -/
def Pin.clipNext (x : Pin) : Option Pulse := x.pulses.reverse.find? (·.cut)

/-- MAXW clips a pulse: one whose trailing edge it has forestalled, or the one in progress (R245, R247). -/
def clipPulse (p : Fin 288) (s : State) : State :=
  let x := s.pin[p]
  match x.clipNext, x.pulses with
  | some c, _ =>
    atTime (c.till.getD 0) (fun s =>
      let s := modPin p (fun x => { x with
        clip := inc8 x.clip, pulses := x.pulses.map fun q => if q = c then { q with cut := false } else q }) s
      clipEdge p (c.till.getD 0) (!c.act) (violate p 3 s)) s
  | none, { lead, width, clipAt := some t, act, till := none, .. } :: _ =>
    if (match width with | some w => decide (w ≤ t - lead) | none => false) then s
    else
      atTime t (fun s =>
        let s := modPin p (fun x => { x.endPulse t false with hold := x.during.isSome, clip := inc8 x.clip }) s
        queueEdge p t (!act) (violate p 3 s)) s
  | _, _ => s

/-- The frame with which the window of `x` that holds frame `f` begins (R246). -/
def Pin.windowOf (x : Pin) (f : BitVec 48) : BitVec 48 := f - f % BitVec.ofNat 48 (2 ^ x.bwexpNow)
def Pin.bwexp (x : Pin) : Nat := fld x.gcfg 20 16

/-- The window in force ends and the next begins (R246, R248). -/
def Pin.newWindow (f : BitVec 48) (x : Pin) : Pin :=
  let b : Stamp := f.setWidth 64 <<< 16
  let gone (q : Pulse) : Bool := x.over b q
  let x := { x with
    window := f, used := 0, forced := false
    pulses := x.pulses.filter fun q => !gone q, prevTrail := lastTrail x.prevTrail (x.pulses.filter gone) }
  if f % BitVec.ofNat 48 (2 ^ max x.bwexp x.bwexpNow) = 0 then
    { x with benNow := bit x.gcfg 26, bwexpNow := x.bwexp, budgetNow := fld x.budget 15 0 }
  else x

def budgetWindow (p : Fin 288) (s : State) : State :=
  let f := s.pin[p].windowOf (frame s)
  if f = s.pin[p].window then s else refreshPin p (modPin p (Pin.newWindow f) s)

/-- An open pulse brings GUARD_USED to the limit before its window ends: the pin is forced in that cycle, and pulses decided
for later times are not driven (R246, R247). -/
def budgetForce (p : Fin 288) (s : State) : State :=
  match s.pin[p].forceAt with
  | some t =>
    atTime t (fun s =>
      let s := modPin p (fun x => { x with used := x.usedAt t, pulses := [], prevTrail := some t, clip := inc8 x.clip }) s
      forcePin p (violate p 4 s)) s
  | none => s

/-- Matrix writes and commands act (R233, R234). -/
def matrixOpen (s : State) : Bool := decide (s.dom.state = .config) || s.dom.observe

def pinAnswer (st : CmdStatus) (s : State) : State :=
  refuse (bit s.pins.ie 8) st (modPins (fun b => { b with cmd := b.cmd.answer st }) s)

/-- A command is judged by what the ones accepted before it will make of the matrix (R234). -/
def pinEnableStatus (s : State) : CmdStatus := if !matrixOpen s || s.pins.cmdEn then .stateRefused else .ok
def pinDisableStatus (s : State) : CmdStatus := if !matrixOpen s || !s.pins.cmdEn then .stateRefused else .ok

/-- `ENABLE` or `DISABLE` is accepted; it takes effect in the next cycle (R234). -/
def matrixTo (on : Bool) (s : State) : State := defer .matrix (modPins (fun b => { b with cmdEn := on }) s)

def pinCommand (st : CmdStatus) (f : State → State) (s : State) : State := pinAnswer st (if st = .ok then f s else s)

/-- A source code as it is stored (R231). -/
def chinCode (v : Word) : BitVec 9 := let c := v.setWidth 9; if c < 296 then c else 511

/-- A write of the matrix at `off` in the PIN block; `none` where no matrix register lies (R230 to R232, R252). -/
def matrixStore (off : Nat) (v : Word) (s : State) : Option State :=
  if h : 0x1000 ≤ off ∧ off < 0x1000 + 4 * 288 then
    let p : Fin 288 := ⟨(off - 0x1000) / 4, by omega⟩
    some (refreshPin p (modPin p (fun x => { x with osel := v &&& 0xF0FF_0307 }) s))
  else if h : 0x2000 ≤ off ∧ off < 0x2000 + 4 * 288 then
    let p : Fin 288 := ⟨(off - 0x2000) / 4, by omega⟩
    let v := v &&& 0xFC00_0FF8
    let v := if fld v 11 10 = 3 then putFld v 11 10 0 else v
    some (holdSafe p (modPin p (fun x => { x with io := v }) s))
  else if h : 0x3000 ≤ off ∧ off < 0x3000 + 4 * 256 then
    let n : Fin 256 := ⟨(off - 0x3000) / 4, by omega⟩
    let c := chinCode v
    let changed := decide (s.pins.chin[n] ≠ c)
    let s := modPins (fun b => { b with chin := b.chin.set n c }) s
    some (if changed then modCh n (fun c => { c with filtFrom := some s.tb.now }) s else s)
  else if h : 0x4000 ≤ off ∧ off < 0x4000 + 0x40 * 32 ∧ off % 0x40 < 48 then
    let e : Fin 32 := ⟨(off - 0x4000) / 0x40, by omega⟩
    let k : Fin 12 := ⟨off % 0x40 / 4, by omega⟩
    some (refreshPins (modPins (fun b => { b with sein := b.sein.set e (b.sein[e].set k (chinCode v)) }) s))
  else none

/-- A write to a matrix register (R233). -/
def writeMatrix (off : Nat) (v : Word) (s : State) : State :=
  match matrixStore off v s with
  | none => s
  | some s' => if matrixOpen s || !s.pins.en then s' else pinAnswer .stateRefused s

/-- A bank's supply becomes valid in a band, or invalid (R249, R450, R451). -/
def setVio (b : Fin 8) (band : Option VioBand) (s : State) : State :=
  if bit s.pins.vioOk b = band.isSome then s
  else refreshPins (modPins (fun x => { x with
    vioOk := setBit x.vioOk b band.isSome, band := x.band.set b band
    evt := if band.isSome then x.evt else setBit x.evt b true }) s)
def setVlv (ok : Bool) (s : State) : State :=
  if s.pins.vlvOk = ok then s
  else refreshPins (modPins (fun x => { x with vlvOk := ok, evt := if ok then x.evt else setBit x.evt 8 true }) s)

def execOutputEdgeAtBall (pin : Fin 288) (s : State) : Host.Outcome State Fault Refusal := done (edgeAtBall pin s)
def execGuardClip (pin : Fin 288) (s : State) : Host.Outcome State Fault Refusal := done (refreshPin pin (clipPulse pin s))
def execBudgetWindow (pin : Fin 288) (s : State) : Host.Outcome State Fault Refusal := done (budgetWindow pin s)
def execBudgetForce (pin : Fin 288) (s : State) : Host.Outcome State Fault Refusal := done (budgetForce pin s)
def execPinEnable (p : Port) (s : State) : Host.Outcome State Fault Refusal :=
  done (host p (fun s => pinCommand (pinEnableStatus s) (matrixTo true) s) s)
def execPinDisable (p : Port) (s : State) : Host.Outcome State Fault Refusal :=
  done (host p (fun s => pinCommand (pinDisableStatus s) (matrixTo false) s) s)
def execPinMatrixWrite (p : Port) (addr : Nat) (v : BitVec 32) (s : State) : Host.Outcome State Fault Refusal :=
  done (host p (writeMatrix (addr - 0x2C_0000) v) s)
def execVioLoss (b : Fin 8) (s : State) : Host.Outcome State Fault Refusal := done (setVio b none s)
def execVioReturn (b : BankSupply) (s : State) : Host.Outcome State Fault Refusal := done (setVio b.bank (some b.band) s)
def execVlvLoss (s : State) : Host.Outcome State Fault Refusal := done (setVlv false s)
def execVlvReturn (s : State) : Host.Outcome State Fault Refusal := done (setVlv true s)

end Sys2Proof.Machine
end

