-- ==== Sys2Proof/Machine/IcCmd.lean ====
section
/-! DEFINITION. IcCmd: claims, completions, configuration, coalescing and messages (R322 to R337). -/

namespace Sys2Proof.Machine

def Target.cls (t : Target) (fast : Bool) : IcClass := if fast then t.fast else t.normal
def Target.modCls (fast : Bool) (f : IcClass → IcClass) (t : Target) : Target :=
  if fast then { t with fast := f t.fast } else { t with normal := f t.normal }

/-- Source number `n`, 0 to 511, as target `h` sees it. -/
def icSrc (s : State) (h : Fin 32) (n : Nat) : Src :=
  if hn : n < 496 then s.ic.src[n] else s.ic.tgt[h].priv[Fin.ofNat 16 (n - 496)]
def modSrc (h : Fin 32) (n : Nat) (f : Src → Src) (s : State) : State :=
  if hn : n < 496 then { s with ic := { s.ic with src := s.ic.src.set n (f s.ic.src[n]) } }
  else modTgt h (fun t => { t with priv := t.priv.set (Fin.ofNat 16 (n - 496)) (f t.priv[Fin.ofNat 16 (n - 496)]) }) s

/-- Source `n` is routed to target `h`, class `fast` (R325). -/
def icRouted (s : State) (h : Fin 32) (fast : Bool) (n : Nat) : Bool :=
  let x := icSrc s h n
  (decide (496 ≤ n) || decide (x.target = h)) && (x.isFast == fast)

/-- Active sources of a target and class, in ascending number. -/
def activeOn (s : State) (h : Fin 32) (fast : Bool) : List Nat :=
  (List.range 512).filter fun n => icRouted s h fast n && (icSrc s h n).active

/-- Any source is active (R326). -/
def anyActive (s : State) : Bool :=
  s.ic.src.toList.any (·.active) || s.ic.tgt.toList.any fun t => t.priv.toList.any (·.active)

/-- The bar a claim must clear: the threshold, in STACKED no lower than the top source (R328). -/
def claimBar (s : State) (h : Fin 32) (fast : Bool) : Nat :=
  let c := s.ic.tgt[h].cls fast
  match s.ic.flat, c.stack with
  | false, top :: _ => max c.thr.toNat (fld (icSrc s h top).cfg 3 0)
  | _, _ => c.thr.toNat

/-- The winning source of a claim (R328): the highest priority, the lowest number among equals. -/
def claimWinner (s : State) (h : Fin 32) (fast : Bool) : Option Nat :=
  let bar := claimBar s h fast
  (List.range 512).foldl (fun best n =>
    let x := icSrc s h n
    let p := fld x.cfg 3 0
    if icRouted s h fast n && bit x.cfg 31 && decide (p ≠ 0) && !x.active && x.pending && decide (bar < p) then
      match best with
      | none => some n
      | some b => if fld (icSrc s h b).cfg 3 0 < p then some n else some b
    else best) none

/-- A read of IC_CLAIM: the winner becomes active (R328). -/
def claim (h : Fin 32) (fast : Bool) (s : State) : State × Option Nat :=
  if !s.ic.flat ∧ 8 ≤ (s.ic.tgt[h].cls fast).stack.length then (modTgt h (fun t => { t with deep := true }) s, none)
  else match claimWinner s h fast with
  | none => (s, none)
  | some n =>
    let s' := modSrc h n (fun x => { x with active := true, pend := false }) s
    (if s.ic.flat then s' else modTgt h (Target.modCls fast fun c => { c with stack := n :: c.stack }) s', some n)

/-- What the claim read returns (Table 11.8). -/
def claimData : Option Nat → Word
  | none => 0
  | some n => pack [(1, 31), (n, 0)]

/-- Source `n` becomes inactive; still pending, it counts one coalescing event (R330, R332). -/
def retire (h : Fin 32) (n : Nat) (s : State) : State :=
  let s := modSrc h n (fun x => { x with active := false }) s
  let x := icSrc s h n
  if x.pending && x.counts && decide (n ≠ 498) then modTgt h (fun t => t.countOne x.isFast) s else s

/-- A write of IC_COMPLETE (R329). -/
def complete (h : Fin 32) (fast : Bool) (n : Nat) (s : State) : State :=
  let ok := icRouted s h fast n && (icSrc s h n).active
  if s.ic.flat then
    if ok then retire h n s else modTgt h (fun t => { t with stray := inc8 t.stray }) s
  else
    match (s.ic.tgt[h].cls fast).stack with
    | top :: rest =>
      if top = n && ok then retire h n (modTgt h (Target.modCls fast fun c => { c with stack := rest }) s)
      else modTgt h (fun t => { t with order := true, orderN := inc8 t.orderN }) s
    | [] => modTgt h (fun t => { t with order := true, orderN := inc8 t.orderN }) s

/-- The outcome of an IC command or of a write that is judged like one (R326, R327, R336). -/
def icAnswer (st : CmdStatus) (s : State) : State :=
  refuse s.ic.refie st { s with ic := { s.ic with cmd := s.ic.cmd.answer st } }

/-- UNWIND (R336). -/
def unwindStatus (h : Fin 32) (fast : Bool) (s : State) : CmdStatus :=
  if !s.ic.flat ∧ 3 < h.val then .argInvalid
  else if (activeOn s h fast).isEmpty then .stateRefused else .ok
def unwind (h : Fin 32) (fast : Bool) (s : State) : State :=
  let l := if s.ic.flat then activeOn s h fast else (s.ic.tgt[h].cls fast).stack
  let s := l.foldl (fun s n => retire h n s) s
  modTgt h (Target.modCls fast fun c => { c with stack := [] }) s

/-- A write of IC_CFG (R326). -/
def icModeStatus (flat : Bool) (s : State) : CmdStatus :=
  if !flat ∧ s.ic.src.toList.any (fun x => bit x.cfg 31 && decide (3 < x.target.val)) then .argInvalid
  else if anyActive s then .stateRefused else .ok
def icModeWrite (v : Word) (s : State) : State :=
  let st := icModeStatus (bit v 31) s
  icAnswer st (if st = .ok then { s with ic := { s.ic with flat := bit v 31, refie := bit v 0 } } else s)

/-- The target whose claims see a source. -/
def srcHome (k : SrcId) (s : State) : Fin 32 :=
  match k with | .shared n => s.ic.src[n].target | .priv h _ => h
def srcNum : SrcId → Nat
  | .shared n => n.val
  | .priv _ j => 496 + j.val
def srcShared : SrcId → Bool
  | .shared _ => true
  | .priv _ _ => false

/-- The stored form of a source's configuration; TARGET of a private source is its own (Table 11.6). -/
def srcCfgStored (k : SrcId) (v : Word) : Word :=
  match k with
  | .shared _ => v &&& 0xF01F_000F
  | .priv h _ => putFld (v &&& 0xF000_000F) 20 16 h.val

def srcCfgStatus (k : SrcId) (v : Word) (s : State) : CmdStatus :=
  let x := icSrc s (srcHome k s) (srcNum k)
  let c := srcCfgStored k v
  if srcShared k ∧ !s.ic.flat ∧ 3 < fld c 20 16 then .argInvalid
  else if x.active ∧ (bit x.cfg 30 ≠ bit c 30 ∨ (srcShared k ∧ fld x.cfg 20 16 ≠ fld c 20 16)) then .stateRefused
  else .ok

/-- A write of a source's configuration (R326, R327, R332). -/
def srcCfgWrite (k : SrcId) (v : Word) (s : State) : State :=
  let st := srcCfgStatus k v s
  let s' :=
    if st = .ok then
      let c := srcCfgStored k v
      let h := srcHome k s
      let old := icSrc s h (srcNum k)
      let s := modSrc h (srcNum k) (fun x => { x with cfg := c, pend := x.pend && !(bit x.cfg 31 && !bit c 31) && decide (fld c 29 28 ≠ 0) }) s
      let x := icSrc s (srcHome k s) (srcNum k)
      if !bit old.cfg 31 ∧ x.counts ∧ x.pending ∧ srcNum k ≠ 498 then modTgt (srcHome k s) (fun t => t.countOne x.isFast) s else s
    else s
  icAnswer st s'

/-! Coalescing and messages. -/

def vectorOf (h : Fin 32) (fast : Bool) : Fin 64 := ⟨2 * h.val + (if fast then 1 else 0), by have := h.isLt; split <;> omega⟩
def vectorMasked (s : State) (k : Fin 64) : Bool := !s.ic.msixEn || s.ic.funcMask || s.ic.msix[k].mask

/-- A hold of Table 11.2 applies, where the target sleeps or not. -/
def messageHeld (s : State) (h : Fin 32) (fast asleep : Bool) : Bool :=
  (!fast && !(activeOn s h true).isEmpty) || vectorMasked s (vectorOf h fast) || asleep || !busMaster s

/-- SLEEP as a threshold of this cycle is judged against: the value before a write of this cycle (R335). -/
def Target.asleep (clk : Nat) (t : Target) : Bool := if t.sleptAt = some clk then t.slept else t.sleep

/-- A PM_PME message leaves, and its repeat is due 100 ms later; none leaves in L2/L3 Ready or while the link is down (R402). -/
def sendPme (s : State) : State :=
  let s := modSys (fun x => { x with pmeAt := some (s.tb.clk + 40000000) }) s
  if s.sys.l23 ∨ ¬ s.sys.dlact then s else emit .pme s
/-- PME is signalled (R402). -/
def signalPme (s : State) : State := sendPme (modSys (fun x => { x with pmeStat := true }) s)

/-- A class reaches its threshold: count and timer restart, its message is due or held, and a sleeping target signals PME
once a sleep (R332, R333, R335). -/
def threshold (h : Fin 32) (fast byTime asleep : Bool) (s : State) : State :=
  let s := modTgt h (Target.modCls fast fun c => { c with cur := 0, timer := none }) s
  let s := if byTime then pulsePriv h 2 s else s
  let s := if asleep ∧ s.ic.tgt[h].pmen ∧ s.sys.pmeEn ∧ ¬ s.ic.tgt[h].pmesent then
      signalPme (modTgt h (fun t => { t with pmesent := true }) s) else s
  let c := s.ic.tgt[h].cls fast
  if c.held ∨ c.due then s
  else
    let held := messageHeld s h fast asleep
    modTgt h (Target.modCls fast fun c => { c with held := held, due := !held, ready := s.tb.clk + 1 }) s

/-- The class is at its threshold, by count or by time. -/
def IcClass.full (c : IcClass) : Bool := decide (c.limit ≤ c.cur)
def IcClass.timedOut (c : IcClass) : Bool := match c.timer with | some k => decide (c.timeF.toNat ≤ k) | none => false

def coalesce (h : Fin 32) (fast : Bool) (s : State) : State :=
  let c := s.ic.tgt[h].cls fast
  if c.full ∨ c.timedOut then threshold h fast (c.timedOut) (s.ic.tgt[h].asleep s.tb.clk) s else s

/-- The message of a class goes out, when it is due or held and no hold applies (R333, R334). SLEEP holds a due message
at its threshold, not here (R335). -/
def sendMessage (h : Fin 32) (fast : Bool) (s : State) : State :=
  let c := s.ic.tgt[h].cls fast
  if !c.due && !c.held then s
  else atClk c.ready (fun s =>
    if messageHeld s h fast (!c.due && s.ic.tgt[h].sleep) then modTgt h (Target.modCls fast fun c => { c with held := true, due := false }) s
    else
      let k := vectorOf h fast
      let s := emit (.msix k s.ic.msix[k].addr s.ic.msix[k].data) s
      modTgt h (fun t =>
        let t := t.modCls fast fun c => { c with held := false, due := false }
        if fast then { t with msgf := inc8 t.msgf } else { t with msgn := inc8 t.msgn }) s) s

/-- A write of IC_TCFG; a target that wakes sends what it holds in the next cycle, and comes to the threshold of each class
that has counted (R335). -/
def targetSleep (h : Fin 32) (v : Word) (s : State) : State :=
  let old := s.ic.tgt[h].sleep
  let s := modTgt h (fun t => { t with
    sleep := bit v 31, pmen := bit v 30, pmesent := t.pmesent && !(t.sleep && !bit v 31)
    sleptAt := some s.tb.clk, slept := t.asleep s.tb.clk }) s
  if old ∧ ¬ bit v 31 then
    let next (c : IcClass) : IcClass := if c.held then { c with ready := s.tb.clk + 1 } else c
    let s := modTgt h (fun t => { t with normal := next t.normal, fast := next t.fast }) s
    let s := if s.ic.tgt[h].normal.cur = 0 then s else threshold h false false false s
    if s.ic.tgt[h].fast.cur = 0 then s else threshold h true false false s
  else s

/-- The PM_PME message is repeated every 100 ms while PME_Status and PME_En stand (R402). -/
def pmeRepeat (s : State) : State :=
  match s.sys.pmeAt with
  | some c => if s.sys.pmeStat ∧ s.sys.pmeEn then atClk c sendPme s else s
  | none => s

def execIcClaimRead (p : Port) (h : Fin 32) (fast : Bool) (s : State) : Host.Outcome State Fault Refusal :=
  done (hostRead p (fun s => let (s, w) := claim h fast s; (s, claimData w)) s)
def execIcCompleteWrite (p : Port) (h : Fin 32) (fast : Bool) (v : BitVec 32) (s : State) : Host.Outcome State Fault Refusal :=
  done (host p (complete h fast (fld v 8 0)) s)
def execUnwind (p : Port) (h : Fin 32) (fast : Bool) (s : State) : Host.Outcome State Fault Refusal :=
  done (host p (fun s => let st := unwindStatus h fast s; icAnswer st (if st = .ok then unwind h fast s else s)) s)
def execIcModeWrite (p : Port) (v : BitVec 32) (s : State) : Host.Outcome State Fault Refusal := done (host p (icModeWrite v) s)
def execSourceConfigWrite (p : Port) (src : SrcId) (v : BitVec 32) (s : State) : Host.Outcome State Fault Refusal :=
  done (host p (srcCfgWrite src v) s)
def execCoalescingThreshold (h : Fin 32) (fast : Bool) (s : State) : Host.Outcome State Fault Refusal := done (coalesce h fast s)
def execMsixMessage (h : Fin 32) (fast : Bool) (s : State) : Host.Outcome State Fault Refusal := done (sendMessage h fast s)
def execTargetSleepWrite (p : Port) (h : Fin 32) (v : BitVec 32) (s : State) : Host.Outcome State Fault Refusal :=
  done (host p (targetSleep h v) s)
def execPmeRepeat (s : State) : Host.Outcome State Fault Refusal := done (pmeRepeat s)

end Sys2Proof.Machine
end

