-- ==== Sys2Proof/Machine/WtCmd.lean ====
section
/-! DEFINITION. WtCmd: the commands of wheel inputs, trackers and event tables (R143 to R195). -/

namespace Sys2Proof.Machine

/-- The record of a filtered wheel edge (Table 15.1). An edge that several trackers filter is one record: the model's choice
where their filters differ (log 88). -/
def recordWheel (t : Fin 4) (level : Bool) (stamp : Stamp) (s : State) : State :=
  let i := s.wt[t].wsel
  if s.win[i].noted = some (level, stamp) then s
  else
    recordIn 3 i stamp (join (BitVec.ofNat 32 (b2n level)) (BitVec.ofNat 32 ((s.tb.now - coarse stamp).toNat / 64))) []
      (modWin i (fun w => { w with noted := some (level, stamp) }) s)

/-- The filter output of tracker `t` takes a level in its qualification cycle (R146). -/
def filteredLevel (t : Fin 4) (level : Bool) (stamp : Stamp) (s : State) : State :=
  modWt t (fun x => { x with level := level, filtFrom := none }) (recordWheel t level stamp s)

/-- Filtered leading edges of one input in their qualification cycle; they are judged in the next one (R146, R164). -/
def filteredLead (l : List (Fin 4)) (stamp : Stamp) (s : State) : State :=
  let s := l.foldl (fun s t => filteredLevel t true stamp s) s
  let l := l.filter fun t => decide (s.wt[t].st ≠ .stopped)
  if l.isEmpty then s else inNext (judgeAll l stamp) s

/-- A filtered trailing edge in its qualification cycle (R150). -/
def filteredTrail (t : Fin 4) (stamp : Stamp) (s : State) : State :=
  let s := filteredLevel t false stamp s
  if s.wt[t].pattern = 2 then modWt t (Trk.classify stamp) s else s

/-- The tracker reads a wheel input that is on, and real inputs reach the device (R143, R168, R440). -/
def hearsWheel (t : Fin 4) (s : State) : Bool :=
  live s && !s.wt[t].follows && decide (s.win[s.wt[t].wsel].mode ≠ 3)

/-- `f` follows with the qualification of an edge of tracker `t` whose raw transition is at `stamp`. -/
def qualifyWheel (t : Fin 4) (stamp : Stamp) (f : State → State) (s : State) : State :=
  let x := s.wt[t]
  atTime (qualifies stamp x.fn x.fpsc x.filtFrom) f s

/-- The tooth signal of the tracker's input rises at `stamp`; an ADAPTIVE input has measured `peak`. The input takes its new
threshold, whether or not the tracker's filter passes the edge on (R144, R146). -/
def leadingEdge (t : Fin 4) (stamp : Stamp) (peak : BitVec 10) (s : State) : State :=
  if hearsWheel t s then
    let at_ := stampOf stamp s.wt[t].filtFrom
    let passes := !s.wt[t].level
    let s := modWin s.wt[t].wsel (WheelIn.lead stamp peak) s
    if passes then qualifyWheel t stamp (filteredLead [t] at_) s else s
  else s

/-- The tooth signal falls at `stamp`. -/
def trailingEdge (t : Fin 4) (stamp : Stamp) (s : State) : State :=
  if hearsWheel t s then
    let at_ := stampOf stamp s.wt[t].filtFrom
    let passes := s.wt[t].level
    let s := modWin s.wt[t].wsel WheelIn.trail s
    if passes then qualifyWheel t stamp (filteredTrail t at_) s else s
  else s

/-- The frames without a zero crossing have passed (R145). -/
def peakDecay (i : Fin 8) (s : State) : State :=
  let w := s.win[i]
  if w.mode = 1 then
    atTime (((w.since + BitVec.ofNat 48 (fld w.cfg 7 0)).setWidth 64 : Stamp) <<< 16) (modWin i WheelIn.decay) s
  else s

/-- A window is open: the tracker expects an edge (R151 to R153). -/
def Trk.expects (x : Trk) : Bool :=
  !x.follows && (decide (x.st = .synced ∨ x.st = .holdover) || (decide (x.st = .seeking) && decide (0 < x.good)))

/-- The present window closes (R153, R154). -/
def windowClose (t : Fin 4) (s : State) : State :=
  let x := s.wt[t]
  match x.prev with
  | some prev => if x.expects then atTime (x.closeAt prev) (fun s => decided t (closeWindow t (commitDue t s))) s else s
  | none => s

/-- `f` follows at the first frame boundary after cycle `c`: the one at hand, or the next. -/
def boundaryAfter (c : Nat) (f : State → State) (s : State) : State :=
  if (s.tb.frameDue ∨ frameCycle s = 0) ∧ c < s.tb.clk - frameCycle s then f s
  else atClk (s.tb.clk + (1024 - frameCycle s)) f s

/-- The first frame boundary after the entry into LOST, under AUTOSEEK (R160, R161). -/
def autoseek (t : Fin 4) (s : State) : State :=
  if s.wt[t].st = .lost ∧ bit s.wt[t].cfg 29 then
    boundaryAfter s.wt[t].lostAt (enterSeeking t s.wt[t].cause.toNat) s else s

/-- The event at entry `i` is ISSUED and its commit comes (R183). A write of EV_CFG that waits is in force from the next cycle,
and its LEAD decides (R194). -/
def eventCommit (t : Fin 4) (i : Nat) (s : State) : State :=
  let v := s.wt[t].entry i
  if v.st = .issued then
    let s := if s.wt[t].commits s.tb.now v ∨ s.wt[t].evNow = s.wt[t].evcfg then s else runClk (s.tb.clk + 1) s
    atTime (coarse v.target - BitVec.ofNat 64 (s.wt[t].lead * 64)) (commitEvent t i) s
  else s

/-- A COMMITTED event without a channel reaches its target; the entry is FREE in the cycle after (R184). -/
def eventAction (t : Fin 4) (i : Nat) (action : Nat) (f : EvEntry → State → State) (s : State) : State :=
  let v := s.wt[t].entry i
  if v.st = .committed ∧ v.action.toNat = action then
    atTime v.target (fun s => defer (.evFree t i) (f v s)) s
  else s

/-- `CONVERT` (R170, R350): the converter that AUX[20] names takes the request. -/
def convertAction (t : Fin 4) (i : Nat) (s : State) : State :=
  eventAction t i 4 (fun v s =>
    let c : Fin 2 := if bit v.chan 0 then 1 else 0
    injectRequest c { kind := 3, input := BitVec.ofNat 4 (fld s.sc[c].trig 3 0), trk := BitVec.ofNat 2 t,
                      tag := v.tag, ang := v.angle } s) s

/-- `NOTICE` (R184). -/
def noticeAction (t : Fin 4) (i : Nat) (s : State) : State :=
  eventAction t i 5 (fun _ s => eventNotice t i 0x10 s) s

/-- The outcome of a host command of the event table (Table 6.11). -/
def evAnswer (t : Fin 4) (st : CmdStatus) (s : State) : State :=
  modWt t (fun x => { x with evcmd := x.evcmd.answer st }) s

def evFlush (t : Fin 4) (s : State) : State := evAnswer t .ok (discard t (fun _ => true) (commitDue t s))
def evCancel (t : Fin 4) (s : State) : State := evAnswer t .ok (cancelTag t s.wt[t].evarg.toNat s)

def wtStop (t : Fin 4) (s : State) : State := wtCommand t none (wtRunStatus t s) (enterStopped t) s
def wtStart (t : Fin 4) (s : State) : State := wtCommand t none (wtStartStatus t s) (enterSeeking t 1) s
def wtSetrev (t : Fin 4) (s : State) : State :=
  wtCommand t none (wtSetrevStatus t s) (modWt t fun x => { x with setrev := some x.rev }) s

def execWinCfgWrite (p : Port) (i : Fin 8) (v : BitVec 32) (s : State) : Host.Outcome State Fault Refusal :=
  done (host p (writeWin i v) s)
def execPeakDecay (i : Fin 8) (s : State) : Host.Outcome State Fault Refusal := done (peakDecay i s)
def execLeadingEdgeJudge (t : Fin 4) (stamp : BitVec 64) (peak : BitVec 10) (s : State) : Host.Outcome State Fault Refusal :=
  done (leadingEdge t stamp peak s)
def execTrailingEdgeClassify (t : Fin 4) (stamp : BitVec 64) (s : State) : Host.Outcome State Fault Refusal :=
  done (trailingEdge t stamp s)
def execWindowClose (t : Fin 4) (s : State) : Host.Outcome State Fault Refusal := done (windowClose t s)
def execAutoseekReturn (t : Fin 4) (s : State) : Host.Outcome State Fault Refusal := done (autoseek t s)
def execWtStart (p : Port) (t : Fin 4) (s : State) : Host.Outcome State Fault Refusal := done (host p (wtStart t) s)
def execWtStop (p : Port) (t : Fin 4) (s : State) : Host.Outcome State Fault Refusal := done (host p (wtStop t) s)
def execWtReseek (p : Port) (t : Fin 4) (s : State) : Host.Outcome State Fault Refusal := done (host p (wtReseek t none) s)
def execWtSetrev (p : Port) (t : Fin 4) (s : State) : Host.Outcome State Fault Refusal := done (host p (wtSetrev t) s)
def execEventIssue (t : Fin 4) (s : State) : Host.Outcome State Fault Refusal := done (issueStep t s)
def execEventCommit (t : Fin 4) (i : Fin 1024) (s : State) : Host.Outcome State Fault Refusal := done (eventCommit t i s)
def execConvertAction (t : Fin 4) (i : Fin 1024) (s : State) : Host.Outcome State Fault Refusal := done (convertAction t i s)
def execNoticeAction (t : Fin 4) (i : Fin 1024) (s : State) : Host.Outcome State Fault Refusal := done (noticeAction t i s)
def execEvCmdFlush (p : Port) (t : Fin 4) (s : State) : Host.Outcome State Fault Refusal := done (host p (evFlush t) s)
def execEvCmdCancel (p : Port) (t : Fin 4) (s : State) : Host.Outcome State Fault Refusal := done (host p (evCancel t) s)

end Sys2Proof.Machine
end

