-- ==== Sys2Proof/Machine/Sc.lean ====
section
/-! DEFINITION. Sc: the slope converters: integration time, filter, calibration, scan list and
injections, records and their buffer, plausibility (R339 to R365). -/

namespace Sys2Proof.Machine

/-! Integration time and filter. -/

/-- The T_INT that TMODE selects, before LP lengthens it (Table 12.1, R342). -/
def baseTint (s : State) (x : Conv) : Nat :=
  match fld x.cfg 25 24 with
  | 0 => x.tint.toNat
  | 1 => 8000000
  | 2 => 6666667
  | _ => if s.scs.valid then s.scs.period.toNat else if bit x.cfg 23 then 6666667 else 8000000

/-- The mains fallback is in force (R342). -/
def fallback (s : State) (x : Conv) : Bool := decide (fld x.cfg 25 24 = 3) && !s.scs.valid
/-- LP lengthens what is below 400 us (R343). -/
def Conv.lengthen (x : Conv) (n : Nat) : Nat := if bit x.cfg 31 then max n 160000 else n
def tintOf (s : State) (x : Conv) : Nat := x.lengthen (baseTint s x)

/-- The lengths of the comb stages (R344). -/
def Conv.combs (x : Conv) : List Nat :=
  match fld x.filt 29 27 with
  | 1 => [8000000] | 2 => [6666667] | 3 => [8000000, 6666667] | 4 => [fld x.filt 26 0] | _ => []
/-- LPLIM (R343). -/
def lpLim (s : State) (x : Conv) : Bool :=
  bit x.cfg 31 && (decide (baseTint s x < 160000) || x.combs.any (· < 160000))
/-- The settling time (R344). -/
def settling (s : State) (x : Conv) : Nat :=
  (fld x.filt 31 30 + 1) * tintOf s x + ((x.combs.map x.lengthen).foldl (· + ·) 0)

/-- An integration begins in this cycle (R341). -/
def beginIntegration (c : Fin 2) (s : State) : State :=
  modSc c (fun x => { x with phase := .integrate (s.tb.clk + tintOf s x), len := tintOf s x, fb := fallback s x }) s

/-- The filter restarts empty in this cycle, and an integration begins (R344). -/
def restartFilter (c : Fin 2) (s : State) : State :=
  beginIntegration c (modSc c (fun x => { x with settleAt := s.tb.clk + settling s x, settled := false, hist := [] }) s)

/-! The filter (R344). The input is a list of runs: cycles and value, newest first. -/

/-- The input of an integration of `n` cycles, oldest first as it comes, its last value to the end. -/
def inputRuns : Nat → List (Nat × Int) → List (Nat × Int)
  | _, [] => []
  | n, [(_, v)] => [(n, v)]
  | n, (k, v) :: r => (min k n, v) :: inputRuns (n - k) r

def cyclesOf (l : List (Nat × Int)) : Nat := l.foldl (fun n r => n + r.1) 0
def sumOf (l : List (Nat × Int)) : Int := l.foldl (fun a r => a + r.1 * r.2) 0

/-- The newest `n` cycles of the runs. -/
def newest : Nat → List (Nat × Int) → List (Nat × Int)
  | _, [] => []
  | 0, _ => []
  | n + 1, (k, v) :: r => (min k (n + 1), v) :: newest (n + 1 - k) r

/-- The `m`-fold running sum of a unit step after `n` cycles: n (n + 1) … (n + m − 1) / m!. -/
def stepSum (m n : Nat) : Nat :=
  ((List.range m).foldl (fun a i => a * (n + i)) 1) / ((List.range m).foldl (fun a i => a * (i + 1)) 1)

/-- The `m`-fold running sum of the runs, `ago` cycles before their end. -/
def runningSum (m ago : Nat) (l : List (Nat × Int)) : Int :=
  (l.foldl (fun (a : Int × Nat) r =>
    let e := a.2 + r.1
    (a.1 + r.2 * ((stepSum m (e - ago) : Int) - stepSum m (a.2 - ago)), e)) (0, 0)).1

/-- A cascade of moving averages of the given lengths at the end of the runs, as a fraction. Each stage is a difference of
running sums, so that the cascade is the alternating sum over the sets of its stages. -/
def cascade (lens : List Nat) (l : List (Nat × Int)) : Int × Nat :=
  let terms := lens.foldl (fun (t : List (Int × Nat)) n => t ++ t.map fun x => (-x.1, x.2 + n)) [(1, 0)]
  (terms.foldl (fun a x => a + x.1 * runningSum lens.length x.2 l) 0, lens.foldl (· * ·) 1)

/-- The stages of the filter: ORDM1 + 1 averages of the integration's length, and the combs (R344). -/
def Conv.stages (x : Conv) : List Nat := List.replicate (fld x.filt 31 30 + 1) x.len ++ x.combs.map x.lengthen

/-- The converter goes to an input: a switch of 10 us, or the dump that replaces it (R339, R353). -/
def goTo (c : Fin 2) (input : BitVec 4) (dump : Bool) (s : State) : State :=
  modSc c (fun x => { x with
    input := input, settled := false
    phase := if dump then .dump (s.tb.clk + 16000) else .switch (s.tb.clk + 4000) }) s

/-! The result buffer (R356, R357). -/

def Conv.slots (x : Conv) : Nat := x.bufLen.toNat / 16
/-- L, in records. -/
def Conv.level (x : Conv) : Nat := ((((x.wr.toNat : Int) - x.rd.toNat) * 16) % (x.bufLen.toNat : Int)).toNat / 16

/-- A change of the buffer level from below WM to WM or above is a crossing (R357). -/
def scLevel (c : Fin 2) (f : Conv → Conv) (s : State) : State :=
  let x := s.sc[c]
  let y := f x
  if x.level < y.wm.toNat ∧ y.wm.toNat ≤ y.level ∧ y.wm ≠ 0 then
    pulse (Fin.ofNat 496 (412 + c.val)) (modSc c (fun _ => { y with stat := setBit y.stat 6 true, cross := inc8 y.cross }) s)
  else modSc c (fun _ => y) s

/-- `WR` or `RD` moves on by one record, modulo LEN. -/
def Conv.next (x : Conv) (v : BitVec 20) : BitVec 20 :=
  if x.bufLen = 0 then v else BitVec.ofNat 20 ((v.toNat + 1) % x.slots)

/-- The pump has issued the write of a record's fourth word (R356). -/
def bufferAdvance (c : Fin 2) (s : State) : State :=
  scLevel c (fun x =>
    let y := { x with wr := x.next x.wr }
    if x.level + 1 = x.slots then
      { y with rd := x.next x.rd, stat := setBit x.stat 7 true, cntBuf := inc8 x.cntBuf }
    else y) s

/-- A write of `SC_BUF_RD`. -/
def writeBufRd (c : Fin 2) (v : Word) (s : State) : State :=
  scLevel c (fun x => { x with rd := BitVec.ofNat 20 (fld v 23 4) }) s

/-! Plausibility (R358, R359). -/

/-- A plausibility record of converter `c`, of the round that began in cycle `b`, is delivered; the second one of the open
round ends it. -/
def plausRecord (c : Fin 2) (b : Option Nat) (r : Int) (ovr : Bool) (s : State) : State :=
  if b.isNone ∨ s.scs.round ≠ b then s
  else
    let s := modScs (fun x => if c.val = 0 then { x with r0 := some (r, ovr) } else { x with r1 := some (r, ovr) }) s
    match s.scs.r0, s.scs.r1 with
    | some (a, oa), some (b, ob) =>
      let d := (a - b).natAbs
      let s := modScs (fun x => { x with diff := BitVec.ofNat 24 (min 0xFF_FFFF d) }) s
      if oa ∨ ob then plausFail 2 s
      else if fld s.scs.plsLim 23 0 < d then plausFail 1 s
      else modScs (fun x => { x with round := none }) s
    | _, _ => s

/-- A round begins in this cycle (R358, R350). -/
def plausBegin (s : State) : State :=
  let s := if s.scs.round.isSome then plausFail 3 s else s
  let ok := s.sc[0].takes && s.sc[1].takes
  let s := modScs (fun x => { x with round := some s.tb.clk, began := some s.tb.clk, r0 := none, r1 := none }) s
  let s := forAll 2 (fun c s => injectRequest c { kind := 4, input := 15, round := s.tb.clk } s) s
  if ok then s else plausFail 3 s

/-! Records. -/

def ScWork.kind : ScWork → Nat
  | .inject r => r.kind.toNat
  | _ => 0

/-- The plausibility round that asked for this work. -/
def ScWork.round : ScWork → Option Nat
  | .inject r => some r.round
  | _ => none

/-- A record has been formed: it counts, it is kept, it enters the result queue (R354, R355). One of kind 4 is of the round
that began in cycle `b`. -/
def deliver (c : Fin 2) (b : Option Nat) (w : ScRecord) (s : State) : State :=
  let s := recordIn 10 c s.tb.now (join w.w1 w.w0) [] s
  let s := modSc c (fun x =>
    let x := { x with last := x.last.set (Fin.ofNat 16 (fld w.w0 7 4)) w.w0 }
    if !bit x.bufCfg 31 then x
    else if 16 ≤ x.results.length then { x with stat := setBit x.stat 5 true, cntRdrop := inc8 x.cntRdrop }
    else { x with results := x.results ++ [w] }) s
  if fld w.w1 31 29 = 4 then plausRecord c b ((w.w0.sshiftRight 8).toInt) (bit w.w0 3) s else s

/-- The record of the integration that has just ended (Table 12.4). -/
def Conv.record (x : Conv) (c : Fin 2) (now : Stamp) (r : Int) (ovr : Bool) : ScRecord :=
  let ev (n : Nat) : Nat := if x.work.kind = 3 then n else 0
  let (trk, tag, ang) := match x.work with | .inject q => (q.trk.toNat, q.tag.toNat, q.ang) | _ => (0, 0, 0)
  { w0 := ((BitVec.ofInt 24 r).setWidth 32 <<< 8) |||
      pack [(x.input.toNat, 4), (b2n ovr, 3), (b2n x.marked, 2), (b2n x.fb, 1)]
    w1 := pack [(x.work.kind, 29), (c.val, 28), (ev trk, 26), (ev tag, 15),
                (if x.work.kind = 0 then x.entry.toNat else 0, 11), (x.seq.toNat, 0)]
    w2 := lo32 now
    w3 := if x.work.kind = 3 then ang else hi32 now }

/-- The corrected result of a raw filter output, a fraction, clamped (R340, R345). -/
def Conv.correct (x : Conv) (raw : Int × Nat) : Int × Bool :=
  let r := Int.tdiv ((raw.1 - x.ofs.toInt * raw.2) * (x.gain.toNat : Int)) (raw.2 * 2 ^ 22)
  if r < -(2 ^ 23) then (-(2 ^ 23), true) else if 2 ^ 23 - 1 < r then (2 ^ 23 - 1, true) else (r, false)

/-- A record is formed, but for the converter's own ones in REPLAY (R353, R354, R440); `overload`
gives the sign of an overload, true for a positive one. -/
def formRecord (c : Fin 2) (raw : Int × Nat) (overload : Option Bool) (s : State) : State :=
  let x := s.sc[c]
  let (r, ovr) : Int × Bool := match overload with
    | some true => (2 ^ 23 - 1, true) | some false => (-(2 ^ 23), true) | none => x.correct raw
  let s := if overload.isSome ∧ live s then modSc c (fun x => { x with stat := setBit x.stat 0 true, cntOvr := inc8 x.cntOvr }) s else s
  if live s then deliver c x.work.round (x.record c s.tb.now r ovr) (modSc c (fun x => { x with seq := x.seq + 1 }) s) else s

/-! What a converter does next (R346, R349, R351). -/

def Conv.entryInput (x : Conv) (e : BitVec 4) : BitVec 4 := BitVec.ofNat 4 (fld x.scan[Fin.ofNat 16 e.toNat] 3 0)
def Conv.nres (x : Conv) : Nat := fld x.scan[Fin.ofNat 16 x.entry.toNat] 31 24

/-- The oldest entry of the queue is taken, if there is one. -/
def takeQueue (c : Fin 2) (dump : Bool) (s : State) : Option State :=
  match s.sc[c].queue with
  | [] => none
  | .inject r :: q => some (goTo c r.input dump (modSc c (fun x => { x with queue := q, work := .inject r, done := 0 }) s))
  | .cal :: q => some (goTo c s.sc[c].input dump (modSc c (fun x => { x with queue := q, work := .cal, calRaw := [], done := 0 }) s))

/-- The converter takes the next request, or returns to the scan entry it left (R351). -/
def nextFromQueue (c : Fin 2) (dump : Bool) (s : State) : State :=
  match takeQueue c dump s with
  | some s' => s'
  | none => goTo c (s.sc[c].entryInput s.sc[c].entry) dump (modSc c (fun x => { x with work := .scan, done := 0 }) s)

/-- An integration of the scan list has ended; `rec` says that it delivered a record (R349, R351, R353). -/
def nextScan (c : Fin 2) (rec dump : Bool) (s : State) : State :=
  let x := s.sc[c]
  let n := if rec then x.done + 1 else x.done
  let visited := decide (x.nres ≤ n)
  let entry : BitVec 4 := if !visited then x.entry else if fld x.cfg 29 26 ≤ x.entry.toNat then 0 else x.entry + 1
  let s := modSc c (fun x => { x with entry := entry, done := if visited then 0 else n }) s
  match takeQueue c dump s with
  | some s' => s'
  | none =>
    if dump ∨ s.sc[c].entryInput entry ≠ x.input then goTo c (s.sc[c].entryInput entry) dump s
    else beginIntegration c s

/-- The sum of fractions. -/
def fractions (l : List (Int × Nat)) : Int × Nat := l.foldl (fun a x => (a.1 * x.2 + x.1 * a.2, a.2 * x.2)) (0, 1)

/-- The calibration ends with its six integrations, newest first (R346, R348). -/
def Conv.calEnd (x : Conv) : Conv :=
  let (zn, zd) := fractions (x.calRaw.drop 3)
  let (rn, rd) := fractions (x.calRaw.take 3)
  let ofs := Int.tdiv zn (3 * zd)
  let gain := Int.tdiv (3 * rd * (2 ^ 22 * (2 ^ 23 - 1))) (rn - 3 * rd * ofs)
  let x := { x with calRaw := [], work := .scan, cmd := if x.cmd.status = CmdStatus.queued then { x.cmd with status := .ok } else x.cmd }
  if gain < 0x20_0000 ∨ 0x7F_FFFF < gain then { x with stat := setBit x.stat 3 true }
  else { x with ofs := BitVec.ofInt 24 ofs, gain := BitVec.ofInt 24 gain, stat := setBit x.stat 2 true, calv := true }

/-- The converter stops: what it does is abandoned, its queue is emptied, each request counted (R361). -/
def Conv.halt (x : Conv) : Conv :=
  { x.dropInj x.injections with st := .stopped, phase := .rest, work := .scan, queue := [], calRaw := [], done := 0, settled := false }

/-- A converter stops; a request of the open plausibility round that it drops ends the round (R361, Table 12.5). -/
def haltConv (c : Fin 2) (s : State) : State :=
  let pls := s.sc[c].queue.any fun q => match q with | .inject r => decide (r.kind = 4 ∧ s.scs.round = some r.round) | .cal => false
  let s := modSc c Conv.halt s
  if pls then plausFail 3 s else s

/-- An integration of a calibration has ended, with the sum of its input (R346). -/
def calIntegration (c : Fin 2) (sum : Int) (s : State) : State :=
  let s := modSc c (fun x => { x with calRaw := (sum, x.len) :: x.calRaw }) s
  match s.sc[c].calRaw.length with
  | 3 => goTo c s.sc[c].input false s
  | 6 =>
    let s := modSc c Conv.calEnd s
    if s.sc[c].st = .cal then haltConv c s else nextFromQueue c false s
  | _ => beginIntegration c s

/-- The present integration, whose input was `l`, has ended (R344, R351, R353, R420). -/
def endIntegration (c : Fin 2) (l : List (Nat × Int)) (overload : Option Bool) (s : State) : State :=
  let l := (inputRuns s.sc[c].len l).reverse
  if !s.sys.vanaOk then restartFilter c s
  else
    let s := modSc c (fun x => { x with hist := newest (x.stages.foldl (· + ·) 0) (l ++ x.hist) }) s
    let x := s.sc[c]
    match x.work with
    | .cal => calIntegration c (sumOf l) s
    | w =>
      let due := overload.isSome || x.settled || decide (x.settleAt ≤ s.tb.clk)
      let s := if due then formRecord c (cascade x.stages x.hist) overload (modSc c (fun x => { x with settled := true }) s) else s
      match w with
      | .scan => nextScan c due overload.isSome s
      | _ => if due then nextFromQueue c overload.isSome s else beginIntegration c s

/-- The present integration ends; `l` is the modulator's output over it, cycles and value, scaled so that ±VREF is
nominally ±2^23 (R344, R345). -/
def integrationEnd (c : Fin 2) (l : List (Nat × Int)) (overload : Option Bool) (s : State) : State :=
  match s.sc[c].phase with
  | .integrate u => atClk u (endIntegration c l overload) s
  | _ => s

/-- The dump ends (R353). -/
def dumpEnd (c : Fin 2) (s : State) : State :=
  match s.sc[c].phase with
  | .dump u => atClk u (restartFilter c) s
  | _ => s
/-- The switch ends (R339). -/
def switchEnd (c : Fin 2) (s : State) : State :=
  match s.sc[c].phase with
  | .switch u => atClk u (restartFilter c) s
  | _ => s

/-! Commands (Table 12.7). -/

def scAnswer (c : Fin 2) (st : CmdStatus) (s : State) : State :=
  refuse (bit s.sc[c].ie 16) st (modSc c (fun x => { x with cmd := x.cmd.answer st }) s)

/-- The arguments of START (R361). -/
def Conv.startOk (x : Conv) : Bool :=
  !(decide (fld x.cfg 25 24 = 0) && decide (x.tint.toNat < 40000 ∨ 80000000 < x.tint.toNat)) &&
  !(decide (5 ≤ fld x.filt 29 27)) &&
  !(decide (fld x.filt 29 27 = 4) && decide (fld x.filt 26 0 < 40000 ∨ 80000000 < fld x.filt 26 0)) &&
  !(bit x.bufCfg 31 && decide (x.bufLen.toNat % 16 ≠ 0 ∨ x.bufLen.toNat < 32))

def scStartStatus (x : Conv) : CmdStatus :=
  if !x.startOk then .argInvalid else if x.st ≠ .stopped then .stateRefused else .ok
def scStart (c : Fin 2) (s : State) : State :=
  let s := endDoze s
  let st := scStartStatus s.sc[c]
  let s := if st = .ok then
      goTo c (s.sc[c].entryInput 0) false (modSc c (fun x => { x with st := .run, entry := 0, done := 0, work := .scan }) s)
    else s
  scAnswer c st s

/-- STOP: with a waiting marker a status of QUEUED becomes ABORTED, a running calibration fails (R348, R15). -/
def scStop (c : Fin 2) (s : State) : State :=
  let x := s.sc[c]
  if x.st = .stopped then scAnswer c .stateRefused s
  else
    let s := modSc c (fun x => if x.work = .cal then { x with stat := setBit x.stat 3 true } else x) s
    let s := haltConv c s
    scAnswer c (if x.marked && decide (x.cmd.status = .queued) then .aborted else .ok) s

/-- A calibration runs or waits (R348). -/
def Conv.calibrates (x : Conv) : Bool := x.marked || decide (x.work = .cal)
def selfCal (c : Fin 2) (s : State) : State :=
  let x := s.sc[c]
  if x.calibrates then scAnswer c .stateRefused s
  else if x.st = .stopped then
    scAnswer c .ok (stands (goTo c x.input false (modSc c (fun x => { x with st := .cal, work := .cal, calRaw := [] }) s)))
  else
    scAnswer c (if x.injections = 0 then .ok else .queued) (modSc c (fun x => { x with queue := x.queue ++ [.cal] }) s)

/-- SC_TRIM, the factory's word (R347). -/
def scTrim (c : Fin 2) : Word := Config.factoryTrim c
def trimCal (c : Fin 2) (s : State) : State :=
  if s.sc[c].calibrates then scAnswer c .stateRefused s
  else
    let w := scTrim c
    scAnswer c .ok (modSc c (fun x => { x with
      ofs := ((w >>> 16).setWidth 16).signExtend 24
      gain := 0x40_0000 + (w.setWidth 16).signExtend 24 * 4
      stat := setBit x.stat 2 true, calv := true }) s)

def scInject (c : Fin 2) (s : State) : State :=
  if s.sc[c].takes then scAnswer c .ok (injectRequest c { kind := 1, input := s.sc[c].arg } s)
  else scAnswer c .stateRefused s

/-- A write that a running converter refuses (R362). -/
def scGuarded (c : Fin 2) (f : Conv → Conv) (s : State) : State :=
  if s.sc[c].st = .stopped then modSc c f s else scAnswer c .stateRefused s
def writeBufLen (c : Fin 2) (v : Word) (s : State) : State :=
  scGuarded c (fun x => { x with bufLen := BitVec.ofNat 24 (fld v 23 0), wr := 0, rd := 0 }) s

/-! The mains measurement (R342). -/

/-- An interval of MAINS_SYNC ends in this cycle, `n` CCLK cycles long. An interval that is not valid
breaks the row that VALID waits for. -/
def mainsInterval (n : Nat) (x : ScShared) (clk : Nat) : ScShared :=
  if 5714286 ≤ n ∧ n ≤ 10000000 then
    let r := (n :: x.recent).take 8
    let full := decide (r.length = 8)
    { x with recent := r, since := clk, valid := x.valid || full,
             period := if full then BitVec.ofNat 27 (r.foldl (· + ·) 0 / 8) else x.period }
  else if x.valid then x else { x with recent := [] }

/-- A rising edge of MAINS_SYNC in this cycle. -/
def mainsRise (s : State) : State :=
  modScs (fun x =>
    let y := match x.edge with | some e => mainsInterval (s.tb.clk - e) x s.tb.clk | none => x
    { y with edge := some s.tb.clk }) s
def mainsEdge (stamp : Stamp) (s : State) : State := atTime stamp mainsRise s

/-- 50 ms pass without a valid interval. -/
def mainsLost (s : State) : State :=
  forAll 2 (fun c s => modSc c (fun x => { x with stat := setBit x.stat 1 true }) s)
    (modScs (fun x => { x with valid := false, recent := [] }) s)
def mainsLoss (s : State) : State := if s.scs.valid then atClk (s.scs.since + 20000000) mainsLost s else s

/-- PERIOD_F and TMO_F. -/
def plausPeriod (s : State) : Nat := fld s.scs.plsCfg 23 0
def plausTimeout (s : State) : Nat := fld s.scs.plsTmo 23 0

/-- The next frame boundary at which a round begins, this one included unless it began here (R358). -/
def plausRound (s : State) : State :=
  if bit s.scs.plsCfg 31 then
    let p := plausPeriod s
    let f := (frame s).toNat
    let here := decide (frameCycle s = 0 ∧ f % p = 0 ∧ s.scs.began ≠ some s.tb.clk)
    if here then plausBegin s else atTime (BitVec.ofNat 64 ((f / p + 1) * p * 65536)) plausBegin s
  else s

/-- TMO_F frame boundaries have passed (Table 12.5). -/
def plausTimedOut (s : State) : State :=
  match s.scs.round with
  | some b => atClk ((b / 1024 + plausTimeout s) * 1024) (plausFail 3) s
  | none => s

def execScStart (p : Port) (c : Fin 2) (s : State) : Host.Outcome State Fault Refusal := done (host p (scStart c) s)
def execScStop (p : Port) (c : Fin 2) (s : State) : Host.Outcome State Fault Refusal := done (host p (scStop c) s)
def execSelfCalibration (p : Port) (c : Fin 2) (s : State) : Host.Outcome State Fault Refusal := done (host p (selfCal c) s)
def execTrimCalibration (p : Port) (c : Fin 2) (s : State) : Host.Outcome State Fault Refusal := done (host p (trimCal c) s)
def execInject (p : Port) (c : Fin 2) (s : State) : Host.Outcome State Fault Refusal := done (host p (scInject c) s)
def execScBufLenWrite (p : Port) (c : Fin 2) (v : BitVec 32) (s : State) : Host.Outcome State Fault Refusal :=
  done (host p (writeBufLen c v) s)
def execIntegrationEnd (c : Fin 2) (input : List (Nat × Int)) (overload : Option Bool) (s : State) :
    Host.Outcome State Fault Refusal := done (clocked (integrationEnd c input overload) s)
def execDumpEnd (c : Fin 2) (s : State) : Host.Outcome State Fault Refusal := done (clocked (dumpEnd c) s)
def execSwitchEnd (c : Fin 2) (s : State) : Host.Outcome State Fault Refusal := done (clocked (switchEnd c) s)
def execMainsSyncEdge (stamp : BitVec 64) (s : State) : Host.Outcome State Fault Refusal := done (clocked (mainsEdge stamp) s)
def execMainsSyncLoss (s : State) : Host.Outcome State Fault Refusal := done (clocked mainsLoss s)
def execPlausibilityRound (s : State) : Host.Outcome State Fault Refusal := done (clocked plausRound s)
def execPlausibilityTimeout (s : State) : Host.Outcome State Fault Refusal := done (clocked plausTimedOut s)

end Sys2Proof.Machine
end

