-- ==== Sys2Proof/Machine/Views.lean ====
section
/-! DEFINITION. Views: registers whose value is put together from the state of a channel, a tracker or
an event, as the host and the timing engines read them (Tables 2.14, 2.18, 5.13, 6.14). -/

namespace Sys2Proof.Machine

/-- CH_STATUS (Table 2.18). -/
def Chan.statusWord (c : Chan) : Word :=
  pack [(b2n c.run, 15), (b2n c.armed, 14), (b2n c.horizon, 13), (b2n c.pulse, 12), (b2n c.pvalid, 11),
        (b2n c.level, 10), (b2n c.outLevel, 9), (c.flags.toNat, 0)]

/-- REFUSALS in [31:24] and STATUS in [10:8], the common part of the command registers. -/
def CmdReg.word (r : CmdReg) : Word := pack [(r.refusals.toNat, 24), (r.status.code, 8)]

/-- CH_CMD (Table 2.14), and the clear of its RC fields. -/
def Chan.cmdWord (c : Chan) : Word := c.cmd.word ||| pack [(c.supcnt.toNat, 16)]
def CmdReg.clear (r : CmdReg) : CmdReg := { r with refusals := 0 }
def Chan.cmdClear (c : Chan) : Chan := { c with cmd := c.cmd.clear, supcnt := 0 }

/-- WT_STATE (Table 5.13). -/
def Trk.stateWord (x : Trk) : Word :=
  pack [(x.st.code, 29), (x.cause.toNat, 26), (b2n x.valid, 25), (b2n x.follows, 24), (min 255 x.missrun, 16),
        (x.lvl, 12), (x.tooth.toNat, 0)]

/-- The words of an event entry (Table 6.14). -/
def EvEntry.descriptor (v : EvEntry) : Word :=
  pack [(v.st.code, 30), (b2n v.extrap, 29), (b2n v.late, 28), (b2n v.dropped, 27), (b2n v.deferred, 26),
        (b2n v.reissued, 25), (v.chan.toNat, 20), (v.action.toNat, 17), (v.policy.toNat, 15), (b2n v.unit, 14),
        (v.tag.toNat, 0)]
def EvEntry.widthWord (v : EvEntry) : Word := pack [(v.engine.val, 28), (v.wcode.toNat, 24), (v.width.toNat, 0)]
def EvEntry.word (v : EvEntry) (k : Nat) : Word :=
  match k with | 0 => v.angle | 1 => v.descriptor | 2 => v.widthWord | _ => lo32 v.target

/-- `e` and `a` as the host reads them (Table 5.20). -/
def Trk.periodWord (x : Trk) : Word := BitVec.ofNat 32 (x.e / 65536)
def Trk.accelWord (x : Trk) : Word := BitVec.ofInt 32 (max (-(2 ^ 31)) (min (2 ^ 31 - 1) (x.a >>> 8)))

/-- TE_MC (Table 3.17), TE_STATE (Table 3.12). -/
def Engine.mcWord (e : Engine) : Word :=
  pack [(b2n e.vgood, 31), (b2n e.vdone, 30), (b2n e.vstart.isSome, 29), (e.mcAddr.toNat, 16),
        (e.mcLanes.toNat, 8), (e.mccnt.toNat, 0)]
def EngState.code : EngState → Nat
  | .stopped => 0 | .run => 1 | .halted => 2 | .mchk => 3
def Engine.stateWord (e : Engine) : Word :=
  let r := e.runningEntry
  pack [(e.state.code, 30), (b2n e.hk, 29), (b2n r.isSome, 28), (e.slots, 24),
        ((r.map fun x => x.num.toNat).getD 0, 16), (e.pc.toNat, 0)]

/-- CH_STATUS is written: a 1 clears a flag (Table 2.18). -/
def clearStatus (n : Fin 256) (v : Word) (s : State) : State :=
  modCh n (fun c => { c with flags := c.flags &&& ~~~ v.setWidth 8 }) s

/-- CH_IE is written (Table 2.19). -/
def writeChIe (n : Fin 256) (v : Word) (s : State) : State := modCh n (fun c => { c with ie := v &&& 0x1_FFFF }) s

end Sys2Proof.Machine
end

