-- ==== Sys2Proof/Machine/Flags.lean ====
section
/-! DEFINITION. Flags: the ALU of a timing engine with its flag results, and the conditions
(Tables 3.2, 4.4, 4.5; R116 to R119). -/

namespace Sys2Proof.Machine

/-- What an ALU operation gives: Y; the new C and V where it sets them; whether it updates Z and N;
whether Y is written. -/
structure AluOut where
  y      : Word
  c      : Option Bool := none
  v      : Option Bool := none
  zn     : Bool := true
  writes : Bool := true
  deriving DecidableEq, Repr

/-- `x + z + cin`, with carry out and signed overflow. -/
def aluSum (x z : Word) (cin : Bool) : AluOut :=
  let t := x.toNat + z.toNat + b2n cin
  let y := BitVec.ofNat 32 t
  { y := y, c := some (decide (2 ^ 32 ≤ t)), v := some (x.msb == z.msb && y.msb != x.msb) }

/-- `x - z - bin`, with borrow and signed overflow (R117). -/
def aluDiff (x z : Word) (bin : Bool) : AluOut :=
  let y := x - z - BitVec.ofNat 32 (b2n bin)
  { y := y, c := some (decide (x.toNat < z.toNat + b2n bin)), v := some (x.msb != z.msb && y.msb != x.msb) }

/-- A shift or rotation by `n`; by 0 it returns A and leaves C (R119). -/
def aluShift (a y : Word) (n : Nat) (c : Bool) : AluOut :=
  if n = 0 then { y := a } else { y := y, c := some c }

/-- Ones in a word, leading zeros of a word. -/
def popCount (a : Word) : Nat := ((List.range 32).filter fun i => bit a i).length
def leadingZeros (a : Word) : Nat := ((List.range 32).takeWhile fun i => !bit a (31 - i)).length

/-- Table 4.5, by code. The Y of `NOP`, which only DISP and the memory operations could use, is 0: the model's
choice (log 70). -/
def alu (op : Nat) (a b : Word) (cin sel : Bool) : AluOut :=
  let n := fld b 4 0
  match op with
  | 1 => { y := a }
  | 2 => { y := b }
  | 3 => aluSum a b false
  | 4 => aluSum a b cin
  | 5 => aluDiff a b false
  | 6 => aluDiff a b cin
  | 7 => aluDiff b a false
  | 8 => { y := a &&& b }
  | 9 => { y := a ||| b }
  | 10 => { y := a ^^^ b }
  | 11 => { y := a &&& ~~~ b }
  | 12 => { y := ~~~ a }
  | 13 => aluDiff 0 a false
  | 14 => aluShift a (a <<< n) n (bit a (32 - n))
  | 15 => aluShift a (a >>> n) n (bit a (n - 1))
  | 16 => aluShift a (a.sshiftRight n) n (bit a (n - 1))
  | 17 => aluShift a (a.rotateLeft n) n (bit (a.rotateLeft n) 0)
  | 18 => aluShift a (a.rotateRight n) n (bit (a.rotateRight n) 31)
  | 19 => { aluDiff a b false with writes := false }
  | 20 => { y := a &&& b, writes := false }
  | 21 => { y := if a.toNat ≤ b.toNat then a else b }
  | 22 => { y := if a.toNat ≤ b.toNat then b else a }
  | 23 => { y := if a.toInt ≤ b.toInt then a else b }
  | 24 => { y := if a.toInt ≤ b.toInt then b else a }
  | 25 => { y := a * b }
  | 26 => { y := BitVec.ofNat 32 (a.toNat * b.toNat / 2 ^ 32) }
  | 27 => { y := BitVec.ofInt 32 ((a.toInt * b.toInt) >>> 32) }
  | 28 => { y := BitVec.ofNat 32 (leadingZeros a) }
  | 29 => { y := BitVec.ofNat 32 (popCount a) }
  | 30 => { y := (a >>> n) &&& BitVec.ofNat 32 (2 ^ (fld b 9 5 + 1) - 1) }
  | 31 => { y := if sel then a else b }
  | _ => { y := 0, zn := false, writes := false }

/-- A multiplication delivers its result one cycle late (R119). -/
def isMultiply (op : Nat) : Bool := decide (25 ≤ op ∧ op ≤ 27)

/-- FLAGS after an operation's own updates. -/
def AluOut.flags (o : AluOut) (f : BitVec 16) : BitVec 16 :=
  let f := if o.zn then setBit (setBit f 0 (decide (o.y = 0))) 1 o.y.msb else f
  let f := match o.c with | some c => setBit f 2 c | none => f
  match o.v with | some v => setBit f 3 v | none => f

/-- FLAGS written from Y (Table 4.6): bit 7 reads 0. -/
def flagsFrom (y : Word) : BitVec 16 := y.setWidth 16 &&& 0xFF7F

/-- SETF and CLRF on the software flags (R132). -/
def softFlags (setf clrf : Bool) (mask : BitVec 8) (f : BitVec 16) : BitVec 16 :=
  let m : BitVec 16 := mask.setWidth 16 <<< 8
  match setf, clrf with
  | true, true => f ^^^ m
  | true, false => f ||| m
  | false, true => f &&& ~~~ m
  | false, false => f

/-- Table 4.4: `sbhi` and `urg` are the conditions that lie outside FLAGS and LC. -/
def condition (code : Nat) (f lc : BitVec 16) (sbhi urg : Bool) : Bool :=
  let z := bit f 0
  let n := bit f 1
  let c := bit f 2
  let v := bit f 3
  match code with
  | 0 => true | 1 => z | 2 => !z | 3 => c | 4 => !c | 5 => n | 6 => !n | 7 => v | 8 => !v
  | 9 => !c && !z | 10 => c || z | 11 => n == v | 12 => n != v | 13 => !z && n == v | 14 => z || n != v
  | 15 => decide (lc = 0)
  | 24 => bit f 4 | 25 => bit f 5 | 26 => bit f 6
  | 27 => sbhi
  | 28 => urg
  | k => if 16 ≤ k ∧ k ≤ 23 then bit f (k - 8) else false

end Sys2Proof.Machine
end

