-- ==== Sys2Proof/Machine/Operands.lean ====
section
/-! DEFINITION. Operands: the fields of a microword, its parity, and its operand sources
(Tables 4.1, 4.6; R110 to R112, R118 to R122). -/

namespace Sys2Proof.Machine

/-- A microword (R110). -/
abbrev Microword := BitVec 128

/-! The fields; a reserved code acts as code 0 of its field (R112). -/

def uSeq (w : Microword) : Nat := let c := fld w 127 124; if c ≤ 8 then c else 0
def uTgt (w : Microword) : BitVec 11 := BitVec.ofNat 11 (fld w 123 113)
def uCond (w : Microword) : Nat := fld w 112 108
def uAlu (w : Microword) : Nat := let c := fld w 107 102; if c ≤ 31 then c else 0
def uSa (w : Microword) : Nat := fld w 101 97
def uSb (w : Microword) : Nat := fld w 96 92
def uDst (w : Microword) : Nat := fld w 91 87
def uInd (w : Microword) : Bool := bit w 86
def uChop (w : Microword) : Nat :=
  let c := fld w 85 80
  if c ≤ 0x1A ∨ (0x20 ≤ c ∧ c ≤ 0x25) then c else 0
def uChsel (w : Microword) : Nat := fld w 79 76
def uMem (w : Microword) : Nat := let c := fld w 75 72; if c ≤ 8 then c else 0
/-- COMMIT, SIGNAL, SETF, CLRF, YIELD (Table 4.9). -/
def uCommit (w : Microword) : Bool := bit w 64
def uSignal (w : Microword) : Bool := bit w 65
def uSetf (w : Microword) : Bool := bit w 66
def uClrf (w : Microword) : Bool := bit w 67
def uYield (w : Microword) : Bool := bit w 68
def uImm (w : Microword) : Word := BitVec.ofNat 32 (fld w 63 32)
def uTrk (w : Microword) : Fin 4 := Fin.ofNat 4 (fld w 31 30)
def uTk (w : Microword) : Nat :=
  let c := fld w 29 24
  if c ≤ 6 ∨ c = 0x10 ∨ c = 0x11 ∨ c = 0x12 ∨ c = 0x18 then c else 0
def uAux (w : Microword) : BitVec 24 := w.setWidth 24

/-- The pair Gd:Gd+1 that DST names, by its even register; none for DST of 16 or above (R126). -/
def uPair (w : Microword) : Option (Fin 8) := if h : uDst w < 16 then some ⟨uDst w / 2, by omega⟩ else none

/-- The microword writes Y to DST (R113 step 3, R126). -/
def uWritesY (w : Microword) : Bool := decide (uMem w = 0) && decide (uAlu w ≠ 0 ∧ uAlu w ≠ 19 ∧ uAlu w ≠ 20)

/-- The SEQ codes that commit (R89). -/
def seqCommits (w : Microword) : Bool := decide (uSeq w = 6 ∨ uSeq w = 7 ∨ uSeq w = 8)
/-- The microword commits (R97, R113 step 7, R134). -/
def uCommits (w : Microword) : Bool := uCommit w || decide (uMem w = 3 ∨ uMem w = 4) || seqCommits w || uYield w

/-- The side effects that the microword puts into the store buffer (R96, R135). -/
def uEntries (w : Microword) : Nat :=
  b2n (decide (0x0F ≤ uChop w)) + b2n (decide (2 ≤ uMem w ∧ uMem w ≤ 6)) + b2n (decide (0x10 ≤ uTk w)) + b2n (uSignal w)

/-! Parity (R111). -/

def laneOf (w : Microword) (j : Nat) : BitVec 16 := BitVec.ofNat 16 (fld w (16 * j + 15) (16 * j))
def parityBits (w : Microword) : BitVec 8 :=
  (List.range 8).foldl (fun acc j => setBit acc j (parity (laneOf w j))) 0

/-- The word and the parity bits at an address of the store (R142). -/
def Engine.fetch (e : Engine) (a : BitVec 11) : Microword × BitVec 8 :=
  match e.store.find? (fun p => decide (p.1 = a.toNat)) with
  | some (_, w, p) => (w, p)
  | none => (0, 0)

/-- The lanes of a stored word that fail parity (R101). -/
def badLanes (x : Microword × BitVec 8) : BitVec 8 := parityBits x.1 ^^^ x.2

/-! Sources. -/

/-- The channel of CHOP and of the source CH_STATUS (R122). -/
def selChannel (s : State) (e : Fin 16) (w : Microword) : Fin 256 :=
  let c := if uChsel w = 15 ∧ uInd w then fld s.te[e].g[15] 3 0 else uChsel w
  ⟨16 * e.val + c % 16, by omega⟩

/-- The channel of EV_PLACE (Table 4.11). -/
def placeChannel (s : State) (e : Fin 16) (w : Microword) : Fin 256 :=
  let c := fld (uAux w) 23 20
  let c := if c = 15 ∧ uInd w then fld s.te[e].g[15] 3 0 else c
  ⟨16 * e.val + c % 16, by omega⟩

/-- The value of a source code (Table 4.6, R120). -/
def source (s : State) (e : Fin 16) (w : Microword) (code : Nat) : Word :=
  let x := s.te[e]
  let r := x.runningEntry
  if h : code < 16 then x.g[code]
  else match code with
  | 16 => x.lc.setWidth 32
  | 17 => x.flags.setWidth 32
  | 18 => (frame s).setWidth 32
  | 19 => lo32 (coarse s.tb.now)
  | 20 => hi32 s.tb.now
  | 21 => (r.map (·.arg)).getD 0
  | 22 => (r.map (·.deadline)).getD 0
  | 23 => s.ch[selChannel s e w].statusWord
  | 25 => 0xFFFF_FFFF
  | 26 => uImm w
  | 27 => lo32 x.opd
  | 28 => hi32 x.opd
  | 29 => pack [((r.map fun q => q.num.toNat).getD 0, 8), (e.val, 0)]
  | 30 => BitVec.ofNat 32 x.sb.length
  | _ => 0

/-- COND decides something: a branch or `SEL`. -/
def uJudges (w : Microword) : Bool := decide (uSeq w = 2 ∨ uSeq w = 3 ∨ uAlu w = 31)

/-- `LC` (16) and `FLAGS` (17), where the microword reads them without naming them as a source. -/
def uReadsState (w : Microword) : List Nat :=
  (if uSeq w = 5 ∨ (uJudges w ∧ uCond w = 15) then [16] else []) ++
    (if (uJudges w ∧ 1 ≤ uCond w ∧ uCond w ≤ 26 ∧ uCond w ≠ 15) ∨ uAlu w = 4 ∨ uAlu w = 6 ∨ (uSetf w ∧ uClrf w) then [17] else [])

/-- The registers the microword reads, by their codes. -/
def uReads (w : Microword) : List Nat :=
  let pair := match uPair w with | some d => [2 * d.val, 2 * d.val + 1] | none => []
  let indirect := uInd w && ((decide (uChsel w = 15) && decide (uChop w ≠ 0 ∨ uSa w = 23 ∨ uSb w = 23)) ||
    decide (uTk w = 0x10 ∧ fld (uAux w) 23 20 = 15))
  [uSa w, uSb w] ++ uReadsState w ++ (if indirect then [15] else []) ++
    (if uMem w = 2 ∨ uMem w = 3 ∨ uMem w = 4 ∨ uMem w = 6 then pair else [])

/-- The registers the microword writes, by their codes. -/
def uWrites (w : Microword) : List Nat :=
  let pair := match uPair w with | some d => [2 * d.val, 2 * d.val + 1] | none => []
  (if uWritesY w then [uDst w] else []) ++
    (if uMem w = 1 ∨ uMem w = 3 ∨ uMem w = 4 ∨ uMem w = 5 ∨ uMem w = 7 ∨ uMem w = 8 then pair else [])

/-- A 64-bit register pair. -/
def Engine.pair (e : Engine) (d : Fin 8) : BitVec 64 := join e.g[2 * d.val + 1] e.g[2 * d.val]
def setPair (g : Vector Word 16) (d : Fin 8) (v : BitVec 64) : Vector Word 16 :=
  (g.set (2 * d.val) (lo32 v)).set (2 * d.val + 1) (hi32 v)

end Sys2Proof.Machine
end

