-- ==== Sys2Proof/Machine/Micro.lean ====
section
/-! DEFINITION. Micro: the timing engine's execution of one microword: stalls, faults, the seven
steps of R113, commit, suspension, abandonment and the machine check (R77 to R142, R468). -/

namespace Sys2Proof.Machine

/-! Registers, snapshot, contexts (R99). -/

def Engine.ctxAt (pc : BitVec 11) (e : Engine) : Ctx := { g := e.g, lc := e.lc, flags := e.flags, pc := pc }
def Engine.restore (c : Ctx) (e : Engine) : Engine := { e with g := c.g, lc := c.lc, flags := c.flags }

/-- The sequence number of the running request. -/
def Engine.runSeq (e : Engine) : Option Nat := e.runningEntry.map (·.seq)

/-- The values on their way that belong to the running routine, and those that R115 waits for. -/
def Engine.mine (e : Engine) : List PendVal :=
  e.pend.filter fun v => v.owner.isSome && decide (v.owner = e.runSeq)
/-- A value whose data is discarded (DST 16 or above) holds nothing up: the model's choice (log 70). -/
def Engine.awaited (e : Engine) : List PendVal := e.mine.filter (·.dst.isSome)

/-- Values of the routine that are dropped with it: all, or those issued after its resume point (R130). -/
def Engine.dropValues (all : Bool) (e : Engine) : Engine :=
  { e with pend := e.pend.map fun v => if v.owner = e.runSeq ∧ (all ∨ ¬ v.kept) then { v with owner := none, dst := none } else v }

/-- Nothing runs any more: buffer, preemption and multiply are forgotten. -/
def Engine.quiet (e : Engine) : Engine := { e with sb := [], preempt := none, mulDst := none, crossed := 0, runaway := false }

/-- The engine spends cycle `clk` (R95). -/
def Engine.spend (clk : Nat) (e : Engine) : Engine := { e with busy := e.busy + 1, free := clk + 1 }

/-- The running routine is suspended with its snapshot, in a context slot or with its entry (Table 3.6). -/
def Engine.suspend (slot : Bool) (wait : Option Word) (e : Engine) : Engine :=
  match e.runningEntry with
  | none => e
  | some r =>
    let e := e.dropValues false
    ((e.restore e.snap).modEntry r.seq fun x =>
      { x with running := false, ctx := some e.snap, slot := slot, waitf := wait }).quiet

/-- The running request leaves the ready set; an abandoned one restores the snapshot (R89, R99). -/
def Engine.leave (restore : Bool) (e : Engine) : Engine :=
  match e.runningEntry with
  | none => e
  | some r =>
    let e := e.dropValues true
    let e := if restore then e.restore e.snap else e
    (e.dropEntry r.seq).quiet

/-- A fault abandons and discards the routine: its bit in TE_STAT (Table 3.6). -/
def Engine.fault (clk i : Nat) (e : Engine) : Engine :=
  { (e.leave true).spend clk with stat := setBit e.stat i true, fdisc := inc8 e.fdisc }

/-- Every request leaves the ready set and is counted (R79, R101). -/
def Engine.empty (e : Engine) : Engine :=
  let n := e.ready.length
  let e := if e.runningEntry.isSome then e.leave true else e
  { e.quiet with ready := [], tests := [], disc := addSat e.disc n,
                 pend := e.pend.map fun v => { v with owner := none, dst := none } }

/-- The chosen routine is loaded: a fresh snapshot, or its saved context (R88, R99, R121). -/
def Engine.load (clk : Nat) (x : Entry) (e : Engine) : Engine :=
  let e := match x.ctx with
    | none => { e with snap := e.ctxAt x.entry, pc := x.entry }
    | some c => { e.restore c with snap := c, pc := c.pc }
  { (e.modEntry x.seq fun x => { x with running := true, ctx := none, slot := false, waitf := none }).quiet.spend clk with
    opd := 0 }

/-- The engine dispatches the first entry that cycle `clk` can choose, if there is one. -/
def Engine.dispatch (clk : Nat) (e : Engine) : Engine := match e.best clk with | some x => e.load clk x | none => e

/-- The entry whose preemption is due in cycle `clk` (R90). -/
def Engine.preempting (clk : Nat) (e : Engine) : Option Entry :=
  if clk < e.preemptAt ∨ 4 ≤ e.slots then none
  else e.preempt.bind fun q => e.ready.find? fun x => decide (x.seq = q) && x.eligible

/-- The store buffer commits in cycle `clk` at the microword at `pc` (R97, R99, R130). -/
def Engine.commit (clk : Nat) (pc : BitVec 11) (e : Engine) : Engine :=
  { e with dq := e.dq ++ e.sb, sb := [], dqAt := max e.dqAt (clk + 1), snap := e.ctxAt (pc + 1)
           pend := e.pend.map fun v => if v.owner.isSome ∧ v.owner = e.runSeq then { v with kept := true } else v }

/-- An eligible entry precedes the running request (R87). -/
def Engine.urgent (e : Engine) : Bool :=
  match e.runningEntry with
  | some r => e.ready.any fun x => x.eligible && x.before r
  | none => false

/-! Stalls (Table 4.2). -/

/-- The stalls that are judged before the operands are read, in cycle `clk`. -/
def stallsOperands (clk : Nat) (w : Microword) (e : Engine) : Bool :=
  let due := e.awaited.flatMap fun v => match v.dst with | some d => [2 * d.val, 2 * d.val + 1] | none => []
  (uReads w ++ uWrites w).any (due.contains ·) ||
  (match e.mulDst with | some d => decide (clk ≤ e.free) && (uReads w).contains d | none => false) ||
  (decide (24 ≤ uCond w ∧ uCond w ≤ 26) && e.mine.any (·.load)) ||
  (decide (uMem w = 1) && decide (4 ≤ (e.pend.filter fun v => v.load && v.arrived.isNone).length))

/-- The stalls of a microword that commits or waits. -/
def stallsCommit (w : Microword) (e : Engine) : Bool :=
  ((seqCommits w || uYield w) && !e.awaited.isEmpty) ||
  (uCommits w && decide (16 < e.dq.length + e.sb.length + uEntries w)) ||
  (decide (uSeq w = 6) && decide (4 ≤ e.slots))

/-! Memory and wells (R98, R126 to R130). -/

/-- The well endpoint code of an engine (Table 10.4). -/
def engineCode (e : Fin 16) : Nat := 0x10 + e.val

/-- The newest value that the engine's own buffers hold for a word: a value, or the `ADD` that the
load waits behind with whether that one is still to be delivered (R98). -/
def Engine.ownValue (word : Nat) (e : Engine) : Option (BitVec 64 ⊕ Nat) :=
  (e.sb.reverse ++ e.dq.reverse).findSome? fun x =>
    match x with
    | .st w v => if w = word then some (.inl v) else none
    | .swap w v _ => if w = word then some (.inl v) else none
    | .add w _ id => if w = word then some (.inr id) else none
    | _ => none

/-- `LD` (R98, R127). -/
def microLoad (e : Fin 16) (word : Nat) (dst : Option (Fin 8)) (s : State) : State :=
  let x := s.te[e]
  let id := x.nextId
  let new (behind : Option (Nat × Nat)) : PendVal := { id := id, dst := dst, load := true, owner := x.runSeq, behind := behind }
  match x.ownValue word with
  | some (.inl v) => modTe e (fun x => match dst with | some d => { x with g := setPair x.g d v } | none => x) s
  | some (.inr a) => modTe e (fun x => { x with nextId := id + 1, pend := x.pend ++ [new (some (a, word))] }) s
  | none => enqueue ⟨e, word, .read, .engine id⟩
      (modTe e (fun x => { x with nextId := id + 1, pend := x.pend ++ [new none] }) s)

/-- `ADD` or `SWAP`: the entry and its old value's place; discarded with EXIT, HALT or WAITF (R130). -/
def microAtomic (e : Fin 16) (add : Bool) (word : Nat) (w : Microword) (s : State) : State :=
  modTe e (fun x =>
    let id := x.nextId
    let v := match uPair w with | some d => x.pair d | none => 0
    let dst := if seqCommits w then none else uPair w
    { x with nextId := id + 1, sb := x.sb ++ [if add then .add word v id else .swap word v id],
             pend := x.pend ++ [{ id := id, dst := dst, load := false, owner := if seqCommits w then none else x.runSeq }] }) s

/-- The items that the engine sees in a well: its own pops are gone, its own pushes are there (R98), those of this cycle
with them where it writes the well. -/
def seenItems (e : Fin 16) (k : Fin 64) (s : State) : List Item :=
  let own := s.te[e].dq ++ s.te[e].sb
  let pops := (own.filter fun x => match x with | .pop j r => decide (j = k) && r | _ => false).length
  let pushes := own.filterMap fun x => match x with | .push j v => if j = k then some (mkItem v 0) else none | _ => none
  (if s.well[k].writes (engineCode e) then s.well[k].items ++ pushes else s.well[k].seen s.tb.clk).drop pops

/-- `POP` and `PEEK` deliver the oldest item at once (R98, R128, R298, R300, R302). -/
def microItem (e : Fin 16) (pop : Bool) (k : Fin 64) (dst : Option (Fin 8)) (s : State) : State :=
  let put (v : BitVec 64) (tag : BitVec 2) (s : State) : State :=
    modTe e (fun x => { x with
      g := match dst with | some d => setPair x.g d v | none => x.g
      flags := match tag.toNat with | 1 => setBit x.flags 6 true | 2 => setBit x.flags 5 true
                                    | 3 => setBit x.flags 4 true | _ => x.flags
      sb := if pop then x.sb ++ [.pop k (decide (tag ≠ 2))] else x.sb }) s
  if !s.well[k].reads (engineCode e) then put s.well[k].idle 2 (modWell k Well.refuse s)
  else match seenItems e k s with
  | [] => put s.well[k].idle 2 s
  | i :: _ => put i.data i.readTag (wellReport k i s)

/-- The memory operation of a microword whose address is `y` (Table 4.8). -/
def microMem (e : Fin 16) (w : Microword) (y : Word) (s : State) : State :=
  let word := fld y 23 3
  let k : Fin 64 := Fin.ofNat 64 (fld y 5 0)
  let data (x : Engine) : BitVec 64 := match uPair w with | some d => x.pair d | none => 0
  match uMem w with
  | 1 => microLoad e word (uPair w) s
  | 2 => modTe e (fun x => { x with sb := x.sb ++ [.st word (data x)] }) s
  | 3 => microAtomic e true word w s
  | 4 => microAtomic e false word w s
  | 5 => microItem e true k (uPair w) s
  | 6 => modTe e (fun x => { x with sb := x.sb ++ [.push k (data x)] }) s
  | 7 => microItem e false k (uPair w) s
  | 8 => modTe e (fun x => match uPair w with
      | some d => { x with g := setPair x.g d (BitVec.ofNat 64 (s.well[k].count s.tb.clk)) }
      | none => x) s
  | _ => s

/-- The first ownership test of a Cistern operation fails (R100, R129). -/
def accessFails (e : Fin 16) (w : Microword) (y : Word) (s : State) : Bool :=
  decide (1 ≤ uMem w ∧ uMem w ≤ 4) &&
  (decide (fld y 31 24 ≠ 0) || !admits s.cis.banks[bankOf (fld y 23 3)].own e (decide (uMem w ≠ 1)))

/-! Channel and tracker reads. -/

/-- What a channel read loads into OPD (Table 4.7). -/
def chopRead (s : State) (n : Fin 256) (op : Nat) : BitVec 64 :=
  let c := s.ch[n]
  let lo (v : Word) : BitVec 64 := v.setWidth 64
  match op with
  | 0x01 => lo c.cfg | 0x02 => lo c.cnt | 0x03 => lo c.top | 0x04 => lo c.cmp | 0x05 => lo c.pre
  | 0x06 => lo c.cap | 0x07 => lo c.width | 0x08 => lo c.per | 0x09 => lo c.filt | 0x0A => lo c.ie
  | 0x0B => c.tgt
  | 0x0C => c.capt
  | 0x0D => join s.ch[highOf n].cnt s.ch[lowOf n].cnt
  | 0x0E => join s.ch[highOf n].cap s.ch[lowOf n].cap
  | _ => lo c.cmdWord

/-- What a tracker read loads into OPD (Table 4.10). -/
def tkRead (s : State) (t : Fin 4) (op : Nat) (a : Word) : BitVec 64 :=
  let x := s.wt[t]
  match op with
  | 1 => join x.speed (x.published s.tb.now)
  | 2 => x.toothAt
  | 3 => x.stateWord.setWidth 64
  | 4 => join x.prate x.phase
  | 5 => x.a2t a
  | _ => let v := x.entry (fld a 9 0); join v.descriptor v.angle

/-! One microword. -/

/-- Steps 1 to 4 of R113 on registers and flags. -/
def microAlu (w : Microword) (o : AluOut) (x : Engine) : Engine :=
  let x :=
    if uMem w ≠ 0 then { x with mulDst := none }
    else
      let g := if h : uWritesY w ∧ uDst w < 16 then x.g.set (uDst w) o.y h.2 else x.g
      let lc := if uWritesY w ∧ uDst w = 16 then o.y.setWidth 16 else x.lc
      let flags := if uDst w = 17 ∧ uWritesY w then flagsFrom o.y else o.flags x.flags
      { x with g := g, lc := lc, flags := flags, mulDst := if isMultiply (uAlu w) ∧ uDst w ≤ 17 then some (uDst w) else none }
  { x with flags := softFlags (uSetf w) (uClrf w) ((uAux w).setWidth 8) x.flags }

/-- Step 6 of R113: reads act, side effects enter the store buffer in the order of R135. -/
def microOps (e : Fin 16) (w : Microword) (a b y : Word) (n pn : Fin 256) (s : State) : State :=
  let op := uChop w
  let s := if 0 < op ∧ op ≤ 0x0F then modTe e (fun x => { x with opd := chopRead s n op }) s else s
  let s := if 0x0F ≤ op then modTe e (fun x => { x with sb := x.sb ++ [.chan n op a b] }) s else s
  let s := microMem e w y s
  let tk := uTk w
  let s := if 0 < tk ∧ tk ≤ 6 then modTe e (fun x => { x with opd := tkRead s (uTrk w) tk a }) s else s
  let s := if 0x10 ≤ tk then modTe e (fun x => { x with sb := x.sb ++ [.tracker (uTrk w) tk a b (uAux w) pn] }) s else s
  if uSignal w then
    modTe e (fun x => { x with sb := x.sb ++ [.signal (Fin.ofNat 16 (fld (uAux w) 23 20)) (fld (uAux w) 18 16)
      (pack [(fld a 23 0, 8), (e.val, 0)])] }) s
  else s

/-- The SEQ operation (Table 4.3) in cycle `c` of frame `f`: `taken` is COND, `y` the ALU's result. -/
def microSeq (w : Microword) (taken : Bool) (y f : Word) (c : Nat) (x : Engine) : Engine :=
  let next := x.pc + 1
  match uSeq w with
  | 1 => { x with pc := uTgt w }
  | 2 => { x with pc := if taken then uTgt w else next }
  | 3 => { x with pc := if taken then next else uTgt w }
  | 4 => { x with pc := uTgt w + BitVec.ofNat 11 (fld y 3 0) }
  | 5 => if x.lc = 0 then { x with pc := next } else { x with lc := x.lc - 1, pc := uTgt w }
  | 6 =>
    let x := { x with pc := next }
    match x.runningEntry with
    | some r => (x.modEntry r.seq fun q => if (q.deadline - (f + 1)).toInt < 0 then { q with deadline := f + 1 } else q).suspend
        true (some (f + 1))
    | none => x
  | 7 => { x with pc := next }.leave false
  | 8 => { { x with pc := next }.leave false with state := .halted, ownHalt := some c }
  | _ => { x with pc := next }

/-- A doorbell request that the engine retires is acknowledged to the targets that ask for it (R89, R321). -/
def acknowledge (e : Fin 16) (num : BitVec 6) (s : State) : State :=
  if 40 ≤ num.toNat ∧ num.toNat < 48 then
    forAll 32 (fun h s =>
      if bit s.ic.tgt[h].dback (16 + e.val) && bit s.ic.tgt[h].dback (num.toNat - 40) then pulsePriv h 0 s else s) s
  else s

/-- The microword at PC acts in the order of R113, or stalls, or faults. -/
def microStep (e : Fin 16) (w : Microword) (s : State) : State :=
  let x := s.te[e]
  let clk := s.tb.clk
  let stall (s : State) : State := modTe e (fun x => { x.spend clk with mulDst := none }) s
  if stallsOperands clk w x then stall s
  else
    let a := source s e w (uSa w)
    let b := source s e w (uSb w)
    let sbhi := decide (12 ≤ x.sb.length + uEntries w)
    let o := alu (uAlu w) a b (bit x.flags 2) (condition (uCond w) x.flags x.lc sbhi x.urgent)
    if 16 < x.sb.length + uEntries w then modTe e (Engine.fault clk 2) s
    else if accessFails e w o.y s then modTe e (Engine.fault clk 3) s
    else if stallsCommit w x then stall s
    else
      let n := selChannel s e w
      let pn := placeChannel s e w
      let s := modTe e (fun x => (microAlu w o x).spend clk) s
      let taken := condition (uCond w) s.te[e].flags s.te[e].lc sbhi s.te[e].urgent
      let s := microOps e w a b o.y n pn s
      let f : Word := (frame s).setWidth 32
      let s := modTe e (fun x =>
        let x := if uCommits w then x.commit clk x.pc else x
        if uYield w ∧ x.urgent ∧ x.slots < 4 then ({ x with pc := x.pc + 1 }).suspend true none
        else microSeq w taken o.y f clk x) s
      match x.runningEntry with
      | some r => if s.te[e].ready.any (fun q => decide (q.seq = r.seq)) then s else acknowledge e r.num s
      | none => s

/-- A fetched microword fails parity: the machine check (R101, R102). -/
def machineCheck (e : Fin 16) (lanes : BitVec 8) (s : State) : State :=
  let onset := !anyMchk s
  let s := modTe e (fun x => { x.empty.spend s.tb.clk with
    state := .mchk, mcAddr := x.pc, mcLanes := lanes, mccnt := inc8 x.mccnt, stat := setBit x.stat 7 true }) s
  let s := forAll 4 (fun t s =>
    discard t (fun v => v.usesChannel && decide (v.channel.val / 16 = e.val)) (commitDue t s)) s
  refreshPins (raiseFault 0 onset e s.te[e].mcWord s)

/-- The engine has a routine to execute: RUN, no housekeeping, no runaway found (R88, R92, R95). -/
def Engine.executes (x : Engine) : Bool :=
  decide (x.state = .run) && !x.hk && x.runningEntry.isSome && !x.runaway

/-- The engine executes the microword at its PC in its first free cycle, when a test of the microword holds; not in
housekeeping, and not when a preemption is due (R22, R90, R92). -/
def runMicro (e : Fin 16) (test : Microword → Bool) (s : State) : State :=
  if s.te[e].executes then
    atClk s.te[e].free (fun s =>
      let x := s.te[e]
      if inHousekeeping s || (x.preempting s.tb.clk).isSome then s
      else
        let m := x.fetch x.pc
        if badLanes m ≠ 0 then machineCheck e (badLanes m) s
        else if test m.1 then microStep e m.1 s else s) s
  else s

end Sys2Proof.Machine
end

