-- ==== Sys2Proof/Machine/MicroCmd.lean ====
section
/-! DEFINITION. MicroCmd: the rows of the microcode tables. Each executes the microword at the
engine's PC, whole, when that microword carries the row's code (log 16). -/

namespace Sys2Proof.Machine

def execSeqNext (e : Fin 16) (s : State) : Host.Outcome State Fault Refusal := done (runMicro e (fun w => uSeq w == 0) s)
def execSeqGoto (e : Fin 16) (s : State) : Host.Outcome State Fault Refusal := done (runMicro e (fun w => uSeq w == 1) s)
def execSeqBrt (e : Fin 16) (s : State) : Host.Outcome State Fault Refusal := done (runMicro e (fun w => uSeq w == 2) s)
def execSeqBrf (e : Fin 16) (s : State) : Host.Outcome State Fault Refusal := done (runMicro e (fun w => uSeq w == 3) s)
def execSeqDisp (e : Fin 16) (s : State) : Host.Outcome State Fault Refusal := done (runMicro e (fun w => uSeq w == 4) s)
def execSeqLoop (e : Fin 16) (s : State) : Host.Outcome State Fault Refusal := done (runMicro e (fun w => uSeq w == 5) s)
def execSeqWaitf (e : Fin 16) (s : State) : Host.Outcome State Fault Refusal := done (runMicro e (fun w => uSeq w == 6) s)
def execSeqExit (e : Fin 16) (s : State) : Host.Outcome State Fault Refusal := done (runMicro e (fun w => uSeq w == 7) s)
def execSeqHalt (e : Fin 16) (s : State) : Host.Outcome State Fault Refusal := done (runMicro e (fun w => uSeq w == 8) s)

def execAluNop (e : Fin 16) (s : State) : Host.Outcome State Fault Refusal := done (runMicro e (fun w => uAlu w == 0) s)
def execAluPassa (e : Fin 16) (s : State) : Host.Outcome State Fault Refusal := done (runMicro e (fun w => uAlu w == 1) s)
def execAluPassb (e : Fin 16) (s : State) : Host.Outcome State Fault Refusal := done (runMicro e (fun w => uAlu w == 2) s)
def execAluAdd (e : Fin 16) (s : State) : Host.Outcome State Fault Refusal := done (runMicro e (fun w => uAlu w == 3) s)
def execAluAdc (e : Fin 16) (s : State) : Host.Outcome State Fault Refusal := done (runMicro e (fun w => uAlu w == 4) s)
def execAluSub (e : Fin 16) (s : State) : Host.Outcome State Fault Refusal := done (runMicro e (fun w => uAlu w == 5) s)
def execAluSbc (e : Fin 16) (s : State) : Host.Outcome State Fault Refusal := done (runMicro e (fun w => uAlu w == 6) s)
def execAluRsb (e : Fin 16) (s : State) : Host.Outcome State Fault Refusal := done (runMicro e (fun w => uAlu w == 7) s)
def execAluAnd (e : Fin 16) (s : State) : Host.Outcome State Fault Refusal := done (runMicro e (fun w => uAlu w == 8) s)
def execAluOr (e : Fin 16) (s : State) : Host.Outcome State Fault Refusal := done (runMicro e (fun w => uAlu w == 9) s)
def execAluXor (e : Fin 16) (s : State) : Host.Outcome State Fault Refusal := done (runMicro e (fun w => uAlu w == 10) s)
def execAluAndn (e : Fin 16) (s : State) : Host.Outcome State Fault Refusal := done (runMicro e (fun w => uAlu w == 11) s)
def execAluNot (e : Fin 16) (s : State) : Host.Outcome State Fault Refusal := done (runMicro e (fun w => uAlu w == 12) s)
def execAluNeg (e : Fin 16) (s : State) : Host.Outcome State Fault Refusal := done (runMicro e (fun w => uAlu w == 13) s)
def execAluShl (e : Fin 16) (s : State) : Host.Outcome State Fault Refusal := done (runMicro e (fun w => uAlu w == 14) s)
def execAluShr (e : Fin 16) (s : State) : Host.Outcome State Fault Refusal := done (runMicro e (fun w => uAlu w == 15) s)
def execAluSar (e : Fin 16) (s : State) : Host.Outcome State Fault Refusal := done (runMicro e (fun w => uAlu w == 16) s)
def execAluRol (e : Fin 16) (s : State) : Host.Outcome State Fault Refusal := done (runMicro e (fun w => uAlu w == 17) s)
def execAluRor (e : Fin 16) (s : State) : Host.Outcome State Fault Refusal := done (runMicro e (fun w => uAlu w == 18) s)
def execAluCmp (e : Fin 16) (s : State) : Host.Outcome State Fault Refusal := done (runMicro e (fun w => uAlu w == 19) s)
def execAluTst (e : Fin 16) (s : State) : Host.Outcome State Fault Refusal := done (runMicro e (fun w => uAlu w == 20) s)
def execAluMinu (e : Fin 16) (s : State) : Host.Outcome State Fault Refusal := done (runMicro e (fun w => uAlu w == 21) s)
def execAluMaxu (e : Fin 16) (s : State) : Host.Outcome State Fault Refusal := done (runMicro e (fun w => uAlu w == 22) s)
def execAluMins (e : Fin 16) (s : State) : Host.Outcome State Fault Refusal := done (runMicro e (fun w => uAlu w == 23) s)
def execAluMaxs (e : Fin 16) (s : State) : Host.Outcome State Fault Refusal := done (runMicro e (fun w => uAlu w == 24) s)
def execAluMul (e : Fin 16) (s : State) : Host.Outcome State Fault Refusal := done (runMicro e (fun w => uAlu w == 25) s)
def execAluMulhu (e : Fin 16) (s : State) : Host.Outcome State Fault Refusal := done (runMicro e (fun w => uAlu w == 26) s)
def execAluMulhs (e : Fin 16) (s : State) : Host.Outcome State Fault Refusal := done (runMicro e (fun w => uAlu w == 27) s)
def execAluClz (e : Fin 16) (s : State) : Host.Outcome State Fault Refusal := done (runMicro e (fun w => uAlu w == 28) s)
def execAluPopc (e : Fin 16) (s : State) : Host.Outcome State Fault Refusal := done (runMicro e (fun w => uAlu w == 29) s)
def execAluExt (e : Fin 16) (s : State) : Host.Outcome State Fault Refusal := done (runMicro e (fun w => uAlu w == 30) s)
def execAluSel (e : Fin 16) (s : State) : Host.Outcome State Fault Refusal := done (runMicro e (fun w => uAlu w == 31) s)

def execChopRdCfg (e : Fin 16) (s : State) : Host.Outcome State Fault Refusal := done (runMicro e (fun w => uChop w == 0x01) s)
def execChopRdCnt (e : Fin 16) (s : State) : Host.Outcome State Fault Refusal := done (runMicro e (fun w => uChop w == 0x02) s)
def execChopRdTop (e : Fin 16) (s : State) : Host.Outcome State Fault Refusal := done (runMicro e (fun w => uChop w == 0x03) s)
def execChopRdCmp (e : Fin 16) (s : State) : Host.Outcome State Fault Refusal := done (runMicro e (fun w => uChop w == 0x04) s)
def execChopRdPre (e : Fin 16) (s : State) : Host.Outcome State Fault Refusal := done (runMicro e (fun w => uChop w == 0x05) s)
def execChopRdCap (e : Fin 16) (s : State) : Host.Outcome State Fault Refusal := done (runMicro e (fun w => uChop w == 0x06) s)
def execChopRdWidth (e : Fin 16) (s : State) : Host.Outcome State Fault Refusal := done (runMicro e (fun w => uChop w == 0x07) s)
def execChopRdPer (e : Fin 16) (s : State) : Host.Outcome State Fault Refusal := done (runMicro e (fun w => uChop w == 0x08) s)
def execChopRdFilt (e : Fin 16) (s : State) : Host.Outcome State Fault Refusal := done (runMicro e (fun w => uChop w == 0x09) s)
def execChopRdIe (e : Fin 16) (s : State) : Host.Outcome State Fault Refusal := done (runMicro e (fun w => uChop w == 0x0A) s)
def execChopRdTgt (e : Fin 16) (s : State) : Host.Outcome State Fault Refusal := done (runMicro e (fun w => uChop w == 0x0B) s)
def execChopRdCapt (e : Fin 16) (s : State) : Host.Outcome State Fault Refusal := done (runMicro e (fun w => uChop w == 0x0C) s)
def execChopRdCnt64 (e : Fin 16) (s : State) : Host.Outcome State Fault Refusal := done (runMicro e (fun w => uChop w == 0x0D) s)
def execChopRdCap64 (e : Fin 16) (s : State) : Host.Outcome State Fault Refusal := done (runMicro e (fun w => uChop w == 0x0E) s)
def execChopRdCmd (e : Fin 16) (s : State) : Host.Outcome State Fault Refusal := done (runMicro e (fun w => uChop w == 0x0F) s)
def execChopWrCfg (e : Fin 16) (s : State) : Host.Outcome State Fault Refusal := done (runMicro e (fun w => uChop w == 0x10) s)
def execChopWrCnt (e : Fin 16) (s : State) : Host.Outcome State Fault Refusal := done (runMicro e (fun w => uChop w == 0x11) s)
def execChopWrTop (e : Fin 16) (s : State) : Host.Outcome State Fault Refusal := done (runMicro e (fun w => uChop w == 0x12) s)
def execChopWrCmp (e : Fin 16) (s : State) : Host.Outcome State Fault Refusal := done (runMicro e (fun w => uChop w == 0x13) s)
def execChopWrPre (e : Fin 16) (s : State) : Host.Outcome State Fault Refusal := done (runMicro e (fun w => uChop w == 0x14) s)
def execChopWrWidth (e : Fin 16) (s : State) : Host.Outcome State Fault Refusal := done (runMicro e (fun w => uChop w == 0x15) s)
def execChopWrFilt (e : Fin 16) (s : State) : Host.Outcome State Fault Refusal := done (runMicro e (fun w => uChop w == 0x16) s)
def execChopWrIe (e : Fin 16) (s : State) : Host.Outcome State Fault Refusal := done (runMicro e (fun w => uChop w == 0x17) s)
def execChopWrTgt (e : Fin 16) (s : State) : Host.Outcome State Fault Refusal := done (runMicro e (fun w => uChop w == 0x18) s)
def execChopClrStatus (e : Fin 16) (s : State) : Host.Outcome State Fault Refusal := done (runMicro e (fun w => uChop w == 0x19) s)
def execChopWrWcode (e : Fin 16) (s : State) : Host.Outcome State Fault Refusal := done (runMicro e (fun w => uChop w == 0x1A) s)
def execChopStart (e : Fin 16) (s : State) : Host.Outcome State Fault Refusal := done (runMicro e (fun w => uChop w == 0x20) s)
def execChopStop (e : Fin 16) (s : State) : Host.Outcome State Fault Refusal := done (runMicro e (fun w => uChop w == 0x21) s)
def execChopArm (e : Fin 16) (s : State) : Host.Outcome State Fault Refusal := done (runMicro e (fun w => uChop w == 0x22) s)
def execChopDisarm (e : Fin 16) (s : State) : Host.Outcome State Fault Refusal := done (runMicro e (fun w => uChop w == 0x23) s)
def execChopReload (e : Fin 16) (s : State) : Host.Outcome State Fault Refusal := done (runMicro e (fun w => uChop w == 0x24) s)
def execChopTgtArm (e : Fin 16) (s : State) : Host.Outcome State Fault Refusal := done (runMicro e (fun w => uChop w == 0x25) s)

def execMemLd (e : Fin 16) (s : State) : Host.Outcome State Fault Refusal := done (runMicro e (fun w => uMem w == 1) s)
def execMemSt (e : Fin 16) (s : State) : Host.Outcome State Fault Refusal := done (runMicro e (fun w => uMem w == 2) s)
def execMemAdd (e : Fin 16) (s : State) : Host.Outcome State Fault Refusal := done (runMicro e (fun w => uMem w == 3) s)
def execMemSwap (e : Fin 16) (s : State) : Host.Outcome State Fault Refusal := done (runMicro e (fun w => uMem w == 4) s)
def execMemPop (e : Fin 16) (s : State) : Host.Outcome State Fault Refusal := done (runMicro e (fun w => uMem w == 5) s)
def execMemPush (e : Fin 16) (s : State) : Host.Outcome State Fault Refusal := done (runMicro e (fun w => uMem w == 6) s)
def execMemPeek (e : Fin 16) (s : State) : Host.Outcome State Fault Refusal := done (runMicro e (fun w => uMem w == 7) s)
def execMemCnt (e : Fin 16) (s : State) : Host.Outcome State Fault Refusal := done (runMicro e (fun w => uMem w == 8) s)

def execFlgCommit (e : Fin 16) (s : State) : Host.Outcome State Fault Refusal := done (runMicro e (fun w => uCommit w) s)
def execFlgSignal (e : Fin 16) (s : State) : Host.Outcome State Fault Refusal := done (runMicro e (fun w => uSignal w) s)
def execFlgSetf (e : Fin 16) (s : State) : Host.Outcome State Fault Refusal := done (runMicro e (fun w => uSetf w) s)
def execFlgClrf (e : Fin 16) (s : State) : Host.Outcome State Fault Refusal := done (runMicro e (fun w => uClrf w) s)
def execFlgYield (e : Fin 16) (s : State) : Host.Outcome State Fault Refusal := done (runMicro e (fun w => uYield w) s)

def execTkRdAngle (e : Fin 16) (s : State) : Host.Outcome State Fault Refusal := done (runMicro e (fun w => uTk w == 0x01) s)
def execTkRdTooth (e : Fin 16) (s : State) : Host.Outcome State Fault Refusal := done (runMicro e (fun w => uTk w == 0x02) s)
def execTkRdState (e : Fin 16) (s : State) : Host.Outcome State Fault Refusal := done (runMicro e (fun w => uTk w == 0x03) s)
def execTkRdPhase (e : Fin 16) (s : State) : Host.Outcome State Fault Refusal := done (runMicro e (fun w => uTk w == 0x04) s)
def execTkA2t (e : Fin 16) (s : State) : Host.Outcome State Fault Refusal := done (runMicro e (fun w => uTk w == 0x05) s)
def execTkRdEvent (e : Fin 16) (s : State) : Host.Outcome State Fault Refusal := done (runMicro e (fun w => uTk w == 0x06) s)
def execTkEvPlace (e : Fin 16) (s : State) : Host.Outcome State Fault Refusal := done (runMicro e (fun w => uTk w == 0x10) s)
def execTkEvCancel (e : Fin 16) (s : State) : Host.Outcome State Fault Refusal := done (runMicro e (fun w => uTk w == 0x11) s)
def execTkEvMove (e : Fin 16) (s : State) : Host.Outcome State Fault Refusal := done (runMicro e (fun w => uTk w == 0x12) s)
def execTkReseek (e : Fin 16) (s : State) : Host.Outcome State Fault Refusal := done (runMicro e (fun w => uTk w == 0x18) s)

end Sys2Proof.Machine
end

