-- ==== Sys2Proof/Machine/TeCmd.lean ====
section
/-! DEFINITION. TeCmd: the scheduler, the commands, the drain queue and the microcode store of the
timing engines (R77 to R109, R138 to R142). -/

namespace Sys2Proof.Machine

/-! Commands (Table 3.8). -/

def teAnswer (e : Fin 16) (st : CmdStatus) (s : State) : State :=
  refuse (bit s.te[e].ie 9) st (modTe e (fun x => { x with cmd := x.cmd.answer st }) s)
def teCommand (e : Fin 16) (ok : Bool) (f : State → State) (s : State) : State :=
  teAnswer e (if ok then .ok else .stateRefused) (if ok then f s else s)

def teStart (e : Fin 16) (s : State) : State :=
  teCommand e (s.te[e].state = .stopped ∨ s.te[e].state = .halted) (modTe e fun x => { x with state := .run }) (endDoze s)
/-- STOP abandons the running routine and empties the engine (Table 3.3); no abandonment cycle is counted as busy for
it: the model's choice (log 89). -/
def teStop (e : Fin 16) (s : State) : State :=
  teCommand e (s.te[e].state = .run ∨ s.te[e].state = .halted) (modTe e fun x => { x.empty with state := .stopped }) s
/-- A host HALT abandons the running routine as a preemption does, its context held with its entry (Table 3.6);
its abandonment cycle counts as busy (R95). In the cycle of the routine's own `HALT` it finds nothing to do and
is answered OK (R106). -/
def teHalt (e : Fin 16) (s : State) : State :=
  teCommand e (s.te[e].state = .run ∨ (s.te[e].state = .halted ∧ s.te[e].ownHalt = some s.tb.clk)) (modTe e fun x =>
    let y := { x.suspend false none with
      state := .halted, abandon := if x.runningEntry.isSome then inc8 x.abandon else x.abandon }
    if x.runningEntry.isSome ∧ ¬ x.hk ∧ ¬ inHousekeeping s then y.spend (max x.free s.tb.clk) else y) s
def teVerify (e : Fin 16) (s : State) : State :=
  teCommand e (s.te[e].state = .mchk ∧ s.te[e].vstart = none) (modTe e fun x =>
    { x with vstart := some s.tb.clk, vdone := false, vgood := false, vwrite := false }) s
/-- CLEAR releases the forced pins (R104). -/
def teClear (e : Fin 16) (s : State) : State :=
  teCommand e (s.te[e].state = .mchk ∧ s.te[e].vgood) (fun s => refreshPins (modTe e (fun x =>
    { x with state := .stopped, g := Vector.replicate 16 0, lc := 0, flags := 0 }) s)) s

/-- The scan of the store ends (R103). The store is judged as it stands then, and the highest failing word is
recorded: the model's choice (log 70). -/
def verifyDone (e : Fin 16) (s : State) : State :=
  match s.te[e].vstart with
  | none => s
  | some c => atClk (c + 2048) (modTe e fun x =>
      let bad := x.store.filter fun p => decide (badLanes (p.2.1, p.2.2) ≠ 0)
      let x := { x with vstart := none, vdone := true, vgood := bad.isEmpty && !x.vwrite }
      match bad.getLast? with
      | some p => { x with mcAddr := BitVec.ofNat 11 p.1, mcLanes := badLanes (p.2.1, p.2.2) }
      | none => x) s

/-! Requests and the choice of a routine. -/

/-- A host doorbell (Table 3.4), recorded with its post (Table 15.1). -/
def doorbell (e : Fin 16) (k : Fin 8) (v : Word) (s : State) : State :=
  post e (40 + k.val) v (recordIn 11 (8 * e.val + k.val) s.tb.now (v.setWidth 64) [] s)

/-- A request of any origin; numbers 56 to 62 are never posted (Table 3.4). -/
def requestPost (e : Fin 16) (num : Fin 64) (arg : Word) (s : State) : State :=
  if 56 ≤ num.val ∧ num.val ≤ 62 then s else post e num arg s

/-- A dispatch cycle: the first free one in which an eligible entry can be chosen (R88). -/
def teDispatch (e : Fin 16) (s : State) : State :=
  let x := s.te[e]
  if x.state = .run ∧ ¬ x.hk ∧ x.runningEntry.isNone then
    match ((x.ready.filter (·.eligible)).map (·.posted + 1)).min? with
    | some c => atClk (max x.free c) (fun s => if inHousekeeping s then s else modTe e (Engine.dispatch s.tb.clk) s) s
    | none => s
  else s

/-- The abandonment cycle of a preemption, which dispatches the preempting request (R90). -/
def tePreempt (e : Fin 16) (s : State) : State :=
  let x := s.te[e]
  if x.executes ∧ x.preempt.isSome then
    atClk (max x.free x.preemptAt) (fun s =>
      match s.te[e].preempting s.tb.clk with
      | some y => if inHousekeeping s then s
        else modTe e (fun x => { x.suspend true none with abandon := inc8 x.abandon }.load s.tb.clk y) s
      | none => s) s
  else s

/-- Cycle 64: housekeeping ends; the frame request is posted in it (R81, R91, R92). The watchdog finds a routine
that `RUNAWAY` abandons in this cycle (R95). A test that waited for this cycle abandons in the next one (R92, Table 3.7). -/
def housekeepingEnd (e : Fin 16) (s : State) : State :=
  if s.te[e].hk ∧ ¬ s.tb.frameDue then
    atClk (s.tb.clk + (64 - frameCycle s)) (fun s =>
      let f : Word := (frame s).setWidth 32
      let s := modTe e (fun x =>
        let x := { x with
          hk := false, tests := [], runaway := x.runningEntry.isSome && decide (x.wdog.toNat ≤ x.crossed)
          ready := x.ready.map fun q => match q.waitf with
            | some w => if 0 ≤ (f - w).toInt then { q with waitf := none } else q
            | none => q }
        s.te[e].tests.foldl (fun x q => x.testPreempt (s.tb.clk - 1) q) x) s
      if s.te[e].framereq then post e 63 f s else s) s
  else s

/-- The watchdog abandons the routine that it found in cycle 64 (R95). -/
def teRunaway (e : Fin 16) (s : State) : State :=
  if s.te[e].runaway && !inHousekeeping s then modTe e (Engine.fault s.tb.clk 4) s else s

/-- The fetched microword fails parity (R101). -/
def teMachineCheck (e : Fin 16) (s : State) : State := runMicro e (fun _ => false) s

/-! The drain queue (R97, R100, R124, R136). -/

/-- A channel operation as the host would make it (Table 4.7, R124). -/
def deliverChan (n : Fin 256) (op : Nat) (a b : Word) (s : State) : State :=
  let c := s.ch[n]
  match op with
  | 0x0F => modCh n Chan.cmdClear s
  | 0x10 => writeChCfg n a s
  | 0x11 => writeCnt n a s
  | 0x12 => writeTop n a s
  | 0x13 => writeCmp n a s
  | 0x14 => modCh n (fun c => { c with pre := a }) s
  | 0x15 => modCh n (fun c => { c with width := a }) s
  | 0x16 => writeFilt n a s
  | 0x17 => writeChIe n a s
  | 0x18 => writeTarget n (join b a) s
  | 0x19 => noteClears s (clearStatus n a s)
  | 0x1A => writeChCfg n (putFld c.cfg 17 15 (fld a 2 0)) s
  | 0x20 => chCommand n (chStartStatus n c) (chStart n) s
  | 0x21 => chCommand n (chStopStatus n c) (stopChannel n) s
  | 0x22 => chCommand n (chArmStatus c) (armCompare n) s
  | 0x23 => chCommand n (chDisarmStatus c) (modCh n Chan.disarm) s
  | 0x24 => chCommand n (chReloadStatus c) (chReload n) s
  | _ =>
    let s := writeTarget n (join b a) s
    if c.armed && !c.horizon && decide (c.mode ≠ 7) then chAnswer n .ok s
    else chCommand n (chArmStatus s.ch[n]) (armCompare n) s

/-- The loads that wait behind an `ADD` follow it to the port (R98). -/
def releaseLoads (e : Fin 16) (id : Nat) (s : State) : State :=
  let l := s.te[e].pend.filterMap fun v => match v.behind with
    | some (a, w) => if a = id then some (v.id, w) else none
    | none => none
  let s := modTe e (fun x => { x with pend := x.pend.map fun v =>
    match v.behind with | some (a, _) => if a = id then { v with behind := none } else v | none => v }) s
  l.foldl (fun s p => enqueue ⟨e, p.2, .read, .engine p.1⟩ s) s

/-- A Cistern entry goes to the port, or is dropped when its bank no longer admits the engine (R100, R468). -/
def deliverCistern (e : Fin 16) (word : Nat) (k : AccKind) (use : AccUse) (s : State) : State :=
  if admits s.cis.banks[bankOf word].own e true then enqueue ⟨e, word, k, use⟩ s
  else
    let s := modTe e (fun x => { x with stat := setBit x.stat 3 true }) (accessFault e word true s)
    sendBack ⟨e, word, k, use⟩ 0 true s

/-- A tracker operation (Table 4.10); its outcome goes to the tracker (R171). -/
def deliverTracker (e : Fin 16) (t : Fin 4) (op : Nat) (a b : Word) (aux : BitVec 24) (chan : Fin 256) (s : State) : State :=
  match op with
  | 0x10 => let (s, st) := placeEvent t e a b aux chan s; wtAnswer t (some e) st s
  | 0x11 => wtAnswer t (some e) .ok (cancelTag t (fld a 10 0) s)
  | 0x12 => wtAnswer t (some e) .ok (moveTag t (fld a 10 0) b s)
  | _ => wtReseek t (some e) s

def deliverEffect (e : Fin 16) (x : SideEffect) (s : State) : State :=
  match x with
  | .chan n op a b => deliverChan n op a b s
  | .st w v => deliverCistern e w (.write v false) .none s
  | .add w v id => releaseLoads e id (deliverCistern e w (.add v) (.engine id) s)
  | .swap w v id => deliverCistern e w (.swap v) (.engine id) s
  | .pop k removes =>
    if removes then (if s.well[k].reads (engineCode e) then wellDrop k s else modWell k Well.refuse s) else s
  | .push k v => wellPush k (engineCode e) v 0 s
  | .tracker t op a b aux chan => deliverTracker e t op a b aux chan s
  | .signal target sel arg => post target (48 + sel) arg s

/-- The drain queue delivers its first entry, one a cycle, in every engine state (R97). -/
def drainDelivery (e : Fin 16) (s : State) : State :=
  if s.te[e].dq.isEmpty then s
  else atClk s.te[e].dqAt (fun s =>
    match s.te[e].dq with
    | [] => s
    | x :: r => deliverEffect e x (modTe e (fun y => { y with dq := r, dqAt := s.tb.clk + 1 }) s)) s

/-- A value that has reached the engine's port arrives; any poisoned value of a routine sets `FLAGS.P` where it arrives,
also an old value and one whose data is discarded: the model's choice (R128, R130, R468; log 70). -/
def valueArrival (e : Fin 16) (s : State) : State :=
  match s.te[e].pend.find? (·.arrived.isSome) with
  | none => s
  | some v =>
    let (d, poison) := v.arrived.getD (0, false)
    let put (g : Vector Word 16) : Vector Word 16 := match v.dst with | some r => setPair g r d | none => g
    let flag (f : BitVec 16) : BitVec 16 := if poison then setBit f 4 true else f
    let ctx (c : Ctx) : Ctx := { c with g := put c.g, flags := flag c.flags }
    modTe e (fun x =>
      let x := { x with pend := x.pend.filter fun q => decide (q.id ≠ v.id) }
      match v.owner with
      | none => x
      | some o =>
        if x.runSeq = some o then
          { x with g := put x.g, flags := flag x.flags, snap := if v.kept then ctx x.snap else x.snap }
        else x.modEntry o fun q => { q with ctx := q.ctx.map ctx }) s

/-! The microcode store (R138 to R142). -/

/-- A word of the store; one with content 0 and parity 0 is not listed (R142). -/
def storePut (a : Nat) (w : Microword) (p : BitVec 8) : List (Nat × BitVec 128 × BitVec 8) → List (Nat × BitVec 128 × BitVec 8)
  | [] => if w = 0 ∧ p = 0 then [] else [(a, w, p)]
  | x :: r =>
    if a < x.1 then (if w = 0 ∧ p = 0 then x :: r else (a, w, p) :: x :: r)
    else if a = x.1 then (if w = 0 ∧ p = 0 then r else (a, w, p) :: r)
    else x :: storePut a w p r

def Engine.stage (p : Port) (x : Engine) : Vector Word 3 := match p with | .pcie _ => x.stagePcie | .spi => x.stageSpi

/-- A write to the window: discarded in RUN; otherwise VGOOD falls (R103, R139). -/
def windowWrite (e : Fin 16) (f : Engine → Engine) (s : State) : State :=
  modTe e (fun x => if x.state = .run then { x with wrej := inc8 x.wrej }
    else { f x with vgood := false, vwrite := true }) s
def stageDword (p : Port) (e : Fin 16) (j : Fin 3) (v : Word) (s : State) : State :=
  windowWrite e (fun x => match p with
    | .pcie _ => { x with stagePcie := x.stagePcie.set j v }
    | .spi => { x with stageSpi := x.stageSpi.set j v }) s
def storeWord (p : Port) (e : Fin 16) (a : Fin 2048) (v : Word) (s : State) : State :=
  windowWrite e (fun x =>
    let st := x.stage p
    let w : Microword := v ++ st[2] ++ st[1] ++ st[0]
    { x with store := storePut a w (parityBits w ^^^ x.inj) x.store, inj := 0 }) s

/-- A read of dword `j` of a word; that of dword 3 shows the stored parity (R140). -/
def windowRead (e : Fin 16) (a : Fin 2048) (j : Nat) (s : State) : State × Word :=
  let m := s.te[e].fetch (BitVec.ofNat 11 a)
  (if j = 3 then modTe e (fun x => { x with par := m.2 }) s else s, BitVec.ofNat 32 (fld m.1 (32 * j + 31) (32 * j)))

def execTeStart (p : Port) (e : Fin 16) (s : State) : Host.Outcome State Fault Refusal := done (host p (teStart e) s)
def execTeStop (p : Port) (e : Fin 16) (s : State) : Host.Outcome State Fault Refusal := done (host p (teStop e) s)
def execTeHalt (p : Port) (e : Fin 16) (s : State) : Host.Outcome State Fault Refusal := done (host p (teHalt e) s)
def execTeVerify (p : Port) (e : Fin 16) (s : State) : Host.Outcome State Fault Refusal := done (host p (teVerify e) s)
def execVerifyDone (e : Fin 16) (s : State) : Host.Outcome State Fault Refusal := done (verifyDone e s)
def execTeClear (p : Port) (e : Fin 16) (s : State) : Host.Outcome State Fault Refusal := done (host p (teClear e) s)
def execTeDoorbellWrite (p : Port) (e : Fin 16) (k : Fin 8) (v : BitVec 32) (s : State) : Host.Outcome State Fault Refusal :=
  done (host p (doorbell e k v) s)
def execRequestPost (e : Fin 16) (num : Fin 64) (arg : BitVec 32) (s : State) : Host.Outcome State Fault Refusal :=
  done (requestPost e num arg s)
def execDispatch (e : Fin 16) (s : State) : Host.Outcome State Fault Refusal := done (teDispatch e s)
def execPreemption (e : Fin 16) (s : State) : Host.Outcome State Fault Refusal := done (tePreempt e s)
def execHousekeepingEnd (e : Fin 16) (s : State) : Host.Outcome State Fault Refusal := done (housekeepingEnd e s)
def execRunaway (e : Fin 16) (s : State) : Host.Outcome State Fault Refusal := done (teRunaway e s)
def execMachineCheck (e : Fin 16) (s : State) : Host.Outcome State Fault Refusal := done (teMachineCheck e s)
def execDrainQueueDelivery (e : Fin 16) (s : State) : Host.Outcome State Fault Refusal := done (clocked (drainDelivery e) s)
def execPendingValueArrival (e : Fin 16) (s : State) : Host.Outcome State Fault Refusal := done (clocked (valueArrival e) s)
def execMicrocodeDwordStage (p : Port) (e : Fin 16) (w : Fin 2048) (j : Fin 3) (v : BitVec 32) (s : State) :
    Host.Outcome State Fault Refusal := done (host p (let _ := w; stageDword p e j v) s)
def execMicrocodeWordStore (p : Port) (e : Fin 16) (w : Fin 2048) (v : BitVec 32) (s : State) : Host.Outcome State Fault Refusal :=
  done (host p (storeWord p e w v) s)
def execMicrocodeParityRead (p : Port) (e : Fin 16) (w : Fin 2048) (s : State) : Host.Outcome State Fault Refusal :=
  done (hostRead p (windowRead e w 3) s)

end Sys2Proof.Machine
end

