-- ==== Sys2Proof/Machine/CisCmd.lean ====
section
/-! DEFINITION. CisCmd: shadows of latched pairs (R71 to R73), the ways of the Cistern and its host
window, handovers, the scrubber, initialisation, the wells' commands and registers (R281 to R305, R399). -/

namespace Sys2Proof.Machine

/-! Shadows. -/

/-- The shadow of requester `rid`, if it holds one of its eight places, and the others. -/
def Shadow.others (rid : BitVec 16) (l : List Shadow) : List Shadow := l.filter fun x => decide (x.rid ≠ rid)

/-- The high half of a pair is copied for `rid`, the ninth requester evicts the least recently used (R71, R72). A shadow
emptied by its high read keeps its place among the eight: the model's choice (log 67). -/
def latch (rid : BitVec 16) (pair : Pair) (v : Word) (s : State) : State :=
  { s with shadows := (⟨rid, pair, v, true⟩ :: Shadow.others rid s.shadows).take 8 }

/-- Only PCI Express reads latch (R73). -/
def latchFor (p : Port) (pair : Pair) (v : Word) (s : State) : State :=
  match p with | .pcie rid => latch rid pair v s | .spi => s

/-- The high register is read: the shadow of that pair is returned and emptied, else the live value (R71). -/
def readHigh (p : Port) (pair : Pair) (live : Word) (s : State) : State × Word :=
  match p with
  | .spi => (s, live)
  | .pcie rid =>
    match s.shadows.find? fun x => decide (x.rid = rid) with
    | some x =>
      if x.full ∧ x.pair = pair then
        ({ s with shadows := { x with full := false } :: Shadow.others rid s.shadows }, x.value)
      else (s, live)
    | none => (s, live)

/-- The low channel of pair `k`, and the high one. -/
def loChan (k : Fin 128) : Fin 256 := ⟨2 * k.val, by omega⟩
def hiChan (k : Fin 128) : Fin 256 := ⟨2 * k.val + 1, by omega⟩

/-- The 64-bit value of a latched pair; that of a well is its oldest item, or the idle item (R300, R304). -/
def pairValue (pair : Pair) (s : State) : BitVec 64 :=
  match pair with
  | .tbNow => s.tb.now
  | .tbFrame => (frame s).setWidth 64
  | .chCapt n => s.ch[n].capt
  | .chTgt n => s.ch[n].tgt
  | .chCnt k => join s.ch[hiChan k].cnt s.ch[loChan k].cnt
  | .chCap k => join s.ch[hiChan k].cap s.ch[loChan k].cap
  | .wtTooth t => s.wt[t].toothAt
  | .wellPop k =>
    if s.well[k].reads 1 then (match s.well[k].seen s.tb.clk with | i :: _ => i.data | [] => s.well[k].idle) else 0

/-- The counters of a pair latch only as a cascade (Table 2.6). -/
def pairLatches (pair : Pair) (s : State) : Bool :=
  match pair with
  | .chCnt k | .chCap k => decide (s.ch[hiChan k].mode = 6)
  | _ => true

/-- A host removal from well `k`: the oldest item leaves, its tag goes to LASTTAG (R298, R300, R304). -/
def wellPop (k : Fin 64) (s : State) : State :=
  let x := s.well[k]
  if !x.reads 1 then modWell k Well.refuse s
  else match x.seen s.tb.clk with
    | [] => modWell k (fun x => { x with lastTag := 2 }) s
    | i :: _ => modWell k (fun x => { x with lastTag := i.readTag }) (wellDrop k (wellReport k i s))

/-- A read of the low register of a pair. -/
def readLow (p : Port) (pair : Pair) (s : State) : State × Word :=
  let s := match pair with | .wellPop k => wellTurn k s | _ => s
  let v := pairValue pair s
  let s := if pairLatches pair s then latchFor p pair (hi32 v) s else s
  (match pair with | .wellPop k => wellPop k s | _ => s, lo32 v)

/-- A read of the high register; one of a cascade that is none holds no shadow. -/
def readHighOf (p : Port) (pair : Pair) (s : State) : State × Word :=
  if pairLatches pair s then readHigh p pair (hi32 (pairValue pair s)) s else (s, hi32 (pairValue pair s))

/-! Ways. -/

/-- The head access of `port` is refused where its bank's owner does not admit it, in the first cycle in which the port
presents it (R286, R287). -/
def refuseHead (port : Nat) (s : State) : State :=
  match headOf s port with
  | some a =>
    atClk (turnOf s a) (fun s => if initialising s a.word || admitted s a then s else refuseAccess a s) s
  | none => s

/-- Data reaches the port it was read for (R283, R399). -/
def deliverReturn (r : Return) (s : State) : State :=
  match r.use with
  | .engine id =>
    if h : r.port < 16 then
      modTe ⟨r.port, h⟩ (fun x => { x with pend := x.pend.map fun v =>
        if v.id = id then { v with arrived := some (r.data, r.poison) } else v }) s
    else s
  | .pcie rid lo hi =>
    let bytes := ((List.range 8).filter fun i => decide (lo ≤ i ∧ i < hi)).map fun i =>
      ((r.data >>> (8 * i)).setWidth 8, r.poison)
    emit (.memData (.pcie rid) bytes) s
  | .pump =>
    if h : 16 ≤ r.port ∧ r.port < 24 then
      modPump ⟨r.port - 16, by omega⟩ (fun x => if x.asked then { x with asked := false, got := some (r.data, r.poison) } else x) s
    else s
  | .none | .spi | .job _ => s

/-- The next data under way to `port` reaches it, four cycles after its grant (R283). -/
def readReturn (port : Nat) (s : State) : State :=
  match s.cis.returns.find? fun r => decide (r.port = port) with
  | some r => atClk r.due (fun s =>
    deliverReturn r (modCis (fun c => { c with returns := c.returns.eraseP fun r => decide (r.port = port) }) s)) s
  | none => s

/-! The host window BAR2 (R281, R399). -/

/-- A read of `len` bytes at `addr`: one access for each word. -/
def bar2Read (rid : BitVec 16) (addr len : Nat) (s : State) : State :=
  let words := List.range' (addr / 8) ((addr + len + 7) / 8 - addr / 8)
  if len = 0 then s
  else words.foldl (fun s w =>
    enqueue ⟨25, w % 2 ^ 21, .read, .pcie rid (max addr (8 * w) - 8 * w) (min (addr + len) (8 * w + 8) - 8 * w)⟩ s) s

/-- The bytes of word `w` in a write that begins at `addr`, and which of them it enables. -/
def writeOf (addr : Nat) (bytes : List (Option Byte)) (w : Nat) : BitVec 64 × BitVec 8 :=
  (List.range 8).foldl (fun a i =>
    match (if 8 * w + i < addr then none else bytes[8 * w + i - addr]?.join) with
    | some b => (a.1 ||| (b.setWidth 64 <<< (8 * i)), setBit a.2 i true)
    | none => a) (0, 0)

/-- A write whose word has a byte disabled is a partial one (R283, R399). -/
def bar2Write (addr : Nat) (bytes : List (Option Byte)) (s : State) : State :=
  (List.range' (addr / 8) ((addr + bytes.length + 7) / 8 - addr / 8)).foldl (fun s w =>
    let (v, be) := writeOf addr bytes w
    enqueue ⟨25, w % 2 ^ 21, if be = 0xFF then .write v false else .part v be false, .none⟩ s) s

/-! Ownership, scrubber, initialisation. -/

/-- The bank that the recorder writes (R432). -/
def Recorder.bank (r : Recorder) : Fin 8 := Fin.ofNat 8 (fld r.cfg 31 29)

/-- The outcome of a handover (R288, R432). -/
def handoverStatus (b : Fin 8) (v : Word) (s : State) : CmdStatus :=
  if fld v 31 30 = 2 ∧ fld v 15 0 = 0 then .argInvalid
  else if bit s.cis.init b ∨ (s.rcd.bank = b ∧ (s.rcd.state = .record ∨ s.rcd.state = .drain)) then .stateRefused
  else .ok

/-- A write names what is in force already (R288). -/
def sameOwner (own v : Word) : Bool :=
  decide (fld own 31 30 = fld v 31 30) && (decide (fld v 31 30 ≠ 2) || decide (fld own 15 0 = fld v 15 0))

/-- The new owner is in force from the next cycle (R288). -/
def handover (b : Fin 8) (v : Word) (s : State) : State :=
  let st := handoverStatus b v s
  let s := if st = .ok ∧ ¬ sameOwner s.cis.banks[b].own v then deferLast (.owner b (v &&& 0xC000_FFFF)) s else s
  refuse s.cis.refie st (modCis (fun c => { c with cmd := c.cmd.answer st }) s)

/-- The scrubber reads word `w` and rewrites it where it had to be corrected (R293). -/
def scrubWord (w : Nat) (s : State) : State :=
  let found := s.cis.decode w
  let s := (readWordAt 26 w s).1
  let s := if found.2.1 = 1 then modCis (Cistern.store w found.1 false) s else s
  let s := modBank (bankOf w) (fun k => { k with
    ways := k.ways.set (wayOf w) { k.ways[wayOf w] with free := s.tb.clk + 2 } }) s
  let next := (w + 1) % 2 ^ 21
  modCis (fun k => { k with scrubWord := next, passes := if next = 0 then k.passes + 1 else k.passes,
                            scrubAt := some (s.tb.clk + k.intv.toNat) }) s

/-- A visit of the scrubber to its next word, once no other access waits at the word's way (R284, R293). -/
def scrubVisit (s : State) : State :=
  match s.cis.scrubAt with
  | some c =>
    if !s.cis.scrubEn || decide (s.cis.init ≠ 0) then s
    else
      let w := s.cis.scrubWord
      atClk c (fun s =>
        let s := wayClear (bankOf w) (wayOf w) s.cis.waiting.length s
        atClk s.cis.banks[bankOf w].ways[wayOf w].free (scrubWord w) s) s
  | none => s

/-- A write of CIS_SCRUB (R293, Table 10.8). -/
def writeScrub (v : Word) (s : State) : State :=
  modCis (fun c =>
    let iv := max 64 (fld v 15 0)
    { c with scrubEn := bit v 31, intv := BitVec.ofNat 16 iv
             scrubAt := if !c.scrubEn ∧ bit v 31 ∧ c.scrubAt.isSome then some (s.tb.clk + iv) else c.scrubAt }) s

/-- A port's enable bit (Table 13.8). -/
def portEnabled (s : State) (k : Fin 4) : Bool := bit s.link.cfg (if k.val = 0 then 31 else 27 + k.val)

/-- Start-up ends: every word is 0, READY is 1, the link ports leave OFF (R294, R367, R410). -/
def initDone (s : State) : State :=
  if s.cis.init = 0 ∨ !s.tb.running then s
  else
    atClk 65536 (fun s =>
    let s := modCis (fun c => { c with mem := [], flipped := [], poison := [], init := 0, scrubWord := 0,
                                       scrubAt := some (s.tb.clk + c.intv.toNat) }) s
    let s := modSys (fun x => { x with ready := true }) s
    forAll 4 (fun k s => if portEnabled s k ∧ s.link.ports[k].state = .off then portTo k (fun x => { x with state := .down }) s else s) s) s

/-! Wells (R296 to R305). -/

/-- The codes of Table 10.4. -/
def endpointOk (c : Nat) (writer : Bool) : Bool :=
  decide (c ≤ 1) || (writer && decide (c = 2)) || decide (0x10 ≤ c ∧ c ≤ 0x27) || decide (0x28 ≤ c ∧ c ≤ 0x2B)

/-- The items of two wells overlap. -/
def Well.overlaps (x y : Well) : Bool := decide (x.base < y.base + y.depth ∧ y.base < x.base + x.depth)

def wellEnableStatus (k : Fin 64) (s : State) : CmdStatus :=
  let x := s.well[k]
  if x.en then .stateRefused
  else if 6 < fld x.cfg 14 12 ∨ 32768 < x.base + x.depth ∨ s.well.toList.any (fun y => y.en && x.overlaps y) ∨
      !endpointOk x.writer true ∨ !endpointOk x.reader false then .argInvalid
  else .ok
def wellOnStatus (k : Fin 64) (s : State) : CmdStatus := if s.well[k].en then .ok else .stateRefused

/-- `FLUSH`, and the emptying half of `DISABLE`: what this cycle has written stays, for they act before it (R299, R305). -/
def Well.empty (clk : Nat) (x : Well) : Well :=
  { x with items := x.items.drop (x.items.length - x.freshIn clk), gcnt := 0, movedAt := clk, fresh := x.freshIn clk, freed := 0 }
/-- `DISABLE`. -/
def Well.disable (clk : Nat) (x : Well) : Well := { x.empty clk with en := false, items := [], fresh := 0 }

def wellAnswer (k : Fin 64) (st : CmdStatus) (s : State) : State :=
  refuse (bit s.well[k].ie 16) st (modWell k (fun x => { x with cmd := x.cmd.answer st }) s)
def wellCommand (k : Fin 64) (st : CmdStatus) (f : Well → Well) (s : State) : State :=
  wellAnswer k st (if st = .ok then modWell k f s else s)

/-- The host's item: the staged low half of its port and this high half, tag DATA (R304). -/
def hostPush (p : Port) (k : Fin 64) (v : Word) (s : State) : State :=
  wellPush k 1 (join v (match p with | .pcie _ => s.well[k].stagePcie | .spi => s.well[k].stageSpi)) 0 s

def execWayGrant (b : Fin 8) (w : Fin 4) (s : State) : Host.Outcome State Fault Refusal := done (wayGrant b w s)
def execAccessRefused (port : Fin 27) (s : State) : Host.Outcome State Fault Refusal := done (refuseHead port s)
def execReadDataReturn (port : Fin 27) (s : State) : Host.Outcome State Fault Refusal := done (readReturn port s)
def execBankHandover (p : Port) (b : Fin 8) (v : BitVec 32) (s : State) : Host.Outcome State Fault Refusal :=
  done (host p (handover b v) s)
def execScrubVisit (s : State) : Host.Outcome State Fault Refusal := done (scrubVisit s)
def execCisternInitDone (s : State) : Host.Outcome State Fault Refusal := done (initDone s)
def execBar2Read (rid : BitVec 16) (addr : Nat) (len : Nat) (s : State) : Host.Outcome State Fault Refusal :=
  done (host (.pcie rid) (bar2Read rid addr len) s)
def execBar2Write (addr : Nat) (bytes : List (Option (BitVec 8))) (s : State) : Host.Outcome State Fault Refusal :=
  done (host (.pcie 0) (bar2Write addr bytes) s)

def execWellEnable (p : Port) (k : Fin 64) (s : State) : Host.Outcome State Fault Refusal :=
  done (host p (fun s => wellCommand k (wellEnableStatus k s) (fun x => { x with en := true }) s) s)
def execWellDisable (p : Port) (k : Fin 64) (s : State) : Host.Outcome State Fault Refusal :=
  done (host p (fun s => wellCommand k (wellOnStatus k s) (Well.disable s.tb.clk) s) s)
def execWellFlush (p : Port) (k : Fin 64) (s : State) : Host.Outcome State Fault Refusal :=
  done (host p (fun s => wellCommand k (wellOnStatus k s) (Well.empty s.tb.clk) s) s)
def execWellPushLoWrite (p : Port) (k : Fin 64) (v : BitVec 32) (s : State) : Host.Outcome State Fault Refusal :=
  done (host p (modWell k fun x => match p with
    | .pcie _ => { x with stagePcie := v }
    | .spi => { x with stageSpi := v }) s)
def execWellPushHiWrite (p : Port) (k : Fin 64) (v : BitVec 32) (s : State) : Host.Outcome State Fault Refusal :=
  done (host p (hostPush p k v) s)
def execWellPopLoRead (p : Port) (k : Fin 64) (s : State) : Host.Outcome State Fault Refusal :=
  done (hostRead p (readLow p (.wellPop k)) s)
def execLowReadLatch (rid : BitVec 16) (pair : Pair) (s : State) : Host.Outcome State Fault Refusal :=
  done (hostRead (.pcie rid) (readLow (.pcie rid) pair) s)
def execHighReadShadow (rid : BitVec 16) (pair : Pair) (s : State) : Host.Outcome State Fault Refusal :=
  done (hostRead (.pcie rid) (readHighOf (.pcie rid) pair) s)

end Sys2Proof.Machine
end

