-- ==== Sys2Proof/Machine/Se.lean ====
section
/-! DEFINITION. Se: the shift engines: commands, clock, shifts, queues, instructions, barriers, groups
and registers (R196 to R229). -/

namespace Sys2Proof.Machine

/-! Queues. -/

/-- Depths of the queues (R209). -/
def Shift.join (x : Shift) : Nat := fld x.cfg 18 17
def Shift.txDepth (x : Shift) : Nat := match x.join with | 0 => 4 | 1 => 8 | _ => 0
def Shift.rxDepth (x : Shift) : Nat := match x.join with | 0 => 4 | 2 => 8 | _ => 0
/-- Words that entered the TX queue, and words that left it, in cycle `clk` so far (R210). -/
def Shift.txFreshIn (clk : Nat) (x : Shift) : Nat := if x.txAt = clk then x.txFresh else 0
def Shift.txFreedIn (clk : Nat) (x : Shift) : Nat := if x.txAt = clk then x.txFreed else 0
/-- What the engine sees of the TX queue: a word that entered in this cycle is seen from the next one; nothing in a queue of
depth 0 (R209, R210). -/
def Shift.txSeen (clk : Nat) (x : Shift) : List Word := (x.tx.take (x.tx.length - x.txFreshIn clk)).take x.txDepth
/-- What a reader of the RX queue sees. -/
def Shift.rxSeen (x : Shift) : List Word := x.rx.take x.rxDepth
/-- Room; an entry that the engine freed in this cycle accepts a word from the next one (R210). -/
def Shift.txRoom (clk : Nat) (x : Shift) : Bool := decide (x.tx.length + x.txFreedIn clk < x.txDepth)
def Shift.rxRoom (x : Shift) : Bool := decide (x.rx.length < x.rxDepth)

/-- A word enters the TX queue. -/
def Shift.putTx (clk : Nat) (w : Word) (x : Shift) : Shift :=
  { x with tx := x.tx ++ [w], txAt := clk, txFresh := x.txFreshIn clk + 1, txFreed := x.txFreedIn clk }

/-- The word of the TX queue that a fill takes goes into SR (R211). -/
def Shift.fill (clk : Nat) (x : Shift) : Shift :=
  match x.txSeen clk with
  | w :: _ => { x with sr := w, olv := 32, tx := x.tx.drop 1, txAt := clk, txFresh := x.txFreshIn clk, txFreed := x.txFreedIn clk + 1 }
  | [] => { x with olv := 32, stat := setBit x.stat 0 true, under := inc8 x.under }

/-- A drain: the word enters the RX queue or is discarded (R212). -/
def Shift.drain (w : Word) (x : Shift) : Shift :=
  if x.rxRoom then { x with rx := x.rx ++ [w], ilv := 0 }
  else { x with ilv := 0, stat := setBit x.stat 1 true, overn := inc8 x.overn }

/-- A host write of `SE_TXQ`, a host read of `SE_RXQ` (R213). -/
def txWrite (e : Fin 32) (v : Word) (s : State) : State :=
  modSe e (fun x => if x.txRoom s.tb.clk then x.putTx s.tb.clk v
    else { x with stat := setBit x.stat 4 true, htxdrop := inc8 x.htxdrop }) s
def rxRead (e : Fin 32) (s : State) : State × Word :=
  match s.se[e].rxSeen with
  | w :: _ => (modSe e (fun x => { x with rx := x.rx.drop 1 }) s, w)
  | [] => (modSe e (fun x => { x with stat := setBit x.stat 5 true }) s, 0)

/-! Inputs and outputs. -/

/-- What the matrix delivers for input `k` of the engine, `lv` being what its source shows: a ball that the device drives
shows what it drove three cycles ago; 0 without a source, from a wheel input that is OFF, and in REPLAY (R143, R231, R236,
R440). -/
def seInput (e : Fin 32) (k : Fin 12) (lv : Bool) (s : State) : Bool :=
  let code := s.pins.sein[e][k].toNat
  if !live s || decide (code = 511) then false
  else if h : code < 288 then (s.pin[code].ballAt (s.tb.now - 192)).getD lv
  else lv && decide (s.win[(code - 288) % 8].mode ≠ 3)
/-- Levels of the input lanes, and of the side pins: the matrix names the ball of each, driven or not (R231). -/
def laneIn (e : Fin 32) (li : BitVec 8) (s : State) : BitVec 8 :=
  (List.finRange 8).foldl (fun a (j : Fin 8) => setBit a j.val (seInput e ⟨j.val, by omega⟩ (bit li j.val) s)) 0
def sideLevels (e : Fin 32) (si : BitVec 4) (s : State) : BitVec 4 :=
  (List.finRange 4).foldl (fun a (i : Fin 4) =>
    setBit a i.val (seInput e ⟨8 + i.val, by omega⟩ (bit si i.val) s)) 0

/-- The side pins that are outputs take values (R219). -/
def Shift.putSide (v : BitVec 4) (x : Shift) : Shift :=
  { x with side := (List.range 4).foldl (fun a i => if bit x.cfg (7 + i) then setBit a i (bit v i) else a) x.side }
/-- Lanes below W take the levels that `f` gives. -/
def Shift.putLanes (f : Nat → Option Bool) (x : Shift) : Shift :=
  { x with lo := (List.range 8).foldl (fun a j => if j < x.w then (match f j with | some b => setBit a j b | none => a) else a) x.lo }
/-- The slice of SR that the next shift puts on the lanes (R207). -/
def Shift.slice (x : Shift) (j : Nat) : Option Bool := some (bit x.sr (32 - x.w + j))

/-- The bidirectional lanes of the engine drive, or are inputs (R232). -/
def setDir (e : Fin 32) (drive : Bool) (s : State) : State :=
  forAll 288 (fun p s => if s.pin[p].kind = 3 ∧ s.pin[p].idx = e.val then refreshPin p s else s)
    (modSe e (fun x => { x with drives := drive }) s)

/-- SCK returns to idle `k` cycles after this one, if it is not idle by then: what waits of its pulse is brought forward (R200,
R206). -/
def cutSck (k : Nat) (e : Fin 32) (s : State) : State :=
  if s.se[e].sck ∧ s.tb.clk + k < s.se[e].sckFall then
    let t := s.tb.now + BitVec.ofNat 64 (64 * k + 256)
    let s := modSe e (fun x => { x with sckFall := s.tb.clk + k }) s
    forAll 288 (fun p s =>
      if s.pin[p].kind = 5 ∧ s.pin[p].idx = e.val then modPin p (Pin.bringForward t) s else s) s
  else s

/-! The shift clock (R204 to R206). -/

/-- The phase in cycle `clk`. -/
def Shift.phase (clk : Nat) (x : Shift) : Nat :=
  if x.ckrun ∧ x.st = .run then (x.ph + 256 * (clk - x.phAt)) % x.divNow else x.ph
/-- The phase is noted in this cycle. -/
def Shift.hold (clk : Nat) (x : Shift) : Shift := { x with ph := x.phase clk, phAt := clk }
/-- The cycle of the next tick. -/
def Shift.nextTick (x : Shift) : Nat := x.phAt + max 1 ((x.divNow - x.ph + 255) / 256)

/-- A lane output or SCK of the engine goes to a single-ended line pin (R205). -/
def singleEnded (e : Fin 32) (s : State) : Bool :=
  (List.finRange 256).any fun (p : Fin 256) =>
    let x := s.pin[p.val]'(by omega)
    decide (x.idx = e.val) && (decide (x.kind = 5) || (decide (x.kind = 3) && decide (x.sub < s.se[e].w)))

/-- The clock restarts in this cycle (R204, R205). -/
def restartClock (e : Fin 32) (s : State) : State :=
  let lim := singleEnded e s
  modSe e (fun x => { x with
    ph := 0, phAt := s.tb.clk, ckrun := true
    divNow := if lim then max x.clkdiv.toNat 0x400 else x.clkdiv.toNat
    divlim := lim && decide (x.clkdiv.toNat < 0x400) }) (cutSck 0 e s)

/-- The next tick comes (R204), and `f` with it. -/
def atTick (e : Fin 32) (f : State → State) (s : State) : State :=
  atClk s.se[e].nextTick (fun s => f (modSe e (fun x =>
    let n := x.nextTick - x.phAt
    { x with ph := x.ph + 256 * n - x.divNow, phAt := x.phAt + n }) s)) s
/-- A tick pulses SCK: with a shift, or where `SE_CFG` asks for it at every tick (R206). -/
def pulseSck (e : Fin 32) (shift : Bool) (s : State) : State :=
  let h := s.se[e].divNow / 512
  if (shift ∨ ¬ bit s.se[e].cfg 12) ∧ h ≠ 0 then
    let lv := !bit s.se[e].cfg 11
    let s := modSe e (fun x => { x with sck := true, sckFall := s.tb.clk + h }) s
    sckPins e (s.tb.now + BitVec.ofNat 64 (64 * h + 256)) (!lv) (sckPins e (s.tb.now + 256) lv s)
  else s

/-- The engine runs with its clock running. -/
def Shift.ticks (x : Shift) : Bool := decide (x.st = .run) && x.ckrun

/-! Completion of an instruction. -/

/-- The address that follows the present one (R216, R217). -/
def Shift.pass (x : Shift) : Shift :=
  if x.pc = x.wrapHi then
    match x.heldWrap with
    | some (lo, hi) => { x with pc := lo, wrapLo := lo, wrapHi := hi, heldWrap := none }
    | none => { x with pc := x.wrapLo }
  else { x with pc := x.pc + 1 }

/-- The present instruction completes in cycle `clk`; D idle ticks follow (R215). -/
def Shift.complete (clk : Nat) (target : Option (BitVec 5)) (d : Nat) (x : Shift) : Shift :=
  let x := match target with | some t => { x with pc := t } | none => x.pass
  { x with rem := 0, idle := d, nextAt := clk + 1, wait := if d = 0 then .none else .idle }

def Shift.instr (x : Shift) : BitVec 16 := x.prog[x.pc.toNat % 32]'(by omega)
def Shift.op (x : Shift) : Nat := fld x.instr 15 12
def Shift.a (x : Shift) : Nat := fld x.instr 11 8
def Shift.b (x : Shift) : Nat := fld x.instr 7 4
def Shift.d (x : Shift) : Nat := fld x.instr 3 0

/-! Shifting (R207, R208). -/

/-- The steps of a shift. -/
def Shift.shiftOnce (out inp : Bool) (li : BitVec 8) (x : Shift) : Shift :=
  let w := x.w
  let y := if out then x.putLanes x.slice else x
  let low : Word := if inp then (li.setWidth 32) &&& BitVec.ofNat 32 (2 ^ w - 1) else 0
  { y with
    sr := (x.sr <<< w) ||| low, scnt := x.scnt + 1
    olv := if out then x.olv - w else x.olv
    ilv := if inp then min 32 (x.ilv + w) else x.ilv }

/-- The autodrain that follows a shift. -/
def Shift.autodrain (inp : Bool) (x : Shift) : Shift :=
  if inp ∧ bit x.cfg 14 ∧ x.ilv = 32 then
    if bit x.cfg 13 ∨ x.rxRoom then x.drain x.sr else { x with drainOwed := some x.sr }
  else x

/-- A stalled autodrain writes its word where there is room. -/
def Shift.payDrain (x : Shift) : Shift :=
  match x.drainOwed with
  | some w => if x.rxRoom then { x.drain w with drainOwed := none } else x
  | none => x

/-- The tick of a shift instruction passes without a shift: a stalled drain, or a blocking autofill
on an empty queue. -/
def Shift.stalled (clk : Nat) (out : Bool) (x : Shift) : Bool :=
  x.drainOwed.isSome || (out && bit x.cfg 16 && !bit x.cfg 15 && decide (x.olv < x.w) && (x.txSeen clk).isEmpty)

/-- The next tick of a shift instruction. -/
def shiftTick (e : Fin 32) (li : BitVec 8) (s : State) : State :=
  match s.se[e].wait with
  | .shift out inp =>
    if s.se[e].ticks then
      atTick e (fun s =>
        let clk := s.tb.clk
        let s := modSe e Shift.payDrain s
        if s.se[e].stalled clk out then pulseSck e false s
        else
          let li := laneIn e li s
          let s := modSe e (fun x =>
            let x := if out ∧ bit x.cfg 16 ∧ x.olv < x.w then x.fill clk else x
            let x := (x.shiftOnce out inp li).autodrain inp
            let x := { x with rem := x.rem - 1 }
            if x.rem = 0 then x.complete clk none x.idle else x) s
          pulseSck e true (shiftPins e s)) s
    else s
  | _ => s

/-- The next tick falls in the cycle in which the instruction completed, or before it: no idle tick (R215). -/
def Shift.tickEarly (x : Shift) : Bool := decide (x.nextTick < x.nextAt)

/-- A tick without a shift that counts for nothing (R206). -/
def passTick (e : Fin 32) (s : State) : State := atTick e (pulseSck e false) s

/-- An idle tick, which falls after the cycle of completion; after the last one the next instruction issues (R215). -/
def idleTick (e : Fin 32) (s : State) : State :=
  if s.se[e].ticks ∧ s.se[e].wait = .idle then
    let s := if s.se[e].tickEarly then passTick e s else s
    atTick e (fun s => pulseSck e false (modSe e (fun x =>
      { x with idle := x.idle - 1, nextAt := s.tb.clk + 1, wait := if x.idle ≤ 1 then .none else .idle }) s)) s
  else s

/-- Any other tick (R206). -/
def otherTick (e : Fin 32) (s : State) : State :=
  let quiet := match s.se[e].wait with | .shift _ _ => false | .idle => s.se[e].tickEarly | _ => true
  if s.se[e].ticks && quiet then passTick e s else s

/-! Instructions (R214 to R224). -/

/-- No code of the instruction is reserved (R218). -/
def legal (op a b : Nat) : Bool :=
  match op with
  | 0 => decide (a = 0 ∧ b = 0)
  | 1 | 2 | 3 => decide (b = 0)
  | 4 => decide (a ≤ 4)
  | 5 => decide (a ≤ 3 ∧ b = 0)
  | 6 =>
    (match a with
     | 0 => true
     | 1 => decide (b / 4 % 2 = 0)
     | 2 => decide (b ≤ 1)
     | 3 | 4 | 6 => decide (b = 0)
     | 5 => decide (b ≤ 8)
     | _ => false)
  | 7 | 8 | 9 => decide (a ≤ 1 ∧ b = 0)
  | 10 => true
  | 11 => decide (a ≤ 7 ∧ b ≤ 3)
  | 12 => decide (a ≤ 3 ∧ b ≤ 6)
  | _ => false

/-- The compare of SCNT, of SR (R222). -/
def Shift.matches (sr : Bool) (x : Shift) : Bool :=
  if sr then decide (x.sr &&& x.cmpm = x.cmpv &&& x.cmpm) else decide (x.scnt = x.cmpv.setWidth 16)

/-- The source of a MOV (Table 7.8). -/
def Shift.movSource (b : Nat) (li : BitVec 8) (si : BitVec 4) (x : Shift) : Word :=
  match b with
  | 0 => 0
  | 1 => 0xFFFF_FFFF
  | 2 => x.sr
  | 3 => x.scnt.setWidth 32
  | 4 => x.cmpv
  | 5 => x.sr.reverse
  | _ => (si.setWidth 32 <<< 8) ||| li.setWidth 32

/-- The condition of an AWAIT that the state and the inputs decide (Table 7.6). -/
def awaitHolds (clk a b : Nat) (li : BitVec 8) (si : BitVec 4) (x : Shift) : Bool :=
  match a with
  | 0 => bit li (b % 8) == decide (8 ≤ b)
  | 1 => bit si (b % 4) == decide (8 ≤ b)
  | 2 => x.matches (b = 1)
  | 4 => x.trg
  | 5 => decide (b ≤ (x.txSeen clk).length)
  | _ => false

/-- The AWAIT completes (R221, R222); a setting of TRG in this cycle outlives its clear (R225). -/
def Shift.awaited (clk : Nat) (x : Shift) : Shift :=
  { x.complete clk none x.d with
    f := x.f || decide (x.a = 2), trg := x.trg && (decide (x.a ≠ 4) || decide (x.trgAt = some clk)) }

/-- BRC's conditions (Table 7.7). -/
def Shift.branches (clk : Nat) (li : BitVec 8) (x : Shift) : Bool :=
  match x.a / 2 with
  | 0 => true
  | 1 => x.f
  | 2 => !x.f
  | 3 => (x.txSeen clk).isEmpty
  | 4 => !x.rxRoom
  | 5 => bit li 0
  | 6 => !bit li 0
  | _ => x.trg

/-- The engine belongs to a sync group (R226). -/
def Shift.grouped (x : Shift) : Bool := bit x.cfg 31
def Shift.group (x : Shift) : Nat := fld x.cfg 30 28

/-- A barrier instruction issues. -/
def issueBarrier (e : Fin 32) (restart : Bool) (s : State) : State :=
  if s.se[e].grouped then modSe e (fun x => { x with wait := .barrier restart }) s
  else modSe e (fun x => x.complete s.tb.clk none x.d) (if restart then restartClock e s else s)

/-- A shift instruction issues (R215, R232). -/
def issueShift (e : Fin 32) (out inp : Bool) (s : State) : State :=
  modSe e (fun x => { x with rem := x.a + 1, idle := x.d, wait := .shift out inp }) s

/-- PUT (Table 7.5). -/
def putPins (e : Fin 32) (s : State) : State :=
  let x := s.se[e]
  let lanes := decide (x.a = 1 ∨ x.a = 2 ∨ x.a = 4)
  let s := if lanes then setDir e true s else s
  shiftPins e (modSe e (fun x =>
    (match x.a with
     | 0 => x.putSide (BitVec.ofNat 4 x.b)
     | 1 => x.putLanes fun j => if j < 4 then some (x.b / 2 ^ j % 2 = 1) else none
     | 2 => x.putLanes fun j => if 4 ≤ j then some (x.b / 2 ^ (j - 4) % 2 = 1) else none
     | 3 => x.putSide ((x.sr >>> 28).setWidth 4)
     | _ => x.putLanes x.slice).complete s.tb.clk none x.d) s)

/-- MOV (Table 7.8). -/
def movWord (e : Fin 32) (li : BitVec 8) (si : BitVec 4) (s : State) : State :=
  let li := laneIn e li s
  let si := sideLevels e si s
  shiftPins e (modSe e (fun x =>
    let v := x.movSource x.b li si
    (match x.a with
     | 0 => { x with sr := v }
     | 1 => { x with scnt := v.setWidth 16 }
     | 2 => { x with cmpv := v }
     | _ => x.putSide (v.setWidth 4)).complete s.tb.clk none x.d) s)

/-- The instruction at PC issues. -/
def issue (e : Fin 32) (li : BitVec 8) (si : BitVec 4) (s : State) : State :=
  let x := s.se[e]
  let clk := s.tb.clk
  let next (f : Shift → Shift) (s : State) : State := modSe e (fun x => (f x).complete clk none x.d) s
  match x.op with
  | 0 => next id s
  | 1 => setDir e true (issueShift e true false s)
  | 2 => setDir e false (issueShift e false true s)
  | 3 => issueShift e true true s
  | 4 => putPins e s
  | 5 =>
    (match x.a with
     | 0 => next (fun x => { x.hold clk with ckrun := false }) s
     | 1 => next (fun x => if x.ckrun then x else { x with ckrun := true, phAt := clk }) s
     | 2 => next id (restartClock e s)
     | _ => issueBarrier e true s)
  | 6 =>
    if x.a = 3 then issueBarrier e false s
    else if awaitHolds clk x.a x.b (laneIn e li s) (sideLevels e si s) x then modSe e (Shift.awaited clk) s
    else modSe e (fun x => { x with wait := .await clk }) s
  | 7 => if x.a = 1 ∨ ¬ (x.txSeen clk).isEmpty then next (Shift.fill clk) s else modSe e (fun x => { x with wait := .fill }) s
  | 8 => if x.a = 1 ∨ x.rxRoom then next (fun x => x.drain x.sr) s else modSe e (fun x => { x with wait := .drain }) s
  | 9 => next (fun x => { x with f := x.matches (x.a = 1) }) s
  | 10 => modSe e (fun x =>
      x.complete clk (if x.branches clk (laneIn e li s) then some (BitVec.ofNat 5 (16 * (x.a % 2) + x.b)) else none) x.d) s
  | 11 =>
    let s := if x.b % 2 = 1 then postMask x.temask (32 + x.a) (BitVec.ofNat 32 e.val) s else s
    next (fun x => if x.b / 2 = 1 then { x with stat := setBit x.stat 2 true } else x) s
  | _ => movWord e li si s

/-- The engine issues the instruction at PC in its turn, where `f` holds of its fields OP and A (R215). -/
def issueIf (f : Nat → Nat → Bool) (e : Fin 32) (li : BitVec 8) (si : BitVec 4) (s : State) : State :=
  let x := s.se[e]
  if allClocked s ∧ x.st = .run ∧ x.wait = .none ∧ legal x.op x.a x.b ∧ f x.op x.a then atClk x.nextAt (issue e li si) s else s

/-- HALT (R200), by command or by a reserved code. It acts at the end of its cycle: SCK is idle from the next one. -/
def haltEngine (e : Fin 32) (s : State) : State :=
  modSe e (fun x => { x.hold s.tb.clk with
    st := .halted
    wait := match x.wait with | .shift a b => .shift a b | .idle => .idle | _ => .none }) (cutSck 1 e s)

/-- A reserved code reaches execution (R218). -/
def illegal (e : Fin 32) (s : State) : State :=
  let x := s.se[e]
  if x.st = .run ∧ x.wait = .none ∧ ¬ legal x.op x.a x.b then
    atClk x.nextAt (fun s => modSe e (fun x => { x with stat := setBit x.stat 3 true }) (haltEngine e s)) s
  else s

/-- A waiting AWAIT completes in the first cycle in which its condition holds (R221). -/
def awaitDone (e : Fin 32) (li : BitVec 8) (si : BitVec 4) (s : State) : State :=
  let x := s.se[e]
  match x.wait with
  | .await since =>
    if x.st ≠ .run then s
    else if x.a = 6 then
      -- the first cycle of the frame after the one in which it issued
      atClk (if since + frameCycle s < s.tb.clk then s.tb.clk else s.tb.clk + (1024 - frameCycle s))
        (fun s => modSe e (Shift.awaited s.tb.clk) s) s
    else if awaitHolds s.tb.clk x.a x.b (laneIn e li s) (sideLevels e si s) x then modSe e (Shift.awaited s.tb.clk) s
    else s
  | _ => s

/-- A blocking FILL completes in the first cycle in which a word is visible (R211). -/
def fillDone (e : Fin 32) (s : State) : State :=
  let x := s.se[e]
  if x.st = .run ∧ x.wait = .fill ∧ ¬ (x.tx.take x.txDepth).isEmpty then
    atClk (if (x.txSeen s.tb.clk).isEmpty then s.tb.clk + 1 else s.tb.clk)
      (fun s => modSe e (fun x => (x.fill s.tb.clk).complete s.tb.clk none x.d) s) s
  else s

/-- A blocking DRAIN, or the autodrain that stalls, finds an entry free (R208, R212). -/
def drainDone (e : Fin 32) (s : State) : State :=
  modSe e (fun x =>
    if x.st ≠ .run then x
    else if x.drainOwed.isSome then x.payDrain
    else if x.wait = .drain ∧ x.rxRoom then (x.drain x.sr).complete s.tb.clk none x.d else x) s

/-! Sync groups (R226, R227). -/

def members (g : Fin 8) (s : State) : List (Fin 32) :=
  (List.finRange 32).filter fun e => s.se[e].grouped && decide (s.se[e].group = g.val)

def Shift.atBarrier (x : Shift) : Bool := match x.wait with | .barrier _ => decide (x.st = .run) | _ => false

def barrierReady (g : Fin 8) (s : State) : Bool :=
  let l := members g s
  l.any (fun e => s.se[e].atBarrier) &&
  l.all fun e => decide (s.se[e].st ≠ .halted) && (decide (s.se[e].st ≠ .run) || s.se[e].atBarrier)

/-- The barrier of a group releases. -/
def releaseBarrier (g : Fin 8) (s : State) : State :=
  if barrierReady g s then
    (members g s).foldl (fun s e =>
      match s.se[e].wait with
      | .barrier restart =>
        if s.se[e].st = .run then modSe e (fun x => x.complete s.tb.clk none x.d) (if restart then restartClock e s else s) else s
      | _ => s) s
  else s

/-! Commands (Table 7.2). -/

def seAnswer (e : Fin 32) (st : CmdStatus) (s : State) : State :=
  refuse (bit s.se[e].ie 16) st (modSe e (fun x => { x with cmd := x.cmd.answer st }) s)
def seCommand (e : Fin 32) (st : CmdStatus) (f : State → State) (s : State) : State :=
  seAnswer e st (if st = .ok then f s else s)

inductive ShCmd where
  | start | stop | halt | resume
  deriving DecidableEq, Repr

def Shift.judge (c : ShCmd) (x : Shift) : CmdStatus :=
  match c with
  | .start => if x.join = 3 then .argInvalid else if x.st ≠ .stopped then .stateRefused else .ok
  | .stop => if x.st = .stopped then .stateRefused else .ok
  | .halt => if x.st ≠ .run then .stateRefused else .ok
  | .resume => if x.st ≠ .halted then .stateRefused else .ok

/-- START (R199). -/
def startEngine (e : Fin 32) (s : State) : State :=
  let s := modSe e (fun x => { x with
    pc := x.entry, sr := 0, scnt := 0, olv := 0, ilv := 0, f := false, trg := false, rem := 0, idle := 0
    progchg := false, lo := 0, side := 0, wait := .none, drainOwed := none, nextAt := s.tb.clk + 1, st := .run }) s
  shiftPins e (setDir e false (restartClock e s))

/-! What pumps have under way to a TX queue. -/

def Desc.dtype (d : Desc) : Nat := fld d.d0 25 23
def Desc.didx (d : Desc) : Nat := fld d.d0 16 11
def Desc.dealM1 (d : Desc) : Nat := fld d.d0 10 9
/-- The shift engine to which the element at byte `moved` is dealt (R310). -/
def Desc.dealt (d : Desc) (moved : Nat) : Fin 32 := Fin.ofNat 32 (d.didx + moved / 4 % (d.dealM1 + 1))

/-- Places in the descriptor of the words in hand: taken from the source, or under way from the Cistern, and not yet
at their destination. -/
def Pump.inHand (x : Pump) : List Nat :=
  if x.half.isSome then [x.moved] else if x.asked ∨ x.got.isSome then [x.moved, x.moved + 4] else []

/-- The words in flight to the TX queue of an engine that stops are discarded on arrival (R202, R310). A word that waits
for room in the queue is not in flight: the model's choice (log 32). -/
def discardFlight (e : Fin 32) (s : State) : State :=
  if s.se[e].txRoom s.tb.clk then
    forAll 8 (fun u s => modPump u (fun x => match x.desc with
      | some d => if d.dtype = 3 then { x with stale := x.inHand.filter (fun k => decide (d.dealt k = e)) ++ x.stale } else x
      | none => x) s) s
  else s

/-- STOP (R202). -/
def stopEngine (e : Fin 32) (s : State) : State :=
  let s := discardFlight e s
  let s := modSe e (fun x => { x.hold s.tb.clk with
    st := .stopped, tx := [], rx := [], lo := 0, side := 0, wait := .none, drainOwed := none
    rem := 0, idle := 0, ckrun := false }) (cutSck 0 e s)
  shiftPins e (setDir e false s)

/-- RESUME (R201). -/
def Shift.resume (clr : Bool) (clk : Nat) (x : Shift) : Shift :=
  let y := if clr ∨ x.progchg then { x with rem := 0, idle := 0, wait := .none, pc := x.entry } else x
  let y := if clr then { y with sr := 0, scnt := 0, olv := 0, ilv := 0, f := false, trg := false, tx := [], rx := [], drainOwed := none }
    else y
  { y with st := .run, progchg := false, phAt := clk, nextAt := clk + 1 }

def ShCmd.effect (c : ShCmd) (clr : Bool) (e : Fin 32) (s : State) : State :=
  match c with
  | .start => startEngine e s
  | .stop => stopEngine e s
  | .halt => haltEngine e s
  | .resume => stands (modSe e (Shift.resume clr s.tb.clk) s)

def engineCommand (c : ShCmd) (clr : Bool) (e : Fin 32) (s : State) : State :=
  let s := if c = .start then endDoze s else s
  seCommand e (s.se[e].judge c) (c.effect clr e) s
def trigEngine (e : Fin 32) (s : State) : State := seAnswer e .ok (setTrg e s)

/-- The members on which a group command acts, and its outcome (Table 7.9). -/
def groupStatus (c : ShCmd) (g : Fin 8) (s : State) : CmdStatus :=
  let l := members g s
  match c with
  | .start =>
    if l.any (fun e => decide (s.se[e].join = 3)) then .argInvalid
    else if l.isEmpty ∨ l.any (fun e => decide (s.se[e].st ≠ .stopped)) then .stateRefused else .ok
  | _ => if l.any (fun e => decide (s.se[e].judge c = .ok)) then .ok else .stateRefused
def groupCommand (c : ShCmd) (clr : Bool) (g : Fin 8) (s : State) : State :=
  let s := if c = .start then endDoze s else s
  let st := groupStatus c g s
  let s := if st = .ok then
      (members g s).foldl (fun s e => if s.se[e].judge c = .ok then c.effect clr e s else s) s
    else s
  { s with seg := s.seg.answer st }

/-! Registers (Table 7.3, R198). -/

/-- The pins of the engine follow a change of its configuration. -/
def seRefresh (e : Fin 32) (s : State) : State :=
  let s := forAll 288 (fun p s =>
    let k := s.pin[p].kind
    if (k = 3 ∨ k = 4 ∨ k = 5) ∧ s.pin[p].idx = e.val then refreshPin p s else s) s
  sckPins e (s.tb.now + 256) (s.se[e].sckLevel s.tb.clk) (shiftPins e s)

/-- A write that only some states allow. -/
def seGuarded (e : Fin 32) (ok : Bool) (f : Shift → Shift) (s : State) : State :=
  if ok then modSe e f s else seAnswer e .stateRefused s

/-- A write of `SE_WRAP` (R217). A running engine holds it, from the next cycle, for its next crossing; at other times it acts
at once. -/
def writeWrap (e : Fin 32) (v : Word) (s : State) : State :=
  if s.se[e].st = .run then deferLast (.seReg e 0x0C v) s
  else modSe e (fun x => { x with wrapLo := BitVec.ofNat 5 (fld v 4 0), wrapHi := BitVec.ofNat 5 (fld v 12 8), heldWrap := none }) s

/-- A write of a register of engine `e`, by its offset (Table 7.12), but for the commands and queues. -/
def seWrite (e : Fin 32) (off : Nat) (v : Word) (s : State) : State :=
  let x := s.se[e]
  let notRun := decide (x.st ≠ .run)
  match off with
  | 0x00 =>
    if x.st = .stopped then seRefresh e (modSe e (fun x => { x with cfg := v &&& 0xFFFF_FF87 }) s)
    else seAnswer e .stateRefused s
  | 0x08 => modSe e (fun x => { x with clkdiv := BitVec.ofNat 24 (max 0x100 (fld v 23 0)) }) s
  | 0x0C => writeWrap e v s
  | 0x10 => seGuarded e notRun (fun x => { x with entry := BitVec.ofNat 5 (fld v 4 0), progchg := x.progchg || decide (x.st = .halted) }) s
  | 0x1C => modSe e (fun x => { x with stat := x.stat &&& ~~~ v.setWidth 7 }) s
  | 0x20 | 0x2C | 0x30 | 0x3C => deferLast (.seReg e off v) s
  | 0x24 => seGuarded e notRun (fun x => { x with sr := v }) s
  | 0x28 => seGuarded e notRun (fun x => { x with scnt := v.setWidth 16 }) s
  | _ =>
    if 0x80 ≤ off ∧ off < 0x100 ∧ off % 4 = 0 then
      seGuarded e notRun (fun x => { x with
        prog := x.prog.set ((off - 0x80) / 4 % 32) (v.setWidth 16) (by omega)
        progchg := x.progchg || decide (x.st = .halted) }) s
    else s

def execSeStart (p : Port) (e : Fin 32) (s : State) : Host.Outcome State Fault Refusal := done (host p (engineCommand .start false e) s)
def execSeStop (p : Port) (e : Fin 32) (s : State) : Host.Outcome State Fault Refusal := done (host p (engineCommand .stop false e) s)
def execSeHalt (p : Port) (e : Fin 32) (s : State) : Host.Outcome State Fault Refusal := done (host p (engineCommand .halt false e) s)
def execSeResume (p : Port) (e : Fin 32) (clr : Bool) (s : State) : Host.Outcome State Fault Refusal :=
  done (host p (engineCommand .resume clr e) s)
def execSeTrig (p : Port) (e : Fin 32) (s : State) : Host.Outcome State Fault Refusal := done (host p (trigEngine e) s)
def execGstart (p : Port) (g : Fin 8) (s : State) : Host.Outcome State Fault Refusal := done (host p (groupCommand .start false g) s)
def execGhalt (p : Port) (g : Fin 8) (s : State) : Host.Outcome State Fault Refusal := done (host p (groupCommand .halt false g) s)
def execGresume (p : Port) (g : Fin 8) (clr : Bool) (s : State) : Host.Outcome State Fault Refusal :=
  done (host p (groupCommand .resume clr g) s)
def execGstop (p : Port) (g : Fin 8) (s : State) : Host.Outcome State Fault Refusal := done (host p (groupCommand .stop false g) s)
def execSeRegisterWrite (p : Port) (e : Fin 32) (off : Nat) (v : BitVec 32) (s : State) : Host.Outcome State Fault Refusal :=
  done (host p (fun s => noteClears s (seWrite e off v s)) s)
def execSeWrapWrite (p : Port) (e : Fin 32) (v : BitVec 32) (s : State) : Host.Outcome State Fault Refusal :=
  done (host p (writeWrap e v) s)
def execSeTxqWrite (p : Port) (e : Fin 32) (v : BitVec 32) (s : State) : Host.Outcome State Fault Refusal :=
  done (host p (txWrite e v) s)
def execSeRxqRead (p : Port) (e : Fin 32) (s : State) : Host.Outcome State Fault Refusal :=
  done (hostRead p (rxRead e) s)
def execShift (e : Fin 32) (li : BitVec 8) (s : State) : Host.Outcome State Fault Refusal := done (clocked (shiftTick e li) s)
def execIdleTick (e : Fin 32) (s : State) : Host.Outcome State Fault Refusal := done (clocked (idleTick e) s)
def execShiftClockTick (e : Fin 32) (s : State) : Host.Outcome State Fault Refusal := done (clocked (otherTick e) s)

def execSeNop (e : Fin 32) (s : State) : Host.Outcome State Fault Refusal := done (issueIf (fun o _ => o == 0) e 0 0 s)
def execSeSho (e : Fin 32) (s : State) : Host.Outcome State Fault Refusal := done (issueIf (fun o _ => o == 1) e 0 0 s)
def execSeShi (e : Fin 32) (s : State) : Host.Outcome State Fault Refusal := done (issueIf (fun o _ => o == 2) e 0 0 s)
def execSeShx (e : Fin 32) (s : State) : Host.Outcome State Fault Refusal := done (issueIf (fun o _ => o == 3) e 0 0 s)
def execSePut (e : Fin 32) (s : State) : Host.Outcome State Fault Refusal := done (issueIf (fun o _ => o == 4) e 0 0 s)
def execSeClkHold (e : Fin 32) (s : State) : Host.Outcome State Fault Refusal := done (issueIf (fun o a => o == 5 && a == 0) e 0 0 s)
def execSeClkRun (e : Fin 32) (s : State) : Host.Outcome State Fault Refusal := done (issueIf (fun o a => o == 5 && a == 1) e 0 0 s)
def execSeClkRestart (e : Fin 32) (s : State) : Host.Outcome State Fault Refusal := done (issueIf (fun o a => o == 5 && a == 2) e 0 0 s)
def execSeClkRestartBarrier (e : Fin 32) (s : State) : Host.Outcome State Fault Refusal :=
  done (issueIf (fun o a => o == 5 && a == 3) e 0 0 s)
def execSeAwait (e : Fin 32) (li : BitVec 8) (si : BitVec 4) (s : State) : Host.Outcome State Fault Refusal :=
  done (issueIf (fun o _ => o == 6) e li si s)
def execAwaitComplete (e : Fin 32) (li : BitVec 8) (si : BitVec 4) (s : State) : Host.Outcome State Fault Refusal :=
  done (clocked (awaitDone e li si) s)
def execBarrierRelease (g : Fin 8) (s : State) : Host.Outcome State Fault Refusal := done (clocked (releaseBarrier g) s)
def execSeFill (e : Fin 32) (s : State) : Host.Outcome State Fault Refusal := done (issueIf (fun o _ => o == 7) e 0 0 s)
def execFillComplete (e : Fin 32) (s : State) : Host.Outcome State Fault Refusal := done (clocked (fillDone e) s)
def execSeDrain (e : Fin 32) (s : State) : Host.Outcome State Fault Refusal := done (issueIf (fun o _ => o == 8) e 0 0 s)
def execDrainComplete (e : Fin 32) (s : State) : Host.Outcome State Fault Refusal := done (clocked (drainDone e) s)
def execSeCmp (e : Fin 32) (s : State) : Host.Outcome State Fault Refusal := done (issueIf (fun o _ => o == 9) e 0 0 s)
def execSeBrc (e : Fin 32) (li : BitVec 8) (s : State) : Host.Outcome State Fault Refusal :=
  done (issueIf (fun o _ => o == 10) e li 0 s)
def execSeSig (e : Fin 32) (s : State) : Host.Outcome State Fault Refusal := done (issueIf (fun o _ => o == 11) e 0 0 s)
def execSeMov (e : Fin 32) (li : BitVec 8) (si : BitVec 4) (s : State) : Host.Outcome State Fault Refusal :=
  done (issueIf (fun o _ => o == 12) e li si s)
def execIllop (e : Fin 32) (s : State) : Host.Outcome State Fault Refusal := done (clocked (illegal e) s)

end Sys2Proof.Machine
end

