-- ==== Sys2Proof/Machine/Pump.lean ====
section
/-! DEFINITION. Pump: descriptors, elements and results (R306 to R315). -/

namespace Sys2Proof.Machine

/-! Commands and the tail (R306, R307). -/

def pumpAnswer (u : Fin 8) (st : CmdStatus) (s : State) : State :=
  refuse (bit s.pump[u].ie 16) st (modPump u (fun x => { x with cmd := x.cmd.answer st }) s)
def pumpCommand (u : Fin 8) (st : CmdStatus) (f : Pump → Pump) (s : State) : State :=
  pumpAnswer u st (if st = .ok then modPump u f s else s)

def pumpStartStatus (x : Pump) : CmdStatus :=
  if 10 < fld x.ringcfg 3 0 then .argInvalid else if x.state ≠ .stopped then .stateRefused else .ok
def pumpStopStatus (x : Pump) : CmdStatus :=
  match x.state with | .run | .error => .ok | _ => .stateRefused
def Pump.stop (x : Pump) : Pump :=
  match x.state with | .run => { x with state := .stopping } | _ => { x with state := .stopped }

/-- Descriptors of the ring. -/
def Pump.size (x : Pump) : Nat := 2 ^ (fld x.ringcfg 3 0 + 2)
/-- The ring lies in host memory. -/
def Pump.ringInHost (x : Pump) : Bool := bit x.ringcfg 31
/-- The address of the descriptor at `HEAD`. -/
def Pump.descAddr (x : Pump) : BitVec 64 := x.ring + BitVec.ofNat 64 (32 * (x.head.toNat % x.size))

def tailStatus (w : BitVec 16) (x : Pump) : CmdStatus := if x.size < (w - x.head).toNat then .stateRefused else .ok
def writeTail (u : Fin 8) (w : BitVec 16) (s : State) : State :=
  if tailStatus w s.pump[u] = .ok then modPump u (fun x => { x with tail := w }) s else pumpAnswer u .stateRefused s

/-- A write that a pump at work refuses (R306). -/
def pumpGuarded (u : Fin 8) (f : Pump → Pump) (s : State) : State :=
  if s.pump[u].state = .stopped then modPump u f s else pumpAnswer u .stateRefused s

/-! Descriptors (Table 10.6). -/

def Desc.irq (d : Desc) : Bool := bit d.d0 31
def Desc.circ (d : Desc) : Bool := bit d.d0 30
def Desc.wflow (d : Desc) : Bool := bit d.d0 29
def Desc.stype (d : Desc) : Nat := fld d.d0 28 26
def Desc.sidx (d : Desc) : Nat := fld d.d0 22 17
/-- An end takes 64-bit elements (Table 10.7). -/
def wide (type other : Nat) : Bool := decide (type = 0 ∨ type = 2 ∨ (type = 1 ∧ (other = 0 ∨ other = 2)))
def Desc.src64 (d : Desc) : Bool := wide d.stype d.dtype
def Desc.dst64 (d : Desc) : Bool := wide d.dtype d.stype
/-- Bytes of a destination element. -/
def Desc.step (d : Desc) : Nat := if d.dst64 then 8 else 4
def lo24 (a : BitVec 64) : Nat := a.toNat % 2 ^ 24
/-- The endpoint code of a pump (Table 10.4). -/
def pumpCode (u : Fin 8) : Nat := 0x20 + u.val

/-- A Cistern end: aligned, and within the Cistern unless it is circular (R309). -/
def cisEnd (d : Desc) (a : BitVec 64) : Bool := decide (lo24 a % 8 = 0) && (d.circ || decide (lo24 a + d.len ≤ 2 ^ 24))

/-- The checks of R309. -/
def argOk (u : Fin 8) (d : Desc) (s : State) : Bool :=
  decide (d.stype ≤ 4 ∧ d.dtype ≤ 3 ∧ fld d.d0 8 0 = 0) && decide (0 < d.len ∧ d.len < 2 ^ 24) &&
  decide (d.len % (if d.stype = 0 ∨ d.stype = 2 ∨ d.dtype = 0 ∨ d.dtype = 2 then 8 else 4) = 0) &&
  (decide (d.stype ≠ 0) || cisEnd d d.saddr) && (decide (d.dtype ≠ 0) || cisEnd d d.daddr) &&
  (decide (d.stype ≠ 1) || decide (d.saddr.toNat % 4 = 0)) && (decide (d.dtype ≠ 1) || decide (d.daddr.toNat % 4 = 0)) &&
  (decide (d.stype ≠ 2) || decide (s.well[Fin.ofNat 64 d.sidx].reader = pumpCode u)) &&
  (decide (d.dtype ≠ 2) || decide (s.well[Fin.ofNat 64 d.didx].writer = pumpCode u)) &&
  (if d.dtype = 3 then decide (d.didx + d.dealM1 ≤ 31) else decide (d.dealM1 = 0)) &&
  (decide (d.stype ≠ 4) || decide (d.sidx ≤ 1)) &&
  (!d.circ || (decide (2 ≤ d.stype) && decide (d.dtype ≤ 1)))

/-- A descriptor could not be read (R312). -/
def Pump.noFetch (x : Pump) : Pump := { x with stat := setBit x.stat 4 true, state := .error, fetching := false, fail := none }

/-- A descriptor is in hand, from its six dwords (R308, R309). -/
def takeDesc (u : Fin 8) (w : List Word) (s : State) : State :=
  let at_ (i : Nat) : Word := w[i]?.getD 0
  let d : Desc := { d0 := at_ 0, len := (at_ 1).toNat, saddr := join (at_ 3) (at_ 2), daddr := join (at_ 5) (at_ 4) }
  modPump u (fun x => { x with
    desc := some d, fetching := false, moved := 0, offset := 0, taken := 0, half := none, asked := false, got := none, stale := []
    resPoison := false, resWlost := false, resGap := false, resDisc := false
    fail := if argOk u d s then none else some 2, hostBuf := [], hostAsked := 0, hostOut := [] }) s

/-- The port of a pump. -/
def pumpPort (u : Fin 8) : Nat := 16 + u.val
/-- An access of the pump waits at a way (R285). -/
def pumpWaits (u : Fin 8) (s : State) : Bool := (headOf s (pumpPort u)).isSome

/-- Word `w` of the Cistern belongs to a bank that is being initialised: the pump waits (R294). -/
def holdsBack (a : BitVec 64) (s : State) : Bool := initialising s (lo24 a / 8)

/-- The pump issues an access, in the first cycle in which it may (R313). -/
def pumpIssue (u : Fin 8) (w : Nat) (k : AccKind) (s : State) : State :=
  let s := runClk s.pump[u].next s
  enqueue ⟨pumpPort u, w % 2 ^ 21, k, .pump⟩ (modPump u (fun x => { x with next := s.tb.clk + 1 }) s)

/-- Three words of a descriptor in the Cistern; none where one is refused or poisoned. -/
def fetchWords (u : Fin 8) (a : Nat) (s : State) : State × Option (List Word) :=
  [0, 1, 2].foldl (fun (r : State × Option (List Word)) i =>
    match r.2 with
    | none => r
    | some l =>
      let (s, v, p) := awaitData (pumpPort u) .pump (serve (pumpPort u) (pumpIssue u ((a + 8 * i) / 8) .read r.1))
      (s, if p then none else some (l ++ [lo32 v, hi32 v]))) (s, some [])

/-- The pump takes the descriptor at `HEAD` (R307, R308). -/
def descTake (u : Fin 8) (s : State) : State :=
  let x := s.pump[u]
  if x.state ≠ .run ∨ x.desc.isSome ∨ x.fetching ∨ x.head = x.tail then s
  else if x.ringInHost then
    if busMaster s then
      emit (.hostReadReq u x.descAddr 24) (modPump u (fun x => { x with fetching := true, hostOut := [24] }) s)
    else s
  else if holdsBack x.descAddr s then s
  else
    match fetchWords u (lo24 x.descAddr) s with
    | (s, some w) => takeDesc u w s
    | (s, none) => modPump u Pump.noFetch s

/-! Elements (R310, R311, R313). -/

/-- Requests for host data, at most four outstanding, of at most 512 bytes or Max_Read_Request_Size (R313). -/
def askHost (u : Fin 8) (d : Desc) (s : State) : State :=
  (List.range 4).foldl (fun s _ =>
    let x := s.pump[u]
    if x.hostOut.length < 4 ∧ x.hostAsked < d.len ∧ busMaster s then
      let n := min (min 512 (128 * 2 ^ s.sys.fn.maxRead.toNat)) (d.len - x.hostAsked)
      emit (.hostReadReq u (d.saddr + BitVec.ofNat 64 x.hostAsked) n)
        (modPump u (fun x => { x with hostAsked := x.hostAsked + n, hostOut := x.hostOut ++ [n] }) s)
    else s) s

/-- The next word of converter `c` for pump `u`, and whether it is its record's fourth (R355). -/
def convWord (u : Fin 8) (c : Fin 2) (s : State) : State × Option (BitVec 64 × Bool) :=
  let x := s.sc[c]
  match x.results with
  | r :: rest =>
    if fld x.bufCfg 26 24 ≠ u.val then (s, none)
    else
      let w := match x.taken with | 0 => r.w0 | 1 => r.w1 | 2 => r.w2 | _ => r.w3
      (modSc c (fun x => if x.taken < 3 then { x with taken := x.taken + 1 } else { x with taken := 0, results := rest }) s,
        some (w.setWidth 64, false))
  | [] => (s, none)

/-- A read of the source in the Cistern is issued: it waits at its way (R283, R285). -/
def askCistern (u : Fin 8) (d : Desc) (s : State) : State :=
  let x := s.pump[u]
  if x.asked ∨ initialising s ((lo24 d.saddr + x.taken) / 8) then s
  else modPump u (fun x => { x with asked := true, taken := x.taken + 8, wait := false })
    (pumpIssue u ((lo24 d.saddr + x.taken) / 8) .read s)

/-- The next element of the source, its poison; none where there is none yet. -/
def takeElement (u : Fin 8) (d : Desc) (s : State) : State × Option (BitVec 64 × Bool) :=
  let x := s.pump[u]
  match d.stype with
  | 0 =>
    (match x.got with
     | some q => (modPump u (fun x => { x with got := none }) s, some q)
     | none => (askCistern u d s, none))
  | 1 =>
    (match d.src64, x.hostBuf with
     | true, (a, p) :: (b, q) :: r => (modPump u (fun x => { x with hostBuf := r, taken := x.taken + 8 }) s, some (join b a, p || q))
     | false, (a, p) :: r => (modPump u (fun x => { x with hostBuf := r, taken := x.taken + 4 }) s, some (a.setWidth 64, p))
     | _, _ => (s, none))
  | 2 =>
    let k : Fin 64 := Fin.ofNat 64 d.sidx
    if !s.well[k].reads (pumpCode u) then (s, none)
    else
      let s := wellTurn k s
      (match s.well[k].seen s.tb.clk with
      | [] => (s, none)
      | i :: _ =>
        let s := wellDrop k (wellReport k i s)
        match i.readTag with
        | 0 => (s, some (i.data, false))
        | 1 => (modPump u (fun x => { x with resGap := true }) s, none)
        | _ => (s, some (i.data, true)))
  | 3 =>
    if d.sidx < 32 then
      let e : Fin 32 := Fin.ofNat 32 d.sidx
      (match s.se[e].rxSeen with
       | w :: _ => (modSe e (fun x => { x with rx := x.rx.drop 1 }) s, some (w.setWidth 64, false))
       | [] => (s, none))
    else (s, none)
  | _ => convWord u (Fin.ofNat 2 d.sidx) s

/-- The destination takes an element now (R310); a word that a STOP discards needs no room. -/
def destReady (d : Desc) (x : Pump) (s : State) : Bool :=
  match d.dtype with
  | 1 => busMaster s
  | 2 => !d.wflow || s.well[Fin.ofNat 64 d.didx].accepts s.tb.clk
  | 3 => x.stale.contains x.moved || s.se[d.dealt x.moved].txRoom s.tb.clk
  | _ => true

/-- An element goes to its destination (R310, R311); one for the Cistern has moved when its way grants it (R308). -/
def putElement (u : Fin 8) (d : Desc) (v : BitVec 64) (p : Bool) (s : State) : State :=
  let x := s.pump[u]
  let pos := if d.circ then x.offset else x.moved
  let s := if d.dtype = 0 then s else modPump u (fun x => { x with next := s.tb.clk + 1 }) s
  let s := modPump u (fun x => { x with wait := false }) s
  match d.dtype with
  | 0 => pumpIssue u ((lo24 d.daddr + pos) / 8) (.write v p) s
  | 1 => modPump u (Pump.count d.step p) (emit (.hostWrite (d.daddr + BitVec.ofNat 64 pos)
      ((List.range d.step).map fun i => ((v >>> (8 * i)).setWidth 8, false))) s)
  | 2 => modPump u (Pump.count d.step p) (wellPush (Fin.ofNat 64 d.didx) (pumpCode u) v (if p then 3 else 0) s)
  | _ =>
    if x.stale.contains x.moved then modPump u (fun x => { x.count 4 p with resDisc := true, stale := x.stale.erase x.moved }) s
    else modPump u (Pump.count 4 p) (modSe (d.dealt x.moved) (Shift.putTx s.tb.clk (lo32 v)) s)

/-- `SC_BUF_WR` advances with the write of a record's fourth word (R356). -/
def convAdvance (d : Desc) (fourth : Bool) (s : State) : State :=
  if d.stype = 4 ∧ fourth then bufferAdvance (Fin.ofNat 2 d.sidx) s else s
/-- The word last taken from the converter was its record's fourth. -/
def tookFourth (d : Desc) (s : State) : Bool := decide (s.sc[Fin.ofNat 2 d.sidx].taken = 0)

/-- The pump waits on an endpoint; for the Cistern it waits on no endpoint (R306). -/
def pumpIdle (u : Fin 8) (s : State) : State := modPump u (fun x => { x with wait := !x.asked }) s

/-- One element moves, packed as R310 says. -/
def moveOne (u : Fin 8) (d : Desc) (s : State) : State :=
  let x := s.pump[u]
  match d.src64, d.dst64, x.half with
  | true, false, some (w, p) => putElement u d (w.setWidth 64) p (modPump u (fun x => { x with half := none }) s)
  | true, false, none =>
    (match takeElement u d s with
     | (s, some (v, p)) => putElement u d (v &&& 0xFFFF_FFFF) p (modPump u (fun x => { x with half := some (hi32 v, p) }) s)
     | (s, none) => pumpIdle u s)
  | false, true, none =>
    (match takeElement u d s with
     | (s, some (v, p)) => modPump u (fun x => { x with half := some (lo32 v, p), wait := false }) s
     | (s, none) => pumpIdle u s)
  | false, true, some (w, p) =>
    let first := tookFourth d s
    (match takeElement u d s with
     | (s, some (v, q)) =>
       let second := tookFourth d s
       let s := putElement u d (join (lo32 v) w) (p || q) (modPump u (fun x => { x with half := none }) s)
       convAdvance d second (convAdvance d first s)
     | (s, none) => pumpIdle u s)
  | _, _, _ =>
    (match takeElement u d s with
     | (s, some (v, p)) => let f := tookFourth d s; convAdvance d f (putElement u d v p s)
     | (s, none) => pumpIdle u s)

/-- The first half of a 64-bit element is still to be taken: it needs no room at the destination. -/
def firstHalf (d : Desc) (x : Pump) : Bool := !d.src64 && d.dst64 && x.half.isNone

/-- The descriptor has more to move. -/
def Desc.more (d : Desc) (x : Pump) : Bool := d.circ || decide (x.moved < d.len)

/-- The next element moves, when source and destination are ready. -/
def moveReady (u : Fin 8) (d : Desc) (s : State) : State :=
  let x := s.pump[u]
  if firstHalf d x ∨ destReady d x s ∨ (d.stype = 0 ∧ x.got.isNone ∧ x.half.isNone) then moveOne u d s else pumpIdle u s

/-- The pump moves its next element, when source, destination and way are ready: from the Cistern it issues the read
first, and moves the element once its data has come (R310). It issues an access, or fills a queue, once in a cycle (R313). -/
def elementMove (u : Fin 8) (s : State) : State :=
  match s.pump[u].desc with
  | none => s
  | some d =>
    let x := s.pump[u]
    if x.state ≠ .run ∨ x.fail.isSome ∨ ¬ d.more x ∨ pumpWaits u s then s
    else atClk x.next (fun s => moveReady u d (if d.stype = 1 then askHost u d s else s)) s

/-! Results (R306, R312). -/

/-- The result dword (Table 10.6). -/
def Pump.result (x : Pump) (code : BitVec 3) : Word :=
  pack [(1, 31), (code.toNat, 28), (b2n x.resPoison, 27), (b2n x.resWlost, 26), (b2n x.resGap, 25), (b2n x.resDisc, 24),
        (x.moved % 2 ^ 24, 0)]

/-- The result is written to the ring; whether it was admitted there. -/
def writeResult (u : Fin 8) (code : BitVec 3) (s : State) : State × Bool :=
  let x := s.pump[u]
  let a := x.descAddr + 0x18
  let r := x.result code
  if x.ringInHost then
    (emit (.hostWrite a ((List.range 4).map fun i => ((r >>> (8 * i)).setWidth 8, false))) s, true)
  else
    let s := serve (pumpPort u) (pumpIssue u (lo24 a / 8) (.part (r.setWidth 64) 0x0F false)
      (modPump u (fun x => { x with fail := none }) s))
    (s, s.pump[u].fail.isNone)

/-- Nothing is in hand any more. -/
def Pump.clear (x : Pump) : Pump :=
  { x with desc := none, half := none, asked := false, got := none, stale := [], fail := none, hostBuf := [], hostAsked := 0, hostOut := [], wait := false }

/-- The descriptor in hand ends with a code: result, `HEAD`, flags (R312). -/
def endDesc (u : Fin 8) (irq : Bool) (code : BitVec 3) (s : State) : State :=
  let (s, ok) := writeResult u code s
  let code := if ok then code else 3
  modPump u (fun x =>
    let x := { x.clear with head := x.head + 1, lastCode := code, stat := if irq then setBit x.stat 0 true else x.stat }
    if code = 0 then { x with done := inc8 x.done }
    else if code = 1 then x
    else { x with stat := setBit x.stat 3 true, err := inc8 x.err, state := if bit x.cfg 30 ∨ x.state ≠ .run then x.state else .error }) s

/-- The bank that holds the ring is being initialised, or Bus Master Enable is 0 for a ring in host memory: the result
cannot be written. -/
def resultWaits (x : Pump) (s : State) : Bool := if x.ringInHost then !busMaster s else holdsBack x.descAddr s

/-- The end of a descriptor in RUN: all has been moved, or an error ends it. -/
def descEnd (u : Fin 8) (s : State) : State :=
  match s.pump[u].desc with
  | none => s
  | some d =>
    let x := s.pump[u]
    let s := if x.state = .run ∧ pumpWaits u s then serve (pumpPort u) s else s
    let x := s.pump[u]
    if x.state ≠ .run ∨ (x.fail.isNone ∧ d.more x) ∨ ¬ x.hostOut.isEmpty ∨ resultWaits x s then s
    else endDesc u d.irq (x.fail.getD 0) s

/-- Data under way from the Cistern comes to the pump (R283). -/
def bringIn (u : Fin 8) (s : State) : State :=
  let s := serve (pumpPort u) s
  if s.pump[u].asked then
    let (s, v, p) := awaitData (pumpPort u) .pump s
    modPump u (fun x => { x with asked := false, got := some (v, p) }) s
  else s

/-- A stopping pump completes the element in hand unless that waits on an endpoint: its data comes, and its one or two
parts move. -/
def completeElement (u : Fin 8) (d : Desc) (s : State) : State :=
  let s := bringIn u s
  let part (s : State) : State :=
    let x := s.pump[u]
    if x.fail.isNone ∧ (x.got.isSome ∨ x.half.isSome) ∧ destReady d x s then atClk x.next (moveOne u d) s else s
  serve (pumpPort u) (part (part s))

/-- A stopping pump writes back STOPPED, or the error that came first, and stops, once its host reads have ended
(R306, R312, R403). -/
def stoppingEnd (u : Fin 8) (s : State) : State :=
  if s.pump[u].state ≠ .stopping ∨ ¬ s.pump[u].hostOut.isEmpty then s
  else
    let s := match s.pump[u].desc with
      | some d =>
        let s := completeElement u d s
        let x := s.pump[u]
        if resultWaits x s then s else endDesc u d.irq (x.fail.getD 1) s
      | none => s
    modPump u (fun x => { x.clear with state := .stopped, lastCode := 1, fetching := false }) s

/-- Host data arrives, or an error (R312). -/
def hostCompletion (u : Fin 8) (r : HostRead) (s : State) : State :=
  match s.pump[u].hostOut with
  | [] => s
  | n :: rest =>
    let x := s.pump[u]
    match r with
    | .error =>
      let s := modPump u (fun x => { x with hostOut := rest }) s
      if x.fetching then modPump u (fun x => if x.state = .stopping then { x with fetching := false } else x.noFetch) s
      else if x.state = .stopping then s else failDesc u 4 s
    | .data l =>
      let l := l.take (n / 4)
      let left := n - 4 * l.length
      let s := modPump u (fun x => { x with
        hostOut := if left = 0 then rest else left :: rest, hostBuf := x.hostBuf ++ l }) s
      if x.state = .stopping ∨ x.fail.isSome then modPump u (fun x => { x with hostBuf := [], fetching := x.fetching && decide (left ≠ 0) }) s
      else if x.fetching ∧ left = 0 then
        let w := s.pump[u].hostBuf
        if w.any (·.2) then modPump u (fun x => { x.noFetch with hostBuf := [] }) s else takeDesc u (w.map (·.1)) s
      else s

def execPumpStart (p : Port) (u : Fin 8) (s : State) : Host.Outcome State Fault Refusal :=
  done (host p (fun s => let s := endDoze s; pumpCommand u (pumpStartStatus s.pump[u]) (fun x => { x with state := .run }) s) s)
def execPumpStop (p : Port) (u : Fin 8) (s : State) : Host.Outcome State Fault Refusal :=
  done (host p (fun s => pumpCommand u (pumpStopStatus s.pump[u]) Pump.stop s) s)
def execStoppingEnd (u : Fin 8) (s : State) : Host.Outcome State Fault Refusal := done (stoppingEnd u s)
def execPumpTailWrite (p : Port) (u : Fin 8) (v : BitVec 32) (s : State) : Host.Outcome State Fault Refusal :=
  done (host p (writeTail u (v.setWidth 16)) s)
def execDescriptorTake (u : Fin 8) (s : State) : Host.Outcome State Fault Refusal := done (descTake u s)
def execElementMove (u : Fin 8) (s : State) : Host.Outcome State Fault Refusal := done (elementMove u s)
def execDescriptorEnd (u : Fin 8) (s : State) : Host.Outcome State Fault Refusal := done (descEnd u s)
def execHostReadCompletion (u : Fin 8) (r : HostRead) (s : State) : Host.Outcome State Fault Refusal := done (hostCompletion u r s)

end Sys2Proof.Machine
end

