-- ==== Sys2Proof/Machine/Link.lean ====
section
/-! DEFINITION. Link: the line link: ports, link frames, time, domain wheels, agreement, joining,
messages (R366 to R397). -/

namespace Sys2Proof.Machine

/-! Ports (R367 to R370, R373, R391, R392). -/

/-- `UP` leaves UP: the device is the root of its subtree (R369, R374, R378, R391). -/
def upLost (s : State) : State :=
  let s := modLink (fun l => { l with
    stat := setBit l.stat 0 true, path := 0, tvalid := true, timef := false, mismatch := false,
    goodRun := 0, badRun := 0, stepDue := none, tvalidDue := false, takeDue := none }) s
  let s := modTb (fun t => { t with src := false, running := t.running && !s.sys.noref }) s
  if bit s.dom.mask 5 ∧ (s.dom.state = .run ∨ s.dom.state = .hold) then modDom (fun d => { d with safeNow := true }) s
  else s

/-- A port in UP leaves it for `st` (R367, R373, R391, R392). -/
def leaveUp (k : Fin 4) (st : PortState) (cause : BitVec 2) (s : State) : State :=
  let s := portTo k (fun x => { x with
    state := st, bcause := cause, ver := 0, loss := inc8 x.loss, frame := none, got := false, missed := 0, r := 0 }) s
  if k = 0 then upLost s
  else dropQueue k s

/-- A port takes a state other than UP. -/
def portDown (k : Fin 4) (st : PortState) (cause : BitVec 2) (s : State) : State :=
  if s.link.ports[k].state = .up then leaveUp k st cause s
  else portTo k (fun x => { x with state := st, bcause := cause, ver := 0 }) s

/-- LINK_CFG as it is stored (Table 13.7). -/
def linkCfgStored (v : Word) : Word :=
  let v := v &&& 0xFC00_FFFF
  let v := if fld v 27 26 = 0 ∨ fld v 27 26 = 3 then putFld v 27 26 2 else v
  let v := if fld v 15 8 = 0 then putFld v 15 8 1 else v
  if fld v 7 0 = 0 then putFld v 7 0 1 else v

/-- A write of LINK_CFG: a port enabled goes to DOWN, one disabled to OFF (R367). -/
def writeLinkCfg (v : Word) (s : State) : State :=
  let s := modLink (fun l => { l with cfg := linkCfgStored v }) s
  forAll 4 (fun k s =>
    if portEnabled s k then
      if s.link.ports[k].state = .off then portTo k (fun x => { x with state := .down }) s else s
    else portDown k .off 0 s) s

/-- Ports train from READY on, `UP` also while the PLL has not locked, from an internal oscillator (R367, R410, R411). -/
def portTrains (k : Fin 4) (s : State) : Bool := s.sys.ready || (decide (k = 0) && s.sys.coreOk && !s.tb.running)

/-- Training sets arrive (R367). -/
def trainingStart (k : Fin 4) (s : State) : State :=
  let x := s.link.ports[k]
  if portTrains k s ∧ (x.state = .down ∨ (x.state = .off ∧ portEnabled s k ∧ ¬ s.sys.ready)) then
    portTo k (fun x => { x with state := .train }) s
  else s

/-- The path of the child at `DN` port `k` (R370). -/
def Link.childPath (l : Link) (k : Fin 4) : BitVec 20 :=
  putFld (putFld l.path 19 16 (l.depth + 1)) (2 * l.depth + 1) (2 * l.depth) (k.val - 1)

/-- A device in REPLAY takes OBSERVE afterwards (R440). -/
def observeNow (s : State) : State :=
  if live s then setObserve true s else modLink (fun l => { l with obsDue := true }) s

/-- `UP` enters UP: joining begins (R374, R378, R389). A transition that this device has scheduled as a root, and that is
still pending, stays so: the model's choice (log 72). -/
def upJoins (s : State) : State :=
  observeNow (modTb (fun t => { t with src := true }) (modLink (fun l => { l with
    tvalid := false, timef := false, thetas := [], delays := [], goodRun := 0, badRun := 0, obsRun := 0,
    stepDue := none, tvalidDue := false, phase := 0 }) s))

/-- Training ends: UP, BLOCKED or DOWN (Table 13.1, R368, R370). -/
def portUp (k : Fin 4) (good partnerUp : Bool) (pv : BitVec 2) (s : State) : State :=
  if s.link.ports[k].state ≠ .train ∨ ¬ portTrains k s then s
  else if !good then portTo k (fun x => { x with state := .down }) s
  else if partnerUp = decide (k = 0) then portTo k (fun x => { x with state := .blocked, bcause := 3 }) s
  else if k ≠ 0 ∧ s.link.depth = 8 then portTo k (fun x => { x with state := .blocked, bcause := 1 }) s
  else if pv = 0 then portTo k (fun x => { x with state := .blocked, bcause := 2 }) s
  else
    let ver := BitVec.ofNat 2 (min pv.toNat (fld s.link.cfg 27 26))
    let s := portTo k (fun x => { x with state := .up, bcause := 0, ver := ver, missed := 0, got := false, frame := none, r := 0 }) s
    if k = 0 then upJoins s else s

/-- A port in UP is lost: its partner's signal goes, or the third frame without a link frame ends (R373). -/
def portLoss (k : Fin 4) (signal : Bool) (s : State) : State :=
  let x := s.link.ports[k]
  if x.state ≠ .up then s
  else if signal then leaveUp k .down 0 s
  else if 2 ≤ x.missed ∧ ¬ x.got then atBoundary (leaveUp k .down 0) s
  else s

/-- The message is for this device. -/
def isFor (m : LinkMsg) (l : Link) : Bool :=
  if m.bcast then decide (m.src ≠ l.path) else decide (m.dst = l.path)

/-! The contents of a link frame (R393). -/

/-- The mean of the measurements, rounded toward zero, saturating. -/
def meanWord (l : List Int) : Word :=
  BitVec.ofInt 32 (max (-(2 ^ 31)) (min (2 ^ 31 - 1) ((l.foldl (· + ·) 0).tdiv l.length)))

/-- `TIME_FAULT` begins (R378, R379). -/
def timeFault (s : State) : State :=
  let s := modLink (fun l => { l with tvalid := false, timef := true, tvalidDue := false, stat := setBit l.stat 1 true }) s
  let s := raiseFault 2 true 0 0 s
  forAll 4 (fun t s =>
    if s.wt[t].follows ∧ s.wt[t].st ≠ .stopped ∧ s.wt[t].st ≠ .lost then enterLost t 7 (commitDue t s) else s) s

/-- A step of whole frames is due, in `OBSERVE` or CONFIG (R376). -/
def askStep (theta : Int) (s : State) : State :=
  let n : Int := ((theta.natAbs + 32768) / 65536 : Nat)
  let s := modLink (fun l => { l with stepDue := some (if theta < 0 then -n else n) }) s
  if s.dom.state = .config ∨ s.dom.observe then s else observeNow s

/-- T64 units by which the phase may move in a frame (R377). -/
def Link.slew (l : Link) : Nat := if l.tvalid then fld l.tlim 6 0 else 64

/-- The phase of CCLK moves toward the parent, apart from a step (R377). -/
def Link.shift (theta : Int) (l : Link) : Link :=
  if 32768 ≤ theta.natAbs then l
  else { l with phase := l.phase - theta.sign * (min theta.natAbs l.slew : Nat) }

/-- The measurement of a frame in which both directions have accepted a link frame, with its tests (R375 to R378). -/
def measured (r1 r2 : Int) (parentValid : Bool) (s : State) : State :=
  let d := (r1 + r2).tdiv 2
  let theta := (r1 - r2 - s.link.hopadj.toInt).tdiv 2
  let limit := fld s.link.tlim 31 16
  let good := decide (2 * theta.natAbs ≤ limit) && parentValid
  let s := modLink (fun l =>
    let l := { l.shift theta with
      thetas := (theta :: l.thetas).take 16, delays := (d :: l.delays).take 16,
      goodRun := if good then l.goodRun + 1 else 0
      badRun := if limit < theta.natAbs then l.badRun + 1 else 0 }
    { l with tofs := meanWord l.thetas, hopdly := meanWord l.delays,
             tvalidDue := l.tvalidDue || (!l.tvalid && decide (16 ≤ l.goodRun)) }) s
  if 32768 ≤ theta.natAbs ∧ s.link.thetas.length = 16 then askStep theta s else s

/-- An accepted frame of the parent: its reply, if the parent had one, makes a measurement, else the runs of frames are
broken; the tests for `TIME_FAULT` (R375, R378). -/
def measure (r1 : Int) (r2 : Option Int) (parentValid : Bool) (s : State) : State :=
  let s := match r2 with
    | some r2 => measured r1 r2 parentValid s
    | none => modLink (fun l => { l with goodRun := 0, badRun := 0 }) s
  if s.link.tvalid ∧ (4 ≤ s.link.badRun ∨ ¬ parentValid) then timeFault s else s

/-- The digest comparison (R387). -/
def compareDigest (c : DownCtl) (s : State) : State :=
  modLink (fun l =>
    let l := { l with rootdig := c.digest, rootver := c.version }
    if l.digest = c.digest ∧ l.dverAct = c.version then { l with mismatch := false }
    else { l with mismatch := true, stat := setBit l.stat 2 true, obsDue := true }) s

/-- The root's domain state (R388). A broadcast without a pending transition withdraws the one taken before: the root has
discarded it, or the device has made it (log 69). -/
def heedRoot (c : DownCtl) (s : State) : State :=
  let old := s.link.rootCtl
  let s := modLink (fun l => { l with rootCtl := c }) s
  if judgedState s = .safe ∨ s.dom.observe ∨ s.link.obsDue then s
  else if c.pend then
    if old.pend ∧ old.pstate = c.pstate ∧ old.eff = c.eff then s
    else modDom (fun d => { d with pend := true, pstate := .ofCode c.pstate.toNat, eff := c.eff }) s
  else
    let s := modDom (fun d => { d with pend := false }) s
    if s.dom.state = .ofCode c.state.toNat then s
    else modLink (fun l => { l with takeDue := some (.ofCode c.state.toNat) }) s

/-- A follower takes the tooth that a slot carries, with the changes of its state (R192, R384). -/
def followTooth (t : Fin 4) (v : WheelSlot) (changes : List (TrkState × TrkState × Nat)) (s : State) : State :=
  let s := commitDue t s
  let shown := s.wt[t].published s.tb.now
  let s := modWt t (fun x => { x.keepPrediction s.tb.clk with
    followN := v.nm1.toNat + 1, slotStamp := some v.stamp, p := v.e.toNat, e := v.e.toNat, a := v.a.toInt
    teeth := if v.syn then x.teeth else x.teeth + 1
    synth := if v.syn then inc8 x.synth else x.synth
    stat := if v.syn then setBit x.stat 4 true else x.stat }) s
  publish t ⟨v.syn, v.big, false, .none, s.wt[t].st, true, v.stamp, v.idx.toNat, v.rev⟩ changes shown
    (recordTooth t (b2n v.syn) v.big v.stamp v.idx.toNat v.rev s)

/-- A follower shows a state that it enters (R384): SYNCED sets SYNC, HOLDOVER sets HOLD. -/
def followEnter (t : Fin 4) (st : TrkState) (s : State) : State :=
  showTrk t st (modWt t (fun x => { x with stat := setBit x.stat (if st = .holdover then 1 else 0) true }) s)

/-- A follower takes a slot of an accepted frame; the slot's state carries over (R384, R385). -/
def followSlot (t : Fin 4) (v : WheelSlot) (s : State) : State :=
  let x := s.wt[t]
  let tracked := decide (v.st = 2 ∨ v.st = 3)
  match x.st with
  | .seeking =>
    if tracked ∧ ¬ s.link.timef then
      let s := followEnter t .synced (modWt t (fun x => { x with followN := v.nm1.toNat + 1, issuedTo := [] }) s)
      if v.st = 3 then followTooth t v [(.seeking, .synced, 0), (.synced, .holdover, 0)] (followEnter t .holdover s)
      else followTooth t v [(.seeking, .synced, 0)] s
    else s
  | .synced | .holdover =>
    if !tracked then enterLost t 7 (commitDue t s)
    else if x.slotStamp = some v.stamp then s
    else
      let new : TrkState := if v.st = 3 then .holdover else .synced
      followTooth t v [(x.st, new, 0)] (if x.st = new then s else followEnter t new s)
  | _ => s

/-- A slot acts: recorded when a tracker that is not STOPPED follows it (R393). -/
def actSlot (w : Fin 16) (v : WheelSlot) (s : State) : State :=
  let uses (t : Fin 4) (s : State) : Bool :=
    s.wt[t].follows && decide (s.wt[t].st ≠ .stopped ∧ s.link.follow[t].toNat = w.val)
  if (List.finRange 4).any fun t => uses t s then
    let s := recordIn 13 w s.tb.now (slotQuad v 0)
      ((List.range 2).map fun i => mkRec 14 i s.tb.now (slotQuad v (i + 1))) s
    forAll 4 (fun t s => if uses t s then followSlot t v s else s) s
  else s

/-- The device's path follows the one its parent assigns (R370). -/
def takePath (p : BitVec 20) (s : State) : State :=
  let s := modLink (fun l => { l with path := p }) s
  if s.link.depth = 8 then
    forAll 4 (fun k s => if k ≠ 0 ∧ s.link.ports[k].state = .up then leaveUp k .blocked 1 s else s) s
  else s

/-- The contents of an accepted frame of port `k` act, in the order of R393. -/
def actContents (k : Fin 4) (f : LinkFrame) (s : State) : State :=
  let s := if k = 0 then
      heedRoot f.down (compareDigest f.down (measure s.link.ports[k].r f.down.r2 f.tvalid (takePath f.down.path s)))
    else s
  let slotTaken (w : Fin 16) (s : State) : Bool :=
    if k = 0 then true else isRoot s && decide (s.link.slotFrom[w] = some k.val)
  let s := forAll 16 (fun w s => if slotTaken w s then actSlot w f.slots[w] s else s) s
  (s.link.ports[k].msgs f).foldl (fun s m =>
    forwardMsg (some k) m (if isFor m s.link then deliverMsg k m s else s)) s

/-- The frame that port `k` accepted in the previous frame acts, in cycle 1 (R393). -/
def linkFrameAct (k : Fin 4) (s : State) : State :=
  let x := s.link.ports[k]
  match x.frame with
  | some f =>
    if x.got ∨ x.state ≠ .up ∨ ¬ live s then s
    else
      atClk (if frameCycle s = 0 then s.tb.clk + 1 else s.tb.clk) (fun s =>
        actContents k f (modPort k (fun x => { x with frame := none }) s)) s
  | none => s

/-- A link frame comes in on port `k` (R372, R375); in REPLAY it is discarded (R440). -/
def linkFrameReceive (k : Fin 4) (f : LinkFrame) (s : State) : State :=
  if s.link.ports[k].state ≠ .up ∨ ¬ live s then s
  else if !f.marker || !f.codeOk then modPort k (fun x => { x with code := inc8 x.code }) s
  else if !f.crcOk then modPort k (fun x => { x with crc := inc8 x.crc }) s
  else
    let r := ((f.stamp - (f.frame.setWidth 64 <<< 16)).setWidth 48).toInt
    modPort k (fun x => { x with got := true, frame := some f, r := r }) (linkFrameAct k s)

/-! What the link does at a frame boundary. -/

/-- The state message of a tracker (R21 step 4, Table 13.3). -/
def Trk.slot (x : Trk) : WheelSlot :=
  { st := BitVec.ofNat 3 (if x.lostNow then 4 else x.st.code), syn := x.baseSynth, big := x.baseBig
    rev := (x.baseA >>> 48).setWidth 8, idx := x.tooth, nm1 := BitVec.ofNat 12 (x.n - 1), stamp := x.toothAt
    e := BitVec.ofNat 48 x.e, a := BitVec.ofInt 40 (max (-(2 ^ 39)) (min (2 ^ 39 - 1) x.a)) }

/-- The slot the device itself fills (R381). -/
def ownSlot (s : State) (w : Fin 16) : WheelSlot :=
  let l := s.link
  let v := l.wheelAct[w]
  let x := s.wt[fld v 23 22 % 4]'(by omega)
  if bit v 31 ∧ fld v 19 0 = l.path.toNat ∧ x.active ∧
      (isRoot s ∨ (l.digest = l.rootdig ∧ l.dverAct = l.rootver)) then x.slot else {}

/-- The frame that port `k` accepted in the frame that has just ended. -/
def lately (s : State) (k : Fin 4) : Option LinkFrame :=
  if s.link.ports[k].state = .up ∧ s.link.ports[k].got then s.link.ports[k].frame else none

/-- What fills slot `w`: own, `DN0`, `DN1`, `DN2`, in that order (R381). -/
def slotSources (s : State) (w : Fin 16) : List (Nat × WheelSlot) :=
  (List.finRange 4).filterMap fun k =>
    let v : WheelSlot := if k = 0 then ownSlot s w else match lately s k with | some f => f.slots[w] | none => {}
    if v.st = 0 then none else some (k.val, v)

/-- The device's own contribution to the summary, and the sums of its `DN` ports (R390). -/
def subtree (s : State) : SubtreeSum :=
  let own : SubtreeSum := { devices := 1, observe := b2n s.dom.observe, safe := b2n (decide (s.dom.state = .safe)), timef := b2n s.link.timef }
  let sum := ([1, 2, 3] : List (Fin 4)).foldl (fun (a : SubtreeSum) k => match lately s k with
    | some f => { devices := a.devices + f.up.devices, observe := a.observe + f.up.observe,
                  safe := a.safe + f.up.safe, timef := a.timef + f.up.timef }
    | none => a) own
  { devices := min 4097 sum.devices, observe := min 4097 sum.observe, safe := min 4097 sum.safe, timef := min 4097 sum.timef }

/-- The root's broadcast: of two pending transitions, SAFE until its effective frame (R31, R387, R388; log 69). -/
def rootBroadcast (s : State) : DownCtl :=
  let c : DownCtl := { state := BitVec.ofNat 3 s.dom.state.code, digest := s.link.digest, version := s.link.dverAct }
  match s.dom.bcast.filter fun e => decide ((frame s - e).toInt < 0) with
  | some e => { c with pend := true, pstate := 4, eff := e }
  | none => if s.dom.pend then { c with pend := true, pstate := BitVec.ofNat 3 s.dom.pstate.code, eff := s.dom.eff } else c

/-- The link frame that port `k` sends, but for its messages (R371, R375, R382, R388, R390). -/
def makeFrame (s : State) (merged : Vector WheelSlot 16) (k : Fin 4) : LinkFrame :=
  let x := s.link.ports[k]
  let head : LinkFrame := { frame := (frame s).setWidth 32, path := s.link.path, tvalid := s.link.tvalid, version := x.ver }
  if k = 0 then { head with slots := merged, up := s.link.sum }
  else
    let c := if isRoot s then rootBroadcast s else match lately s 0 with | some f => f.down | none => s.link.rootCtl
    { head with
      slots := if isRoot s then merged else match lately s 0 with | some f => f.slots | none => Vector.replicate 16 {}
      down := { c with r2 := (lately s k).map fun _ => x.r, path := s.link.childPath k } }

/-- Follower `t` has gone a frame without its slot (R385); a slot that replay feeds is there (R442). -/
def slotMissing (s : State) (t : Fin 4) : Bool :=
  if bit s.link.fed s.link.follow[t].toNat then false
  else if isRoot s then
    let w := s.link.follow[t].toFin
    !((slotSources s w).head?.any fun p => decide (p.1 ≠ 0))
  else (lately s 0).isNone

/-- Followers whose data has gone stale (R385). -/
def followers (s : State) : State :=
  forAll 4 (fun t s =>
    let n := if slotMissing s t then s.link.stale[t] + 1 else 0
    let s := modLink (fun l => { l with stale := l.stale.set t n }) s
    let x := s.wt[t]
    if x.follows ∧ (x.st = .synced ∨ x.st = .holdover) ∧ fld s.link.cfg 7 0 ≤ n then enterLost t 7 (commitDue t s) else s) s

/-- The conditions of R389 hold, but for their number of frames. -/
def observeOk (s : State) : Bool :=
  s.dom.observe && s.link.tvalid && !s.link.mismatch && decide (judgedState s ≠ .safe) && !faultActive s && live s

/-- OBSERVE ends; the root's state and its pending transition are taken in the same cycle (R389), at a boundary at which
no other transition has taken effect (R23). A device that takes SAFE takes no pending transition with it: none leads it out
of SAFE (R29, R388). A transition so taken whose effective frame is this very one comes a frame later, and is LATE: the model's
choice (log 76). -/
def leaveObserve (s : State) : State :=
  if s.dom.movedIn = some (frame s) then s
  else
    let s := modLink (fun l => { l with obsRun := 0 }) s
    if isRoot s then setObserve false s
    else
      let c := s.link.rootCtl
      let s := modDom (fun d => { d with
        pend := c.pend && decide (c.state ≠ 4), pstate := .ofCode c.pstate.toNat, eff := c.eff }) s
      if s.dom.state = .ofCode c.state.toNat then setObserve false s
      else moveDomain (.ofCode c.state.toNat) (modDom (fun d => { d with observe := false }) s)

/-- OBSERVE, TVALID and their counts at a boundary (R378, R389). -/
def joinBoundary (s : State) : State :=
  let ok := observeOk s
  let s := modLink (fun l => { l with obsRun := if ok then l.obsRun + 1 else 0 }) s
  let s := if ok ∧ fld s.link.cfg 15 8 ≤ s.link.obsRun then leaveObserve s else s
  modLink (fun l => if l.tvalidDue then { l with tvalid := true, timef := false, tvalidDue := false } else l) s

/-- A frame has passed at each port in UP (R373). -/
def countMissed (s : State) : State :=
  forAll 4 (fun k s =>
    let x := s.link.ports[k]
    if x.state ≠ .up then s
    else if x.got then modPort k (fun x => { x with missed := 0 }) s
    else if 2 ≤ x.missed then leaveUp k .down 0 s
    else
      let s := modPort k (fun x => { x with missed := x.missed + 1 }) s
      if k = 0 then modLink (fun l => { l with goodRun := 0, badRun := 0 }) s else s) s

/-- The line link's part of a frame boundary (R21, R371, R373, R381, R382, R385, R389, R390). The frames that it makes
leave with their messages once those of the frame that has ended have acted (R393). -/
def linkBoundary (s : State) : State :=
  let s := joinBoundary (countMissed s)
  let s := followers s
  let src := Vector.ofFn (slotSources s)
  let merged := src.map fun l => match l with | p :: _ => p.2 | [] => ({} : WheelSlot)
  let sum := subtree s
  let s := modLink (fun l => { l with
    sum := sum, oversize := isRoot s && decide (4096 < sum.devices)
    slotFrom := src.map fun c => c.head?.map (·.1)
    stat := if src.any (fun c => decide (1 < c.length)) then setBit l.stat 7 true else l.stat }) s
  let s := defer (.linkOut 1) (modLink (fun l => { l with
    fed := 0, sending := Vector.ofFn fun k => if l.ports[k].state = .up then some (makeFrame s merged k) else none }) s)
  let s := forAll 4 (fun k s => modPort k (fun x => { x with got := false }) s) s
  forAll 4 (fun t s => modWt t (fun x => { x with
    active := decide (x.st = .synced ∨ x.st = .holdover ∨ x.st = .lost), lostNow := false }) s) s

/-! Steps, joining, staleness. -/

/-- TB64 steps by whole frames at the next boundary (R376); stamps taken before it move with it. -/
def tbStep (s : State) : State :=
  match s.link.stepDue with
  | none => s
  | some n => atBoundary (fun s =>
    let d : Int := n * 65536
    let s := moveTb (s.tb.now - BitVec.ofInt 64 d) true s
    let s := forAll 4 (fun k s => modPort k (fun x => { x with r := x.r - d }) s) s
    let s := modPort 0 (fun x => { x with frame := x.frame.map fun f => { f with down := { f.down with r2 := f.down.r2.map (· + d) } } }) s
    modLink (fun l => { l with stepDue := none, stat := setBit l.stat 3 true }) s) s

/-- The last of `OBS_F` good frames ends (R389). -/
def observeExit (s : State) : State :=
  if observeOk s ∧ fld s.link.cfg 15 8 ≤ s.link.obsRun + 1 then atBoundary leaveObserve s else s

/-- The last of `STALE_F` frames without data ends (R385). -/
def followStale (t : Fin 4) (s : State) : State :=
  let x := s.wt[t]
  if x.follows ∧ (x.st = .synced ∨ x.st = .holdover) ∧ slotMissing s t ∧ fld s.link.cfg 7 0 ≤ s.link.stale[t] + 1 then
    atBoundary (fun s => enterLost t 7 (commitDue t s)) s
  else s

/-! Commands (R386, R395, R397). -/

def linkAnswer (st : CmdStatus) (s : State) : State :=
  refuse (bit s.link.ie 16) st (modLink (fun l => { l with cmd := l.cmd.answer st }) s)

/-- The digest of the staged configuration (R386). -/
def Link.stagedDigest (l : Link) : Word :=
  crc32 ((l.dcfgWheel.toList ++ l.dcfgUser.toList).flatMap wordOctets)

def commitStatus (s : State) : CmdStatus := if s.dom.state = .config ∨ s.dom.observe then .ok else .stateRefused
/-- `COMMIT` (R386, R424). -/
def linkCommit (s : State) : State :=
  let st := commitStatus s
  if st = .ok then
    let s := modLink (fun l => { l with wheelAct := l.dcfgWheel, dverAct := l.dver, digest := l.stagedDigest }) s
    let s := if s.sys.vkeepOk then modCalm (fun c => { c with digest := s.link.digest, dver := s.link.dverAct }) s else s
    linkAnswer st s
  else linkAnswer st s

/-- The staged message, with the device as its source (R394). -/
def Link.staged (l : Link) : LinkMsg :=
  { bcast := bit l.txh 31, type := BitVec.ofNat 8 (fld l.txh 27 20), dst := l.txh.setWidth 20, src := l.path, data := l.txd }
def sendStatus (s : State) : CmdStatus := if 8 ≤ s.link.txq.length then .stateRefused else .ok
def linkSend (s : State) : State :=
  let st := sendStatus s
  linkAnswer st (if st = .ok then modLink (fun l => { l with txq := l.txq ++ [l.staged] }) s else s)
def rxpopStatus (s : State) : CmdStatus := if s.link.rxq.isEmpty then .stateRefused else .ok
def linkRxpop (s : State) : State :=
  linkAnswer (rxpopStatus s) (modLink (fun l => { l with rxq := l.rxq.drop 1 }) s)

def execLinkCfgWrite (p : Port) (v : BitVec 32) (s : State) : Host.Outcome State Fault Refusal := done (host p (writeLinkCfg v) s)
def execTrainingStart (k : Fin 4) (s : State) : Host.Outcome State Fault Refusal := done (trainingStart k s)
def execPortUp (k : Fin 4) (good : Bool) (partnerUp : Bool) (pv : BitVec 2) (s : State) : Host.Outcome State Fault Refusal :=
  done (portUp k good partnerUp pv s)
def execPortLoss (k : Fin 4) (signal : Bool) (s : State) : Host.Outcome State Fault Refusal := done (portLoss k signal s)
def execLinkFrameReceive (k : Fin 4) (f : LinkFrame) (s : State) : Host.Outcome State Fault Refusal := done (linkFrameReceive k f s)
def execLinkFrameAct (k : Fin 4) (s : State) : Host.Outcome State Fault Refusal := done (linkFrameAct k s)
def execTbStep (s : State) : Host.Outcome State Fault Refusal := done (tbStep s)
def execObserveExit (s : State) : Host.Outcome State Fault Refusal := done (observeExit s)
def execFollowStale (t : Fin 4) (s : State) : Host.Outcome State Fault Refusal := done (followStale t s)
def execLinkCommit (p : Port) (s : State) : Host.Outcome State Fault Refusal := done (host p linkCommit s)
def execLinkSend (p : Port) (s : State) : Host.Outcome State Fault Refusal := done (host p linkSend s)
def execLinkRxpop (p : Port) (s : State) : Host.Outcome State Fault Refusal := done (host p linkRxpop s)
/-- The partner signal of a BLOCKED port goes (Table 13.1). -/
def execPartnerSignalLoss (k : Fin 4) (s : State) : Host.Outcome State Fault Refusal :=
  done (if s.link.ports[k].state = .blocked then portDown k .down 0 s else s)

end Sys2Proof.Machine
end

