-- ==== Sys2Proof/Machine/Rec.lean ====
section
/-! DEFINITION. Rec: the recorder's ring and commands, and replay (R428 to R447). -/

namespace Sys2Proof.Machine

def Recorder.wrap (r : Recorder) : Bool := bit r.cfg 28
/-- The level of the ring, modulo 2^18 (R435). -/
def Recorder.level (r : Recorder) : Nat := (r.wr - r.rd).toNat

/-- A change of the ring's counters; a rise of the level to the watermark is a crossing (R435). -/
def recLevel (f : Recorder → Recorder) (s : State) : State :=
  let x := s.rcd
  let y := f x
  if x.wrap ∨ x.wm = 0 ∨ x.wm.toNat ≤ x.level ∨ y.level < x.wm.toNat then modRcd (fun _ => y) s
  else pulse 441 (modRcd (fun _ => { y with stat := setBit y.stat 3 true, cross := inc8 y.cross }) s)

def recAnswer (st : CmdStatus) (s : State) : State :=
  refuse (bit s.rcd.ie 16) st (modRcd (fun r => { r with cmd := r.cmd.answer st }) s)

/-! Recording. -/

/-- A recording or replay that is about to begin leaves the recorder IDLE until its boundary: the later command replaces
the earlier one (log 46). -/
def recStartStatus (s : State) : CmdStatus :=
  if s.rcd.state = .idle ∧ s.dom.state = .config ∧ fld s.cis.banks[s.rcd.bank].own 31 30 = 3 then .ok else .stateRefused

/-- `START` (Table 15.2); a host START ends DOZE (R415). -/
def recStart (s : State) : State :=
  let s := endDoze s
  let st := recStartStatus s
  recAnswer st (if st = .ok then modRcd (fun r => { r with wr := 0, rd := 0, startDue := true, replayDue := none }) s else s)

/-- A `TIME` record of this boundary (R429); no mask selects it. -/
def timeRecord (s : State) : State :=
  let hi : BitVec 16 := (s.tb.now >>> 48).setWidth 16
  modRcd (fun r => { (r.append s.tb.clk s.tb.now [mkRec 1 0 s.tb.now (hi.setWidth 64)]) with timeHi := hi }) s

/-- Recording begins at this boundary (R429). -/
def recordingBegin (s : State) : State :=
  if s.rcd.startDue then
    timeRecord (modRcd (fun r => { r with
      state := .record, startDue := false, frozen := false, lossPend := 0, queue := [], fresh := 0, origin := frame s }) s)
  else s

/-- A pin that replay has held safe is held as by row 3, and takes its row from there (R242, R440). -/
def unhold (p : Fin 288) (s : State) : State :=
  if s.pin[p].row < 3 then s
  else refreshPin p (modPin p (fun x => { x.cutPulse s.tb.now x.safeLevel with row := 3, lvl := x.safeLevel }) s)

/-- `STOP` of a replay, or its end by a divergence (R437, R444). -/
def endReplay (s : State) : State :=
  forAll 288 unhold (modRcd (fun r => { r with state := .idle, replayQ := [], inject := [], expect := [], extra := [] }) s)

def recStopStatus (s : State) : CmdStatus :=
  if s.rcd.state = .idle ∨ s.rcd.state = .drain then .stateRefused else .ok
/-- `STOP` (Table 15.2). -/
def recStop (s : State) : State :=
  let st := recStopStatus s
  recAnswer st (match s.rcd.state with
    | .record => modRcd (fun r => { r with state := .drain, frozen := false }) s
    | .replay => endReplay s
    | _ => s)

def recFreezeStatus (s : State) : CmdStatus :=
  if s.rcd.state = .record ∧ s.rcd.wrap ∧ ¬ s.rcd.frozen then .ok else .stateRefused
/-- `FREEZE` (R436). -/
def recFreeze (s : State) : State :=
  let st := recFreezeStatus s
  recAnswer st (if st = .ok then modRcd Recorder.freeze s else s)

/-- The records after the trigger have been taken (R436). -/
def postCountDone (s : State) : State :=
  if s.rcd.state = .record ∧ s.rcd.frozen ∧ s.rcd.postLeft = 0 then
    modRcd (fun r => { r with state := .drain, frozen := false }) s
  else s

/-- The two words of a record (R428). -/
def Record.words (r : Record) : BitVec 64 × BitVec 64 :=
  (join (lo32 (r.stamp.setWidth 64)) (pack [(r.type.toNat, 26), (r.unit.toNat, 16), (fld r.stamp 47 32, 0)]), r.data)

/-- The head of the queue goes to the ring as two writes of port 24. -/
def writeHead (s : State) : State :=
  let r := s.rcd
  match r.queue with
  | [] => s
  | x :: rest =>
    let w := r.bank.val * 2 ^ 18 + 2 * (r.wr.toNat % 131072)
    let s := enqueue ⟨24, w, .write x.words.1 false, .none⟩ s
    let s := enqueue ⟨24, w + 1, .write x.words.2 false, .none⟩ s
    recLevel (fun r => { r with
      queue := rest, fresh := min r.fresh rest.length, wr := r.wr + 1, writeAt := s.tb.clk + 1 }) s

/-- A record of the queue goes to the ring, one a cycle, when there is room and the one before has left (R432, R433). -/
def recordWrite (s : State) : State :=
  let r := s.rcd
  if r.queue.isEmpty ∨ ¬ (r.state = .record ∨ r.state = .drain) ∨ (¬ r.wrap ∧ r.level = 131072) ∨ (headOf s 24).isSome then s
  else atClk r.writeAt writeHead s

/-- DRAIN ends when every record has been written (R438). -/
def drainEnd (s : State) : State :=
  if s.rcd.state = .drain ∧ s.rcd.queue.isEmpty ∧ (headOf s 24).isNone then
    pulse 442 (modRcd (fun r => { r with state := .idle }) s)
  else s

/-! Replay (R439 to R444). -/

def recReplayStatus (s : State) : CmdStatus :=
  if s.rcd.state = .idle ∧ s.dom.state = .config ∧ isRoot s ∧
      !(([1, 2, 3] : List (Fin 4)).any fun k => decide (s.link.ports[k].state = .up)) then .ok
  else .stateRefused
/-- `REPLAY` (Table 15.2). -/
def recReplay (s : State) : State :=
  let st := recReplayStatus s
  recAnswer st (if st = .ok then modRcd (fun r => { r with replayDue := some (frame s + 1), startDue := false, divSeen := false }) s else s)

/-- Replay begins at this boundary: the inputs read 0, the pins are safe (R439, R440). -/
def replayBegin (s : State) : State :=
  if s.rcd.replayDue.isSome then
    let s := modRcd (fun r => { r with
      state := .replay, replayDue := none, shift := (frame s - r.origin).setWidth 64 <<< 16,
      replayHi := (r.origin >>> 32).setWidth 16, inject := [], expect := [], extra := [] }) s
    let s := { s with pin := Vector.ofFn fun p => s.pin[p].take s.tb.now (shownDrive s p s.pin[p].ball) }
    refreshPins { s with ch := s.ch.map (fun c => { c with level := false }), wt := s.wt.map (fun x => { x with level := false }) }
  else s

/-- The replay queue takes a record (R441). -/
def rpqAppend (v : Word) (s : State) : State :=
  let q := s.rcd.rpq
  if 512 ≤ s.rcd.replayQ.length then modRcd (fun r => { r with stat := setBit r.stat 6 true }) s
  else
    let x : Record := { type := BitVec.ofNat 6 (fld q[0] 31 26), unit := BitVec.ofNat 10 (fld q[0] 25 16)
                        stamp := (q[0].setWidth 16) ++ q[1], data := join v q[2] }
    modRcd (fun r => { r with replayQ := r.replayQ ++ [x] }) s

/-- A divergence (R444): kinds 1 EXTRA, 2 MISSING, 3 LATEIN. -/
def diverge (kind : Nat) (x : Record) (t : Stamp) (s : State) : State :=
  let s := modRcd (fun r => { r with
    dcnt := addSat r.dcnt 1, stat := setBit r.stat 4 true, divSeen := true
    div := if r.divSeen then r.div
      else #v[pack [(kind, 30), (x.type.toNat, 10), (x.unit.toNat, 0)], lo32 x.data, lo32 t, hi32 t] }) s
  if bit s.rcd.cfg 27 then endReplay s else s

/-- The types of Table 15.1: inputs, and what is compared. -/
def Record.isInput (x : Record) : Bool :=
  [2, 3, 7, 8, 9, 10, 11, 12, 13, 14, 15].contains x.type.toNat
def Record.isCompared (x : Record) : Bool := [4, 5, 6, 0x10].contains x.type.toNat
/-- A record of a group that follows its head, and how many follow a head. -/
def Record.isTail (x : Record) : Bool := decide (x.type = 8 ∨ x.type = 14)
def Record.tails (x : Record) : Nat := if x.type = 7 then 8 else if x.type = 12 then 4 else if x.type = 13 then 2 else 0

/-- The replay time of a record (R439). -/
def Recorder.replayTime (r : Recorder) (x : Record) : Stamp := (r.replayHi ++ x.stamp : BitVec 64) + r.shift
/-- The cycle of its injection: an edge acts at its qualification (R442). -/
def Record.actsAt (x : Record) (t : Stamp) : Stamp :=
  if x.type = 2 ∨ x.type = 3 then coarse t + BitVec.ofNat 64 (fld x.data 31 0 * 64) else t

/-- The head of the replay queue moves on, if there is room (R441, R442, R443). -/
def replayQueueMove (s : State) : State :=
  let r := s.rcd
  match r.replayQ with
  | [] => s
  | x :: rest =>
    if r.state ≠ .replay then s
    else
      let t := r.replayTime x
      let drop := modRcd (fun r => { r with replayQ := rest })
      if x.type = 1 then modRcd (fun r => { r with replayQ := rest, replayHi := x.data.setWidth 16 }) s
      else if x.isInput then
        if 64 ≤ r.inject.length then s
        else
          let s := modRcd (fun r => { r with replayQ := rest, inject := r.inject ++ [(x, t)] }) s
          if later (coarse s.tb.now) (coarse (x.actsAt t)) then
            diverge 3 x t (modRcd (fun r => { r with stat := setBit r.stat 5 true }) s)
          else s
      else if x.isCompared then
        let same (q : Record × Stamp × Nat) : Bool :=
          decide (q.1.type = x.type ∧ q.1.unit = x.unit ∧ q.1.data = x.data ∧ q.2.1 = t)
        if r.extra.any same then modRcd (fun r => { r with replayQ := rest, extra := r.extra.eraseP same }) s
        else if 64 ≤ r.expect.length then s
        else modRcd (fun r => { r with replayQ := rest, expect := r.expect ++ [(x, t)] }) s
      else drop s

/-- The earliest head of a group in the injection set, by its place. -/
def earliest (l : List (Record × Stamp)) : Option Nat :=
  ((List.range l.length).filter fun i => match l[i]? with | some q => !q.1.isTail | none => false).foldl
    (fun b i => match b with
      | none => some i
      | some j => match l[i]?, l[j]? with
        | some p, some q => if later (q.1.actsAt q.2) (p.1.actsAt p.2) then some i else some j
        | _, _ => some j) none

/-- The quadwords of the records that follow a head. -/
def tailData (tail : List (Record × Stamp)) (i : Nat) : BitVec 64 := match tail[i]? with | some q => q.1.data | none => 0

/-- A slot from its 24 bytes (Table 13.3). -/
def slotOf (a b c : BitVec 64) : WheelSlot :=
  { st := BitVec.ofNat 3 (fld a 7 5), syn := bit a 4, big := bit a 3, rev := BitVec.ofNat 8 (fld a 15 8)
    idx := BitVec.ofNat 12 (fld a 27 16), nm1 := BitVec.ofNat 12 (fld a 39 28)
    stamp := BitVec.ofNat 64 (fld a 63 40 + fld b 39 0 * 2 ^ 24)
    e := BitVec.ofNat 48 (fld b 63 40 + fld c 23 0 * 2 ^ 24), a := BitVec.ofNat 40 (fld c 63 24) }

/-- A message from LINK_RXH and its payload. -/
def msgOf (h : BitVec 64) (tail : List (Record × Stamp)) : LinkMsg :=
  { bcast := bit h 30, type := BitVec.ofNat 8 (fld h 27 20), src := BitVec.ofNat 20 (fld h 19 0)
    data := Vector.ofFn fun (i : Fin 8) => let q := tailData tail (i.val / 2); if i.val % 2 = 0 then lo32 q else hi32 q }

/-- A recorded conversion takes the place of the converter's own (R440): words 2 and 3 are the replay
stamp, or an angle that the record does not carry. A plausibility record is that of the open round: the model's choice (log 90). -/
def injectConv (c : Fin 2) (data : BitVec 64) (t : Stamp) (s : State) : State :=
  if fld data 63 61 = 3 then
    deliver c s.scs.round ⟨lo32 data, hi32 data, lo32 t, Config.replayAngle s.free⟩ { s with free := s.free + 1 }
  else deliver c s.scs.round ⟨lo32 data, hi32 data, lo32 t, hi32 t⟩ s

/-- An input record acts as the event it records (R442). -/
def actRecord (x : Record) (t : Stamp) (tail : List (Record × Stamp)) (s : State) : State :=
  let u := x.unit.toNat
  let four : Fin 4 := Fin.ofNat 4 u
  match x.type.toNat with
  | 2 =>
    let n : Fin 256 := Fin.ofNat 256 u
    -- a record is an edge, whatever level replay began with
    let (s, taken) := filteredEdge n (bit x.data 32) t (modCh n (fun c => { c with level := !bit x.data 32 }) s)
    if taken then lineEdges n t s else s
  | 3 =>
    let l := (List.finRange 4).filter fun k => !s.wt[k].follows && decide (s.wt[k].wsel.val = u)
    if bit x.data 32 then filteredLead l t s else l.foldl (fun s k => filteredTrail k t s) s
  | 7 =>
    if s.job[four].en then takeRecord four (Vector.ofFn fun i : Fin 8 => tailData tail i.val) false s else s
  | 9 => verdictFor four (lo32 x.data) (fld x.data 35 32) s
  | 10 => injectConv (Fin.ofNat 2 u) x.data t s
  | 11 => post (Fin.ofNat 16 (u / 8)) (40 + u % 8) (lo32 x.data) s
  | 12 => deliverMsg 0 (msgOf x.data tail) s
  | 13 =>
    let w : Fin 16 := Fin.ofNat 16 u
    actSlot w (slotOf x.data (tailData tail 0) (tailData tail 1)) (modLink (fun l => { l with fed := setBit l.fed w true }) s)
  | 15 =>
    let s := enterDomain (.ofCode (fld x.data 2 0)) s
    setObserve (bit x.data 3) s
  | _ => s

/-- The earliest complete group of the injection set acts in its replay cycle (R442). -/
def inputInjection (s : State) : State :=
  let l := s.rcd.inject
  if s.rcd.state ≠ .replay then s
  else match earliest l with
  | none => s
  | some i =>
    match l[i]? with
    | none => s
    | some (x, t) =>
      let tail := ((l.drop (i + 1)).takeWhile fun q => q.1.isTail).take x.tails
      if tail.length < x.tails then s
      else
        atTime (x.actsAt t) (fun s =>
          actRecord x t tail (modRcd (fun r => { r with inject := l.take i ++ l.drop (i + 1 + x.tails) }) s)) s

/-- An entry whose 1,024 cycles are over first: the cycles left, and what its divergence does. -/
def sooner {α : Type} (a b : Option (Int × α)) : Option (Int × α) :=
  match a, b with
  | some p, some q => if q.1 < p.1 then some q else some p
  | some p, none => some p
  | none, q => q

/-- An output event that has stayed unmatched is a divergence (R443). -/
def extraDiverges (q : Record × Stamp × Nat) (s : State) : State :=
  diverge 1 q.1 q.2.1 (modRcd (fun r => { r with extra := r.extra.erase q }) s)
/-- So is an expected record. -/
def missingDiverges (q : Record × Stamp) (s : State) : State :=
  diverge 2 q.1 q.2 (modRcd (fun r => { r with expect := r.expect.erase q }) s)

/-- 1,024 cycles after the cycle of an unmatched event, or the replay time of an expected record, it is a divergence
(R443). -/
def divergenceTimeout (s : State) : State :=
  let r := s.rcd
  if r.state ≠ .replay then s
  else
    let first {α : Type} (l : List α) (left : α → Int) : Option (Int × α) := (l.map fun q => (left q, q)).foldl (fun b q => sooner b (some q)) none
    let extra := first r.extra fun q => (q.2.2 : Int) + 1024 - s.tb.clk
    let missing := first r.expect fun q => dist (coarse q.2 + 65536) s.tb.now / 64
    match sooner (extra.map fun q => (q.1, (Sum.inl q.2 : (Record × Stamp × Nat) ⊕ (Record × Stamp))))
        (missing.map fun q => (q.1, Sum.inr q.2)) with
    | some (k, .inl q) => atClk (s.tb.clk + k.toNat) (extraDiverges q) s
    | some (k, .inr q) => atClk (s.tb.clk + k.toNat) (missingDiverges q) s
    | none => s

/-- The recorder's part of a frame boundary (R429, R439). -/
def recBoundary (s : State) : State :=
  if !allClocked s then s else
  let due := match s.rcd.replayDue with | some f => decide (0 ≤ (frame s - f).toInt) | none => false
  if s.rcd.startDue then recordingBegin s
  else if due then replayBegin s
  else if s.rcd.state = .record ∧ (s.tb.now >>> 48).setWidth 16 ≠ s.rcd.timeHi then timeRecord s
  else s

def execRecStart (p : Port) (s : State) : Host.Outcome State Fault Refusal := done (host p recStart s)
def execRecordingBegin (s : State) : Host.Outcome State Fault Refusal :=
  done (if s.rcd.startDue then atBoundary (clocked recordingBegin) s else s)
def execRecStop (p : Port) (s : State) : Host.Outcome State Fault Refusal := done (host p recStop s)
def execRecFreeze (p : Port) (s : State) : Host.Outcome State Fault Refusal := done (host p recFreeze s)
def execPostCountDone (s : State) : Host.Outcome State Fault Refusal := done (postCountDone s)
def execRecordWrite (s : State) : Host.Outcome State Fault Refusal := done (recordWrite s)
def execDrainEnd (s : State) : Host.Outcome State Fault Refusal := done (drainEnd s)
def execRecReplay (p : Port) (s : State) : Host.Outcome State Fault Refusal := done (host p recReplay s)
def execReplayBegin (s : State) : Host.Outcome State Fault Refusal :=
  done (match s.rcd.replayDue with
    | some f => atTime (f.setWidth 64 <<< 16) (clocked replayBegin) s
    | none => s)
def execRecRpqAppend (p : Port) (v : BitVec 32) (s : State) : Host.Outcome State Fault Refusal := done (host p (rpqAppend v) s)
def execReplayQueueMove (s : State) : Host.Outcome State Fault Refusal := done (replayQueueMove s)
def execInputInjection (s : State) : Host.Outcome State Fault Refusal := done (inputInjection s)
def execDivergenceTimeout (s : State) : Host.Outcome State Fault Refusal := done (divergenceTimeout s)

end Sys2Proof.Machine
end

