-- ==== Sys2Proof/Machine/Power.lean ====
section
/-! DEFINITION. Power: resets and start-up, the supplies, the power states, the Calm domain, the PCI
Express function (R398 to R425). -/

namespace Sys2Proof.Machine

/-! Resets (R408, R409, R460). -/

/-- At a reset every source stands at its level; that is no event (log 22). -/
def sourcesAtReset (s : State) : State :=
  { s with ic := { s.ic with src := Vector.ofFn fun k : Fin 496 => { live := (sourceLevel s k).getD false } } }

/-- A core reset: every register at its reset value; the Calm domain, the supplies and, on a SOFT
reset, the PCI Express endpoint keep theirs (Table 14.3). -/
def coreReset (cause : BitVec 3) (straps : BitVec 3) (keepPcie : Bool) (s : State) : State :=
  let x := s.sys
  let fresh : Sys := { strap := straps, cause := cause, crshold := bit straps 1,
                       vanaOk := x.vanaOk, vkeepOk := x.vkeepOk }
  let sys : Sys := if keepPcie then
      { fresh with dlact := x.dlact, l23 := x.l23, dstate := x.dstate, width := x.width, speed := x.speed,
                   bme := x.bme, pmeEn := x.pmeEn, pmeStat := x.pmeStat, fn := x.fn, pmeAt := x.pmeAt.map (· - s.tb.clk) }
    else fresh
  sourcesAtReset { State.reset with
    pending := s.pending, free := s.free, out := s.out, calm := { s.calm with faultClk := none }, sys := sys
    pins := { State.reset.pins with vioOk := s.pins.vioOk, band := s.pins.band, vlvOk := s.pins.vlvOk }
    ic := if keepPcie then { State.reset.ic with msixEn := s.ic.msixEn, funcMask := s.ic.funcMask } else State.reset.ic }

/-- The supplies of the line-pin banks as they stand at a power-on: each valid in a band, or not (R450, R451). -/
def PinBlock.supply (vio : Vector (Option VioBand) 8) (b : PinBlock) : PinBlock :=
  { b with band := vio, vioOk := (List.finRange 8).foldl (fun a (k : Fin 8) => setBit a k.val vio[k].isSome) 0 }

/-- The core rails have become valid: WAKE where SLEEP was entered, else POR (Table 14.3). -/
def powerOn (straps : BitVec 3) (vio : Vector (Option VioBand) 8) (s : State) : State :=
  modPins (PinBlock.supply vio) (coreReset (if s.sys.pwr = .sleep then 4 else 1) straps false s)

/-- `nRST` has been low for `ns` nanoseconds (R408, R460). -/
def nrst (ns : Nat) (straps : BitVec 3) (s : State) : State :=
  if !s.sys.coreOk ∨ ns < 100 then s
  else if 1000 ≤ ns ∨ Config.nrstGlitch ns then coreReset 2 straps false s
  else s

/-- A core rail is invalid: the device is held in power-on reset (R249, R408); that SLEEP was entered
is kept for the cause of the reset that follows. -/
def railLoss (s : State) : State :=
  let r := coreReset s.sys.cause s.sys.strap false s
  { r with sys := { r.sys with coreOk := false, pwr := s.sys.pwr, sleepAt := s.sys.sleepAt } }

/-- The core rails return after SLEEP, once `PWREN` has been low and is high again (R418). -/
def wakeStartUp (straps : BitVec 3) (s : State) : State :=
  if s.sys.pwr = .sleep ∧ s.sys.sleepAt = none ∧ s.calm.pwren then coreReset 4 straps false s else s

/-- `UP`, the only clock, is lost (R411). -/
def clockLoss (straps : BitVec 3) (s : State) : State := if s.sys.noref then coreReset 5 straps false s else s

/-! Start-up (R410 to R412). -/

/-- CCLK and TB64 start; frame 0 begins. -/
def startClock (s : State) : State := modTb (fun t => { t with running := true, frameDue := true }) s

/-- The PLL locks (R37, R410, R411). -/
def pllLock (s : State) : State :=
  if !s.sys.coreOk then s
  else
    let s := modSys (fun x => { x with noref := false }) s
    if s.tb.running then s else startClock s

/-- No PLL lock after 1 ms, but `UP` is trained (R411). -/
def norefStart (s : State) : State :=
  if s.sys.coreOk ∧ ¬ s.tb.running ∧ s.link.ports[0].state = .up then
    startClock (modSys (fun x => { x with noref := true }) s)
  else s

/-- `SYS_BOOT.RELEASE` is written with 1 (R412). -/
def bootRelease (s : State) : State := modSys (fun x => { x with crshold := false }) s

/-! PCI Express configuration (R398, R400 to R402, R410). -/

/-- Configuration requests reach the function. -/
def endpointOn (s : State) : Bool := s.sys.coreOk && !bit s.sys.strap 0

/-- The function's power state; D1 and D2 are not supported (Table 14.1). -/
def setDstate (d : BitVec 2) (s : State) : State :=
  if d = 0 ∨ d = 3 then modSys (fun x => { x with dstate := d }) s else s

/-- A register of the function's configuration space, laid out as the PCI Express standard has it (Table 14.1; log 51).
The list of capabilities is not linked: the spec gives no offsets. -/
def cfgWord (s : State) (r : CfgReg) : Word :=
  let x := s.sys
  let f := x.fn
  match r with
  | .identity => 0x9640_1F3C
  | .command => pack [(1, 20), (b2n x.bme, 2), (b2n f.memOn, 1)]
  | .revision => 0x1180_00B0
  | .header => 0
  | .bar k => match k.val with
    | 0 => lo32 f.bar0 ||| 0x4 | 1 => hi32 f.bar0 | 2 => lo32 f.bar2 ||| 0xC | 3 => hi32 f.bar2 | _ => 0
  | .rom => 0
  | .pmCap => pack [(1, 30), (1, 27), (3, 16), (1, 0)]
  | .pmControl => pack [(b2n x.pmeStat, 15), (b2n x.pmeEn, 8), (1, 3), (x.dstate.toNat, 0)]
  | .msixCap => pack [(b2n s.ic.msixEn, 31), (b2n s.ic.funcMask, 30), (63, 16), (0x11, 0)]
  | .msixTable => 0x8000
  | .msixPba => 0x9000
  | .devCap => pack [(1, 15), (1, 5), (1, 0)]
  | .devControl => pack [(f.maxRead.toNat, 12), (b2n f.extTag, 8), (f.maxPayload.toNat, 5), (f.errEn.toNat, 0)]
  | .linkCap => pack [(3, 10), (4, 4), (if bit x.strap 2 then 1 else 3, 0)]
  | .linkStatus => pack [(x.width.toNat, 20), (x.speed.toNat, 16), (f.linkCtl.toNat, 0)]
  | .aerCap => pack [(2, 16), (1, 0)]
  | .aerStatus => f.aer
  | .aerMask => f.aerMask
  | .aerSeverity => f.aerSev
  | .aerCorrectable => f.corr
  | .aerCorrectableMask => f.corrMask
  | .aerControl => if f.logged.isSome then 20 else 0
  | .aerHeader k => match f.logged with | some n => Config.requestHeader n k | none => 0
  | .other => 0

/-- A configuration register of the function that software sets. -/
def modFn (g : PciFn → PciFn) (s : State) : State := modSys (fun x => { x with fn := g x.fn }) s

/-- A configuration request: a read answers, a write takes effect; 256 bytes is the largest payload (R398, R400 to R402). -/
def cfgAct (r : CfgReq) (s : State) : State :=
  match r with
  | .read r => emit (.cfgData (cfgWord s r)) s
  | .memorySpace on => modFn (fun f => { f with memOn := on }) s
  | .bar false a => modFn (fun f => { f with bar0 := a &&& 0xFFFF_FFFF_FFC0_0000 }) s
  | .bar true a => modFn (fun f => { f with bar2 := a &&& 0xFFFF_FFFF_FF00_0000 }) s
  | .payload c => if c ≤ 1 then modFn (fun f => { f with maxPayload := c }) s else s
  | .readRequest c => if c ≤ 5 then modFn (fun f => { f with maxRead := c }) s else s
  | .extendedTag on => modFn (fun f => { f with extTag := on }) s
  | .errorReporting v => modFn (fun f => { f with errEn := v }) s
  | .linkControl v => modFn (fun f => { f with linkCtl := v &&& 0xCB }) s
  | .errorMask v => modFn (fun f => { f with aerMask := v &&& 0x17_F030 }) s
  | .errorSeverity v => modFn (fun f => { f with aerSev := v &&& 0x17_F030 }) s
  | .clearCorrectable m => modFn (fun f => { f with corr := f.corr &&& ~~~ m }) s
  | .correctableMask v => modFn (fun f => { f with corrMask := v &&& 0x31C1 }) s
  | .clearErrors m => modFn (fun f => { f with aer := f.aer &&& ~~~ m }) s
  | .busMaster on => modSys (fun x => { x with bme := on }) s
  | .dstate d => setDstate d s
  | .pmeEn on => modSys (fun x => { x with pmeEn := on, pmeAt := if on then x.pmeAt else none }) s
  | .clearPmeStatus => modSys (fun x => { x with pmeStat := false, pmeAt := none }) s
  | .msixControl en mask => { s with ic := { s.ic with msixEn := en, funcMask := mask } }

def cfgRequest (r : CfgReq) (s : State) : State :=
  if !endpointOn s then s
  else if !s.sys.ready || s.sys.crshold then emit .cfgRetry s
  else cfgAct r s

/-- Widths x1, x2 and x4, and three speeds (Table 14.1). -/
def linkOk (width speed : BitVec 4) : Bool := decide ((width = 1 ∨ width = 2 ∨ width = 4) ∧ 1 ≤ speed ∧ speed ≤ 3)

/-- The data link layer reaches DL_Active (R415, Table 14.4, Table 14.11). -/
def dlUp (width speed : BitVec 4) (s : State) : State :=
  if !endpointOn s ∨ !s.tb.running ∨ !linkOk width speed then s
  else modSys (fun x => { x with
    dlact := true, l23 := false, width := width, speed := if bit x.strap 2 then 1 else speed }) s

/-! Power states (R413 to R419). -/

def pwrAnswer (st : CmdStatus) (s : State) : State :=
  refuse (bit s.sys.ie 16) st (modSys (fun x => { x with pwrcmd := x.pwrcmd.answer st }) s)

/-- A wake event is latched (CALM_WAKESTAT.PEND). -/
def wakePend (s : State) : Bool := s.sys.vkeepOk && decide (s.calm.wsrc ≠ 0)

/-- The conditions of R415 that DOZE and SLEEP share. -/
def idleOk (s : State) : Bool :=
  !wakePend s && decide (s.dom.state = .config) &&
  s.te.toList.all (fun e => decide (e.state = .stopped ∨ e.state = .halted)) &&
  s.se.toList.all (fun e => decide (e.st ≠ .run)) &&
  s.pump.toList.all (fun u => decide (u.state = .stopped)) &&
  s.sc.toList.all (fun c => decide (c.st = .stopped)) && decide (s.rcd.state = .idle)

/-- A wake event is seen in this cycle: the request is aborted (R419). -/
def wakeNow (s : State) : Bool := decide (s.sys.wakeSeen = some s.tb.clk)

/-- The outcome of a sleep request (R415, R419). -/
def sleepStatus (deep : Bool) (s : State) : CmdStatus :=
  if wakeNow s then .aborted
  else if !idleOk s then .stateRefused
  else if deep ∧ ((s.sys.dlact ∧ ¬ bit s.sys.strap 0) ∨ ¬ s.sys.vkeepOk) then .stateRefused
  else .ok

/-- A sleep request is aborted: the device is in RUN (R419). -/
def sleepAborted (s : State) : State :=
  let s := modSys (fun x => { x with stat := setBit x.stat 4 true, pwr := if x.pwr = .sleep then .sleep else .active }) s
  if s.sys.vkeepOk then modCalm (fun c => { c with abort := true }) s else s

/-- Entry into SLEEP: the matrix is disabled as by `DISABLE`, SLEPT is set a cycle later (Table 14.8). -/
def enterSleep (s : State) : State :=
  if s.sys.pwr = .sleep then s
  else defer .slept (matrixTo false (modSys (fun x => { x with pwr := .sleep, sleepAt := some s.tb.clk }) s))

/-- A sleep request (R415 to R419). -/
def sleepRequest (deep : Bool) (s : State) : State :=
  match sleepStatus deep s with
  | .ok => pwrAnswer .ok (if deep then enterSleep s
      else modSys (fun x => if x.pwr = .sleep then x else { x with pwr := .doze }) s)
  | .aborted => pwrAnswer .aborted (sleepAborted s)
  | st => pwrAnswer st s

/-- DOZE ends by a wake (R417). -/
def leaveDoze (s : State) : State :=
  if s.sys.pwr = .doze then modSys (fun x => { x with pwr := .active, stat := setBit x.stat 1 true }) s else s

def wakeStatus (s : State) : CmdStatus := if s.sys.pwr = .active then .stateRefused else .ok
/-- The `WAKE` command (R417). -/
def wakeCommand (s : State) : State :=
  let st := wakeStatus s
  pwrAnswer st (if st = .ok then leaveDoze s else s)

def resetStatus (key : BitVec 8) (s : State) : CmdStatus :=
  if key ≠ 0xC3 then .argInvalid
  else if s.dom.state = .armed ∨ s.dom.state = .run ∨ s.dom.state = .hold then .stateRefused
  else .ok
/-- The `RESET` command; one that is under way keeps its cycle (R413). -/
def resetCommand (key : BitVec 8) (s : State) : State :=
  let st := resetStatus key s
  pwrAnswer st (if st = .ok then modSys (fun x => { x with softAt := some (x.softAt.getD (s.tb.clk + 16)) }) s else s)

/-- The SOFT reset comes (R409, R413). -/
def softReset (s : State) : State :=
  match s.sys.softAt with
  | some c => atClk c (fun s => coreReset 3 s.sys.strap true s) s
  | none => s

/-- The link enters L2/L3 Ready and is no longer DL_Active (R403, R416). -/
def enterL23 (s : State) : State :=
  if !endpointOn s ∨ !s.sys.dlact then s
  else
    let s := modSys (fun x => { x with l23 := true, dlact := false, width := 0, speed := 0 }) s
    if s.sys.sleepL23 then sleepRequest true s else s

/-! The Calm domain (R417 to R424). -/

/-- A wake source fires: its bit latches; three cycles later the core sees it (R417). -/
def latchWake (i : Nat) (s : State) : State :=
  let s := modCalm (fun c => { c with wsrc := setBit c.wsrc i true, wcount := inc8 c.wcount }) s
  if s.tb.running then
    atClk (s.tb.clk + 3) (fun s => leaveDoze (pulse 452 (modSys (fun x => { x with wakeSeen := some s.tb.clk }) s))) s
  else s

/-- Pin `WAKE`i takes a level (R417). -/
def wakeEdge (i : Fin 4) (level : Bool) (s : State) : State :=
  if !s.sys.vkeepOk ∨ s.calm.wake[i] = level then s
  else
    let s := modCalm (fun c => { c with wake := c.wake.set i level }) s
    let sel := fld s.calm.wakecfg (4 * i.val + 1) (4 * i.val)
    if bit s.calm.wakecfg (4 * i.val + 2) ∧ (sel = 2 ∨ (sel = 0 ∧ level) ∨ (sel = 1 ∧ ¬ level)) then latchWake i.val s else s

/-- Oscillator periods until CALM_TIMER steps into CALM_WAKECMP. -/
def Calm.toMatch (c : Calm) : Nat := let d := (c.wakecmp - c.timer).toNat; if d = 0 then 2 ^ 32 else d

/-- `n` oscillator periods pass: CALM_TIMER counts them, and may step into its match (R417, R418, R425). -/
def calmPass (n : Nat) (s : State) : State :=
  let hit := decide (s.calm.toMatch ≤ n)
  let s := modCalm (fun c => { c with
    timer := c.timer + BitVec.ofNat 32 n, lowFor := if c.pwren then c.lowFor else min 33 (c.lowFor + n) }) s
  if hit then
    let s := if s.tb.running then pulse 460 s else s
    if bit s.calm.wakecfg 16 then latchWake 4 s else s
  else s

/-- CALM_TIMER steps into CALM_WAKECMP (R417, R425). -/
def timerMatch (s : State) : State := if s.sys.vkeepOk then calmPass s.calm.toMatch s else s

/-- A look at CALM_TIMER: it has counted on, not into its match, since the last one (R421, R422). -/
def calmTimer (s : State) : State :=
  calmPass (Config.calmPeriods s.free % s.calm.toMatch) { s with free := s.free + 1 }

/-- The Calm domain drives `PWREN` low, 64 cycles after SLEEP, and nothing else is clocked any more (Tables 14.7, 14.8). -/
def pwrenLow (s : State) : State :=
  match s.sys.sleepAt with
  | some c => atClk (c + 64) (fun s => modTb (fun t => { t with running := false })
      (modCalm (fun k => { k with pwren := false, lowFor := 0 }) (modSys (fun x => { x with sleepAt := none }) s))) s
  | none => s

/-- A wake has been latched: after at least 33 oscillator periods `PWREN` is driven high (R418). -/
def pwrenHigh (s : State) : State :=
  if wakePend s ∧ ¬ s.calm.pwren then modCalm (fun k => { k with pwren := true }) (calmPass (33 - s.calm.lowFor) s) else s

/-- `VKEEP` rises through its threshold (R420, R421). -/
def calmPor (s : State) : State :=
  if s.sys.vkeepOk then s
  else { modSys (fun x => { x with vkeepOk := true, stat := setBit x.stat 2 true }) s with calm := { wake := s.calm.wake } }

/-- `VKEEP` falls (R420). -/
def vkeepLoss (s : State) : State :=
  if s.sys.vkeepOk then modSys (fun x => { x with vkeepOk := false, stat := setBit x.stat 2 true }) s else s

/-- `VANA` changes validity (R420). -/
def vanaChange (ok : Bool) (s : State) : State :=
  if s.sys.vanaOk = ok then s else modSys (fun x => { x with vanaOk := ok, stat := setBit x.stat 2 true }) s

/-! The loss of the host (R403). -/

/-- A pump with a host read outstanding loses it. -/
def pumpHostLoss (u : Fin 8) (s : State) : State :=
  let x := s.pump[u]
  if x.hostOut.isEmpty then s
  else
    let s := modPump u (fun x => { x with hostOut := [], hostBuf := [] }) s
    if x.fetching then modPump u (fun x => if x.state = .stopping then { x with fetching := false } else x.noFetch) s
    else failDesc u 4 s

/-- Every PCI Express staging register is emptied. -/
def clearStaging (s : State) : State :=
  { s with
    ch := s.ch.map fun c => { c with stagePcie := 0 }
    te := s.te.map fun e => { e with stagePcie := Vector.replicate 3 0 }
    well := s.well.map fun k => { k with stagePcie := 0 }
    job := s.job.map fun x => { x with stagePcie := 0 } }

/-- The data link layer leaves DL_Active other than by L2/L3 Ready (R403, R32). -/
def hostLoss (s : State) : State :=
  if !s.sys.dlact ∨ s.sys.l23 ∨ bit s.sys.strap 0 then s
  else
    let s := modSys (fun x => { x with dlact := false, width := 0, speed := 0, stat := setBit x.stat 0 true }) s
    let s := calmRecord 6 0 0 (pulse 451 s)
    let s := forAll 8 pumpHostLoss (clearStaging { s with shadows := [] })
    if s.sys.sren ∧ s.dom.state ≠ .safe ∧ live s then
      enterDomain .config (modDom (fun d => { d with pend := false }) s)
    else s

def execHostLoss (s : State) : Host.Outcome State Fault Refusal := done (hostLoss s)
def execPowerOnReset (start : PowerUp) (s : State) : Host.Outcome State Fault Refusal :=
  done (powerOn start.straps start.vio s)
def execNrstReset (lowNs : Nat) (straps : BitVec 3) (s : State) : Host.Outcome State Fault Refusal := done (nrst lowNs straps s)
def execSysReset (p : Port) (key : BitVec 8) (s : State) : Host.Outcome State Fault Refusal := done (host p (resetCommand key) s)
def execSoftReset (s : State) : Host.Outcome State Fault Refusal := done (softReset s)
def execWakeStartUp (straps : BitVec 3) (s : State) : Host.Outcome State Fault Refusal := done (wakeStartUp straps s)
def execClockLossReset (straps : BitVec 3) (s : State) : Host.Outcome State Fault Refusal := done (clockLoss straps s)
def execCalmPor (s : State) : Host.Outcome State Fault Refusal := done (calmPor s)
def execPllLock (s : State) : Host.Outcome State Fault Refusal := done (pllLock s)
def execNorefStart (s : State) : Host.Outcome State Fault Refusal := done (norefStart s)
def execSysBootRelease (p : Port) (s : State) : Host.Outcome State Fault Refusal := done (host p bootRelease s)
def execPcieConfigRequest (r : CfgReq) (s : State) : Host.Outcome State Fault Refusal := done (cfgRequest r s)
def execD3hotEntry (s : State) : Host.Outcome State Fault Refusal := done (if endpointOn s then setDstate 3 s else s)
def execSysDoze (p : Port) (s : State) : Host.Outcome State Fault Refusal := done (host p (sleepRequest false) s)
def execSysSleep (p : Port) (s : State) : Host.Outcome State Fault Refusal := done (host p (sleepRequest true) s)
def execSysWake (p : Port) (s : State) : Host.Outcome State Fault Refusal := done (host p wakeCommand s)
def execL23SleepRequest (s : State) : Host.Outcome State Fault Refusal := done (enterL23 s)
def execWakePinEdge (i : Fin 4) (level : Bool) (s : State) : Host.Outcome State Fault Refusal := done (wakeEdge i level s)
def execCalmTimerMatch (s : State) : Host.Outcome State Fault Refusal := done (timerMatch s)
def execPwrenLow (s : State) : Host.Outcome State Fault Refusal := done (pwrenLow s)
def execPwrenHigh (s : State) : Host.Outcome State Fault Refusal := done (pwrenHigh s)
def execVanaChange (valid : Bool) (s : State) : Host.Outcome State Fault Refusal := done (vanaChange valid s)
def execVkeepLoss (s : State) : Host.Outcome State Fault Refusal := done (vkeepLoss s)
def execCoreRailLoss (rail : CoreRail) (s : State) : Host.Outcome State Fault Refusal := done (let _ := rail; railLoss s)
def execDlActive (width : BitVec 4) (speed : BitVec 4) (s : State) : Host.Outcome State Fault Refusal := done (dlUp width speed s)

end Sys2Proof.Machine
end

