-- ==== Sys2Proof/Machine/Frame.lean ====
section
/-! DEFINITION. Frame: the first cycle of a frame (R21): transitions, calibration, housekeeping, state
messages, and what else counts frames. -/

namespace Sys2Proof.Machine

/-- A calibration group takes its correction; it locks and unlocks by its error, in picoseconds (R238, R239). -/
def calibrate (g : Fin 10) (err : Int) (b : PinBlock) : PinBlock :=
  let b := { b with corr := b.corr.set g (b.corr[g] + max (-1) (min 1 (Config.biasStep err))) }
  let n : Nat := if err.natAbs ≤ 10 then b.good[g] + 1 else 0
  let b := { b with good := b.good.set g n }
  if 30 < err.natAbs ∧ bit b.lock g then { b with lock := setBit b.lock g false, evt := setBit b.evt (16 + g) true }
  else if 16 ≤ n then { b with lock := setBit b.lock g true } else b

/-- Every group that measured an error. -/
def calibrateAll (l : List Int) (s : State) : State :=
  modPins (fun b => (List.finRange 10).foldl (fun b g => match l[g.val]? with | some e => calibrate g e b | none => b) b) s

/-- How many entries have a deadline of frame `f` or earlier. -/
def Engine.late (f : Word) (e : Engine) : Nat := (e.ready.filter fun x => decide (0 ≤ (f - x.deadline).toInt)).length

/-- A frame ends and housekeeping of the next begins (R92 to R95): `ended` is the number of the frame that has ended, `next`
that of the new one, which a load of TB64 may have set apart (R38). -/
def Engine.frame (ended next : Word) (e : Engine) : Engine :=
  let e := if e.late ended = 0 then e else { e with stat := setBit e.stat 0 true, ovr := inc8 e.ovr }
  let k := e.late (next - 1)
  let e := if k = 0 then e else { e with stat := setBit e.stat 1 true, defer := addSat e.defer k }
  let last : BitVec 16 := BitVec.ofNat 16 (min 960 e.busy)
  { e with
    last := last, peak := if e.peak < last then last else e.peak, busy := 0, hk := true
    crossed := if e.runningEntry.isSome then e.crossed + 1 else e.crossed }

/-- A coalescing timer counts a boundary (R332). -/
def IcClass.tick (c : IcClass) : IcClass := { c with timer := c.timer.map (· + 1) }

/-- Every engine takes the boundary. -/
def engineFrames (s : State) : State :=
  { s with te := s.te.map (Engine.frame (s.tb.ended.setWidth 32) ((frame s).setWidth 32)) }

/-- Every coalescing timer that runs takes the boundary (R332). -/
def icFrames (s : State) : State :=
  { s with ic := { s.ic with tgt := s.ic.tgt.map fun t => { t with normal := t.normal.tick, fast := t.fast.tick } } }

/-- The SAFE that the root broadcasts ends with its effective frame. -/
def endBcast (s : State) : State :=
  match s.dom.bcast with
  | some e => if 0 ≤ (frame s - e).toInt then modDom (fun d => { d with bcast := none }) s else s
  | none => s

/-- R21, with what the other blocks do at the boundary. -/
def frameBoundary (calErr : List Int) (s : State) : State :=
  if s.tb.running then
    atBoundary (fun s =>
      let s := applyLink (applyTransition (recBoundary s))
      let s := linkBoundary (engineFrames (calibrateAll calErr s))
      modTb (fun t => { t with frameDue := false }) (endBcast (icFrames s))) (tbStep (tbLoadEffect s))
  else s

def execFrameBoundary (calErr : List Int) (s : State) : Host.Outcome State Fault Refusal := done (frameBoundary calErr s)

end Sys2Proof.Machine
end

