-- ==== Sys2Proof/Machine/RegSys.lean ====
section
/-! DEFINITION. RegSys: reads and writes of the registers of SYS, CALM, the interrupt controller, the
timebase and the channels, by the access codes of Table 0.3 (R9 to R14, R24, R25; Tables 1.8 to 1.14,
2.7 to 2.19, 11.4 to 11.8, 14.9 to 14.13). An address that no table assigns reads 0 and ignores a write. -/

namespace Sys2Proof.Machine

/-- A read without side effect. -/
def plain (v : Word) (s : State) : State × Word := (s, v)
/-- A read that clears what it has shown (RC). -/
def readClear (v : Word) (f : State → State) (s : State) : State × Word := (f s, v)
/-- A field of a register after a W1C write. -/
def w1c {n : Nat} (flags : BitVec n) (v : Word) : BitVec n := flags &&& ~~~ v.setWidth n
def nat (n : Nat) : Word := BitVec.ofNat 32 n

/-! SYS. -/

/-- SYS_DSTATE (Table 1.9); in OBSERVE it shows the root's state (R34). -/
def dstateWord (s : State) : Word :=
  pack [(s.dom.late.toNat, 24), (b2n (isRoot s), 11), (b2n s.dom.observe, 10), (b2n (permit s), 9),
        (b2n s.dom.pend, 8), (s.dom.pstate.code, 4), ((shownState s).code, 0)]

/-- A dword of the MSI-X table (R400), in the layout of PCI Express. -/
def MsixVec.dword (x : MsixVec) (j : Nat) : Word :=
  match j with | 0 => lo32 x.addr | 1 => hi32 x.addr | 2 => x.data | _ => pack [(b2n x.mask, 0)]
def MsixVec.write (j : Nat) (v : Word) (x : MsixVec) : MsixVec :=
  match j with
  | 0 => { x with addr := join (hi32 x.addr) (v &&& 0xFFFF_FFFC) }
  | 1 => { x with addr := join v (lo32 x.addr) }
  | 2 => { x with data := v }
  | _ => { x with mask := bit v 0 }

/-- A bit of the Pending Bit Array: a message is held and its vector is masked (Table 11.2). -/
def pendingBit (s : State) (k : Fin 64) : Bool :=
  let h : Fin 32 := ⟨k.val / 2, by omega⟩
  (s.ic.tgt[h].cls (decide (k.val % 2 = 1))).held && vectorMasked s k
def pbaWord (s : State) (w : Nat) : Word :=
  pack ((List.range 32).map fun i => (b2n (pendingBit s (Fin.ofNat 64 (32 * w + i))), i))

def sysRead (off : Nat) (s : State) : State × Word :=
  if 0x8000 ≤ off ∧ off < 0x8400 then plain (s.ic.msix[Fin.ofNat 64 ((off - 0x8000) / 16)].dword (off % 16 / 4)) s
  else match off with
  | 0x0 => plain 0x9640_B000 s
  | 0x4 => plain (s.sys.strap.setWidth 32) s
  | 0x8 => plain (s.sys.cause.setWidth 32) s
  | 0xC => plain (pack [(b2n s.sys.lock, 0)]) s
  | 0x10 => plain (pack [(b2n s.sys.ready, 31), (b2n s.sys.crshold, 30), (b2n s.sys.noref, 29)]) s
  | 0x14 => plain (pack [(b2n s.sys.vanaOk, 1), (b2n s.sys.vkeepOk, 0)]) s
  | 0x18 => plain (pack [(b2n s.sys.sleepL23, 31)]) s
  | 0x1C => readClear s.sys.pwrcmd.word (modSys fun x => { x with pwrcmd := x.pwrcmd.clear }) s
  | 0x20 => plain (pack [(match s.sys.pwr with | .active => 0 | .doze => 1 | .sleep => 2, 30)]) s
  | 0x24 => plain (pack [(b2n s.sys.sren, 31)]) s
  | 0x28 => plain (pack [(b2n s.sys.dlact, 31), (b2n s.sys.l23, 30), (s.sys.dstate.toNat, 28),
                         (s.sys.width.toNat, 24), (s.sys.speed.toNat, 20)]) s
  | 0x2C => plain (s.sys.stat.setWidth 32) s
  | 0x30 => plain s.sys.ie s
  | 0x34 => plain 0x9640_1F3C s
  | 0x100 => plain (dstateWord s) s
  | 0x104 => plain (s.dom.eff.setWidth 32) s
  | 0x10C => readClear (pack [(s.dom.cmd.refusals.toNat, 8), (s.dom.cmd.status.code, 0)])
      (modDom fun d => { d with cmd := d.cmd.clear }) s
  | 0x110 => plain s.dom.mask s
  | 0x114 => plain (s.dom.lead.setWidth 32) s
  | 0x9000 => plain (pbaWord s 0) s
  | 0x9004 => plain (pbaWord s 1) s
  | _ => plain 0 s

/-- SYS_PWRCMD (R426). -/
def pwrWrite (v : Word) (s : State) : State :=
  match fld v 3 0 with
  | 1 => sleepRequest false s
  | 2 => sleepRequest true s
  | 3 => wakeCommand s
  | 4 => resetCommand (BitVec.ofNat 8 (fld v 23 16)) s
  | _ => pwrAnswer .argInvalid s

/-- SYS_DCMD (Table 1.11). -/
def dcmdWrite (v : Word) (s : State) : State :=
  match fld v 3 0 with
  | 1 => domCommand .arm s
  | 2 => domCommand .run s
  | 3 => domCommand .hold s
  | 4 => domCommand .stop s
  | 5 => domCommand .disarm s
  | 6 => domCommand .safe s
  | 7 => domCommand .clear s
  | _ => domAnswer .argInvalid s

def sysWrite (off : Nat) (v : Word) (s : State) : State :=
  if 0x8000 ≤ off ∧ off < 0x8400 then
    let k : Fin 64 := Fin.ofNat 64 ((off - 0x8000) / 16)
    { s with ic := { s.ic with msix := s.ic.msix.set k (s.ic.msix[k].write (off % 16 / 4) v) } }
  else match off with
  | 0xC => modSys (fun x => { x with lock := x.lock || bit v 0 }) s
  | 0x10 => if bit v 0 then bootRelease s else s
  | 0x18 => modSys (fun x => { x with sleepL23 := bit v 31 }) s
  | 0x1C => pwrWrite v s
  | 0x24 => modSys (fun x => { x with sren := bit v 31 }) s
  | 0x2C => modSys (fun x => { x with stat := w1c x.stat v }) s
  | 0x30 => modSys (fun x => { x with ie := v &&& 0x1_001F }) s
  | 0x108 => dcmdWrite v s
  | 0x110 => if s.sys.lock then s else modDom (fun d => { d with mask := v &&& 0x3F }) s
  | 0x114 => modDom (fun d => { d with lead := BitVec.ofNat 8 (max 4 (fld v 7 0)) }) s
  | _ => s

/-! CALM; without VKEEP its registers read 0 and discard writes (R420). -/

def calmRead (off : Nat) (s : State) : State × Word :=
  if !s.sys.vkeepOk then plain 0 s
  else if 0x20 ≤ off ∧ off < 0x30 then plain s.calm.fault[Fin.ofNat 4 ((off - 0x20) / 4)] s
  else if 0x40 ≤ off ∧ off < 0x80 then plain s.calm.scratch[Fin.ofNat 16 ((off - 0x40) / 4)] s
  else match off with
  | 0x0 => readClear (pack [(b2n s.calm.cpor, 31), (b2n s.calm.slept, 30), (s.calm.fcount.toNat, 0)])
      (modCalm fun c => { c with fcount := 0 }) s
  | 0x4 => plain s.calm.wakecfg s
  | 0x8 => readClear (pack [(b2n (decide (s.calm.wsrc ≠ 0)), 31), (b2n s.calm.abort, 30), (s.calm.wcount.toNat, 8),
                            (s.calm.wsrc.toNat, 0)])
      (modCalm fun c => { c with wcount := 0 }) s
  | 0xC => let s := calmTimer s; plain s.calm.timer s
  | 0x10 => plain s.calm.wakecmp s
  | 0x14 => plain s.calm.digest s
  | 0x18 => plain s.calm.dver s
  | _ => plain 0 s

/-- CALM_WAKECFG as it is stored: edge code 3 as 2, bits 4i + 3 reserved (Table 14.12). -/
def wakeCfgStored (v : Word) : Word :=
  (List.range 4).foldl (fun w i => if fld w (4 * i + 1) (4 * i) = 3 then putFld w (4 * i + 1) (4 * i) 2 else w)
    (v &&& 0x1_7777)

def calmWrite (off : Nat) (v : Word) (s : State) : State :=
  if !s.sys.vkeepOk then s
  else if 0x40 ≤ off ∧ off < 0x80 then modCalm (fun c => { c with scratch := c.scratch.set (Fin.ofNat 16 ((off - 0x40) / 4)) v }) s
  else match off with
  | 0x0 => modCalm (fun c => { c with cpor := c.cpor && !bit v 31, slept := c.slept && !bit v 30 }) s
  | 0x4 => modCalm (fun c => { c with wakecfg := wakeCfgStored v }) s
  | 0x8 => modCalm (fun c => { c with abort := c.abort && !bit v 30, wsrc := c.wsrc &&& ~~~ (v.setWidth 8 &&& 0x1F) }) s
  | 0xC => modCalm (fun c => { c with timer := v }) s
  | 0x10 => modCalm (fun c => { c with wakecmp := v }) s
  | _ => s

/-! Interrupt controller. -/

/-- IC_SRC_CFG and IC_PRIV_CFG; a private source shows its target (Table 11.6). -/
def srcCfgWord (k : SrcId) (s : State) : Word :=
  match k with
  | .shared n => s.ic.src[n].cfg
  | .priv h j => putFld s.ic.tgt[h].priv[j].cfg 20 16 h.val
def srcOf (k : SrcId) (s : State) : Src := match k with | .shared n => s.ic.src[n] | .priv h j => s.ic.tgt[h].priv[j]
def modSrcOf (k : SrcId) (f : Src → Src) (s : State) : State :=
  match k with
  | .shared n => { s with ic := { s.ic with src := s.ic.src.set n (f s.ic.src[n]) } }
  | .priv h j => modTgt h (fun t => { t with priv := t.priv.set j (f t.priv[j]) }) s
def srcStatRead (k : SrcId) (s : State) : State × Word :=
  let x := srcOf k s
  readClear (pack [(b2n x.live, 31), (b2n x.pending, 30), (b2n x.active, 29), (x.count.toNat, 0)])
    (modSrcOf k fun x => { x with count := 0 }) s
def srcStatWrite (k : SrcId) (v : Word) (s : State) : State :=
  modSrcOf k (fun x => if x.sense ≠ 0 ∧ bit v 30 then { x with pend := false } else x) s

/-- IC_STACK (Table 11.8). -/
def stackWord (h : Fin 32) (fast : Bool) (s : State) : Word :=
  match (s.ic.tgt[h].cls fast).stack with
  | [] => 0
  | top :: r => pack [(r.length + 1, 28), (fld (icSrc s h top).cfg 3 0, 20), (top, 0)]

/-- The registers of a class, by their place in it. -/
def classRead (h : Fin 32) (fast : Bool) (off : Nat) (s : State) : State × Word :=
  let c := s.ic.tgt[h].cls fast
  match off with
  | 0x0 => let (s, w) := claim h fast s; (s, claimData w)
  | 0x8 => plain (c.thr.setWidth 32) s
  | 0xC => plain (pack [(c.timeF.toNat, 16), (c.cur.toNat, 8), (c.limit.toNat, 0)]) s
  | _ => plain 0 s
def classWrite (h : Fin 32) (fast : Bool) (off : Nat) (v : Word) (s : State) : State :=
  match off with
  | 0x4 => complete h fast (fld v 8 0) s
  | 0x8 => modTgt h (Target.modCls fast fun c => { c with thr := v.setWidth 4 }) s
  | 0xC => modTgt h (Target.modCls fast fun c => { c with timeF := BitVec.ofNat 16 (max 1 (fld v 31 16)),
                                                          limit := BitVec.ofNat 8 (max 1 (fld v 7 0)) }) s
  | _ => s

def targetRead (h : Fin 32) (off : Nat) (s : State) : State × Word :=
  let t := s.ic.tgt[h]
  if 0x10 ≤ off ∧ off < 0x20 then classRead h false (off - 0x10) s
  else if 0x20 ≤ off ∧ off < 0x30 then classRead h true (off - 0x20) s
  else if 0x40 ≤ off ∧ off < 0x80 then plain (srcCfgWord (.priv h (Fin.ofNat 16 ((off - 0x40) / 4))) s) s
  else if 0x80 ≤ off ∧ off < 0xC0 then srcStatRead (.priv h (Fin.ofNat 16 ((off - 0x80) / 4))) s
  else match off with
  | 0x0 => plain (pack [(b2n t.sleep, 31), (b2n t.pmen, 30)]) s
  | 0x4 => plain (pack [(b2n t.fast.held, 31), (b2n t.normal.held, 30), (b2n t.pmesent, 29), (b2n t.deep, 1), (b2n t.order, 0)]) s
  | 0x8 => readClear (pack [(t.stray.toNat, 24), (t.orderN.toNat, 16), (t.msgn.toNat, 8), (t.msgf.toNat, 0)])
      (modTgt h fun t => { t with stray := 0, orderN := 0, msgn := 0, msgf := 0 }) s
  | 0xC => plain t.dback s
  | 0x30 => plain (stackWord h false s) s
  | 0x34 => plain (stackWord h true s) s
  | _ => plain 0 s

def targetWrite (h : Fin 32) (off : Nat) (v : Word) (s : State) : State :=
  if 0x10 ≤ off ∧ off < 0x20 then classWrite h false (off - 0x10) v s
  else if 0x20 ≤ off ∧ off < 0x30 then classWrite h true (off - 0x20) v s
  else if 0x40 ≤ off ∧ off < 0x80 then srcCfgWrite (.priv h (Fin.ofNat 16 ((off - 0x40) / 4))) v s
  else if 0x80 ≤ off ∧ off < 0xC0 then srcStatWrite (.priv h (Fin.ofNat 16 ((off - 0x80) / 4))) v s
  else match off with
  | 0x0 => targetSleep h v s
  | 0x4 => modTgt h (fun t => { t with deep := t.deep && !bit v 1, order := t.order && !bit v 0 }) s
  | 0xC => modTgt h (fun t => { t with dback := v &&& 0xFFFF_00FF }) s
  | _ => s

/-- IC_PEND[w]. -/
def icPendWord (s : State) (w : Nat) : Word :=
  pack ((List.range 32).map fun i =>
    (if h : 32 * w + i < 496 then b2n s.ic.src[32 * w + i].pending else 0, i))

def icRead (off : Nat) (s : State) : State × Word :=
  if 0x100 ≤ off ∧ off < 0x140 then plain (icPendWord s ((off - 0x100) / 4)) s
  else if 0x1000 ≤ off ∧ off < 0x17C0 then plain (srcCfgWord (.shared (Fin.ofNat 496 ((off - 0x1000) / 4))) s) s
  else if 0x2000 ≤ off ∧ off < 0x27C0 then srcStatRead (.shared (Fin.ofNat 496 ((off - 0x2000) / 4))) s
  else if 0x3000 ≤ off ∧ off < 0x5000 then targetRead (Fin.ofNat 32 ((off - 0x3000) / 0x100)) (off % 0x100) s
  else match off with
  | 0x0 => plain (pack [(b2n s.ic.flat, 31), (b2n s.ic.refie, 0)]) s
  | 0x4 => readClear s.ic.cmd.word (fun s => { s with ic := { s.ic with cmd := s.ic.cmd.clear } }) s
  | _ => plain 0 s

/-- IC_CMD (R336). -/
def icCmdWrite (v : Word) (s : State) : State :=
  if fld v 3 0 = 1 then
    let h : Fin 32 := Fin.ofNat 32 (fld v 20 16)
    let st := unwindStatus h (bit v 12) s
    icAnswer st (if st = .ok then unwind h (bit v 12) s else s)
  else icAnswer .argInvalid s

def icWrite (off : Nat) (v : Word) (s : State) : State :=
  if 0x1000 ≤ off ∧ off < 0x17C0 then srcCfgWrite (.shared (Fin.ofNat 496 ((off - 0x1000) / 4))) v s
  else if 0x2000 ≤ off ∧ off < 0x27C0 then srcStatWrite (.shared (Fin.ofNat 496 ((off - 0x2000) / 4))) v s
  else if 0x3000 ≤ off ∧ off < 0x5000 then targetWrite (Fin.ofNat 32 ((off - 0x3000) / 0x100)) (off % 0x100) v s
  else match off with
  | 0x0 => icModeWrite v s
  | 0x4 => icCmdWrite v s
  | _ => s

/-! Timebase. -/

def tbRead (p : Port) (off : Nat) (s : State) : State × Word :=
  match off with
  | 0x0 => readLow p .tbNow s
  | 0x4 => readHighOf p .tbNow s
  | 0x8 => readLow p .tbFrame s
  | 0xC => readHighOf p .tbFrame s
  | 0x10 => plain s.tb.setLo s
  | 0x14 => plain s.tb.setHi s
  | 0x18 => readClear s.tb.cmd.word (modTb fun t => { t with cmd := t.cmd.clear }) s
  | 0x1C => plain (pack [(b2n s.tb.loadPend, 1), (b2n s.tb.src, 0)]) s
  | _ => plain 0 s

def tbWrite (off : Nat) (v : Word) (s : State) : State :=
  match off with
  | 0x10 => modTb (fun t => { t with setLo := v &&& 0xFFFF_0000 }) s
  | 0x14 => modTb (fun t => { t with setHi := v }) s
  | 0x18 => if fld v 3 0 = 1 then tbLoad s else modTb (fun t => { t with cmd := t.cmd.answer .argInvalid }) s
  | _ => s

/-! Channels. -/

/-- CH_CNT and CH_CAP are halves of a pair when their channels cascade (Table 2.6). -/
def pairOf (n : Fin 256) : Fin 128 := ⟨n.val / 2, by omega⟩
def chRead (p : Port) (n : Fin 256) (off : Nat) (s : State) : State × Word :=
  let c := s.ch[n]
  match off with
  | 0x00 => plain c.cfg s
  | 0x04 => readClear c.cmdWord (modCh n Chan.cmdClear) s
  | 0x08 => if n.val % 2 = 0 then readLow p (.chCnt (pairOf n)) s else readHighOf p (.chCnt (pairOf n)) s
  | 0x0C => plain c.top s
  | 0x10 => plain c.cmp s
  | 0x14 => plain c.pre s
  | 0x18 => if n.val % 2 = 0 then readLow p (.chCap (pairOf n)) s else readHighOf p (.chCap (pairOf n)) s
  | 0x1C => plain c.width s
  | 0x20 => readLow p (.chTgt n) s
  | 0x24 => readHighOf p (.chTgt n) s
  | 0x28 => readLow p (.chCapt n) s
  | 0x2C => readHighOf p (.chCapt n) s
  | 0x30 => plain c.filt s
  | 0x34 => plain c.statusWord s
  | 0x38 => plain c.ie s
  | 0x3C => plain c.per s
  | _ => plain 0 s

/-- CH_CMD (Table 2.5). -/
def chCmdWrite (n : Fin 256) (v : Word) (s : State) : State :=
  let c := s.ch[n]
  match fld v 3 0 with
  | 1 => chCommand n (chStartStatus n c) (chStart n) s
  | 2 => chCommand n (chStopStatus n c) (stopChannel n) s
  | 3 => chCommand n (chArmStatus c) (armCompare n) s
  | 4 => chCommand n (chDisarmStatus c) (modCh n Chan.disarm) s
  | 5 => chCommand n (chReloadStatus c) (chReload n) s
  | _ => chAnswer n .argInvalid s

def chWrite (p : Port) (n : Fin 256) (off : Nat) (v : Word) (s : State) : State :=
  match off with
  | 0x00 => writeChCfg n v s
  | 0x04 => chCmdWrite n v s
  | 0x08 => writeCnt n v s
  | 0x0C => writeTop n v s
  | 0x10 => writeCmp n v s
  | 0x14 => modCh n (fun c => { c with pre := v }) s
  | 0x1C => modCh n (fun c => { c with width := v }) s
  | 0x20 => stageTarget p n v s
  | 0x24 => commitTarget p n v s
  | 0x30 => writeFilt n v s
  | 0x34 => clearStatus n v s
  | 0x38 => writeChIe n v s
  | _ => s

end Sys2Proof.Machine
end

