-- ==== Sys2Proof/Machine/RegEng.lean ====
section
/-! DEFINITION. RegEng: reads and writes of the registers of the timing engines and their microcode
windows, the wheel inputs, the trackers, the event tables and the shift engines (Tables 3.9 to 3.19, 4.13,
5.10 to 5.22, 6.9 to 6.14, 7.12 to 7.19). -/

namespace Sys2Proof.Machine

/-! Timing engines. -/

/-- A view that only an engine out of RUN shows (Table 3.19). -/
def Engine.shows (x : Engine) (v : Word) : Word := if x.state = .run then 0 else v

def teRead (e : Fin 16) (off : Nat) (s : State) : State × Word :=
  let x := s.te[e]
  if 0x100 ≤ off ∧ off < 0x200 then plain x.disp[Fin.ofNat 64 ((off - 0x100) / 4)] s
  else if 0x200 ≤ off ∧ off < 0x240 then plain (x.shows x.g[Fin.ofNat 16 ((off - 0x200) / 4)]) s
  else match off with
  | 0x00 => plain (pack [(x.wdog.toNat, 24), (b2n x.framereq, 16)]) s
  | 0x04 => readClear x.cmd.word (modTe e fun x => { x with cmd := x.cmd.clear }) s
  | 0x08 => plain x.stateWord s
  | 0x0C => plain (nat x.ready.length) s
  | 0x10 => plain (x.stat.setWidth 32) s
  | 0x14 => plain x.ie s
  | 0x18 => readClear (pack [(x.peak.toNat, 16), (x.last.toNat, 0)]) (modTe e fun x => { x with peak := 0 }) s
  | 0x1C => readClear x.defer (modTe e fun x => { x with defer := 0 }) s
  | 0x20 => readClear (pack [(x.ovr.toNat, 24), (x.abandon.toNat, 16), (x.fdisc.toNat, 8), (x.merge.toNat, 0)])
      (modTe e fun x => { x with ovr := 0, abandon := 0, fdisc := 0, merge := 0 }) s
  | 0x24 => readClear (pack [(x.qdrop.toNat, 24), (x.undisp.toNat, 16), (x.disc.toNat, 8), (x.pblock.toNat, 0)])
      (modTe e fun x => { x with qdrop := 0, undisp := 0, disc := 0, pblock := 0 }) s
  | 0x28 => plain x.mcWord s
  | 0x30 => plain x.wellsel[0] s
  | 0x34 => plain x.wellsel[1] s
  | 0x60 => readClear (pack [(x.wrej.toNat, 24), (x.inj.toNat, 16), (x.par.toNat, 8)]) (modTe e fun x => { x with wrej := 0 }) s
  | 0x240 => plain (x.shows (x.lc.setWidth 32)) s
  | 0x244 => plain (x.shows (x.flags.setWidth 32)) s
  | _ => plain 0 s

/-- TE_CMD (Table 3.8). -/
def teCmdWrite (e : Fin 16) (v : Word) (s : State) : State :=
  match fld v 3 0 with
  | 1 => teStart e s
  | 2 => teStop e s
  | 3 => teHalt e s
  | 4 => teVerify e s
  | 5 => teClear e s
  | _ => teAnswer e .argInvalid s

def teWrite (e : Fin 16) (off : Nat) (v : Word) (s : State) : State :=
  if 0x100 ≤ off ∧ off < 0x200 then
    modTe e (fun x => { x with disp := x.disp.set (Fin.ofNat 64 ((off - 0x100) / 4)) (v &&& 0xC0FF_07FF) }) s
  else if 0x40 ≤ off ∧ off < 0x60 then doorbell e (Fin.ofNat 8 ((off - 0x40) / 4)) v s
  else match off with
  | 0x00 => modTe e (fun x => { x with wdog := BitVec.ofNat 8 (max 1 (fld v 31 24)), framereq := bit v 16 }) s
  | 0x04 => teCmdWrite e v s
  | 0x10 => modTe e (fun x => { x with stat := w1c x.stat v }) s
  | 0x14 => modTe e (fun x => { x with ie := v &&& 0x3FF }) s
  | 0x30 => modTe e (fun x => { x with wellsel := x.wellsel.set 0 (v &&& 0xBFBF_BFBF) }) s
  | 0x34 => modTe e (fun x => { x with wellsel := x.wellsel.set 1 (v &&& 0xBFBF_BFBF) }) s
  | 0x60 => modTe e (fun x => { x with inj := BitVec.ofNat 8 (fld v 23 16) }) s
  | _ => s

/-- A dword of a microcode window (R138, R140). -/
def mcRead (e : Fin 16) (off : Nat) (s : State) : State × Word := windowRead e (Fin.ofNat 2048 (off / 16)) (off % 16 / 4) s
def mcWrite (p : Port) (e : Fin 16) (off : Nat) (v : Word) (s : State) : State :=
  match off % 16 / 4 with
  | 0 => stageDword p e 0 v s
  | 1 => stageDword p e 1 v s
  | 2 => stageDword p e 2 v s
  | _ => storeWord p e (Fin.ofNat 2048 (off / 16)) v s

/-! Wheel inputs and trackers. -/

def winRead (i : Fin 8) (off : Nat) (s : State) : State × Word :=
  let w := s.win[i]
  match off with
  | 0x0 => plain w.cfg s
  | 0x4 => plain (pack [(w.thr, 16), (w.peak.toNat, 0)]) s
  | _ => plain 0 s

def wtRead (p : Port) (t : Fin 4) (off : Nat) (s : State) : State × Word :=
  let x := s.wt[t]
  match off with
  | 0x00 => plain x.cfg s
  | 0x04 => readClear (x.cmd.word ||| pack [(b2n x.srch, 16), (x.srce.toNat, 12)]) (modWt t fun x => { x with cmd := x.cmd.clear }) s
  | 0x08 => plain (x.rev.setWidth 32) s
  | 0x0C => plain x.stateWord s
  | 0x10 => plain (x.stat.setWidth 32) s
  | 0x14 => plain x.ie s
  | 0x18 => plain x.note s
  | 0x1C => plain x.filt s
  | 0x20 => plain x.win s
  | 0x24 => plain x.limits s
  | 0x28 => plain x.pred s
  | 0x2C => plain x.ref s
  | 0x30 => plain (lo32 x.wpat) s
  | 0x34 => plain (hi32 x.wpat) s
  | 0x38 => plain x.phaseCfg s
  | 0x40 => plain (x.published s.tb.now) s
  | 0x44 => plain x.speed s
  | 0x48 => readLow p (.wtTooth t) s
  | 0x4C => readHighOf p (.wtTooth t) s
  | 0x50 => plain x.periodWord s
  | 0x54 => plain x.accelWord s
  | 0x58 => plain x.resid s
  | 0x5C => readClear x.resmax (modWt t fun x => { x with resmax := 0 }) s
  | 0x60 => readClear (pack [(x.noise.toNat, 24), (x.synth.toNat, 16), (x.reffail.toNat, 8), (x.losts.toNat, 0)])
      (modWt t fun x => { x with noise := 0, synth := 0, reffail := 0, losts := 0 }) s
  | 0x64 => plain x.teeth s
  | 0x68 => plain x.phase s
  | 0x6C => plain x.prate s
  | 0x70 => plain (lo32 x.cls) s
  | 0x74 => plain (hi32 x.cls) s
  | 0x78 => plain (pack [(min 255 x.refrun, 8), (min 255 x.good, 0)]) s
  | _ => plain 0 s

/-- WT_CMD (Table 5.8). -/
def wtCmdWrite (t : Fin 4) (v : Word) (s : State) : State :=
  match fld v 3 0 with
  | 1 => wtStart t s
  | 2 => wtStop t s
  | 3 => wtReseek t none s
  | 4 => wtSetrev t s
  | _ => wtAnswer t none .argInvalid s

/-- A write that only a STOPPED tracker takes (R166). -/
def wtStopped (t : Fin 4) (f : Trk → Trk) (s : State) : State :=
  modWt t (fun x => if x.st = .stopped then f x else x) s
/-- A field of 8 bits or fewer that is stored within bounds. -/
def clampFld (hi lo least most : Nat) (v : Word) : Word := putFld v hi lo (min most (max least (fld v hi lo)))

/-- A change of the filter or of its source ends a run of agreeing samples (R52, R146). -/
def Trk.refilter (now : Stamp) (restart : Bool) (x : Trk) : Trk := if restart then { x with filtFrom := some now } else x

def wtWrite (t : Fin 4) (off : Nat) (v : Word) (s : State) : State :=
  match off with
  | 0x00 => wtStopped t (fun x =>
      { (x.refilter s.tb.now (decide (fld v 26 24 ≠ fld x.cfg 26 24 ∨ bit v 30 ≠ bit x.cfg 30))) with cfg := v &&& 0x7F00_0FFF }) s
  | 0x04 => wtCmdWrite t v s
  | 0x08 => modWt t (fun x => { x with rev := v.setWidth 8 }) s
  | 0x10 => modWt t (fun x => { x with stat := w1c x.stat v }) s
  | 0x14 => modWt t (fun x => { x with ie := v &&& 0x1_07FF }) s
  | 0x18 => modWt t (fun x => { x with note := v &&& 0xFFFF_003B }) s
  | 0x1C => wtStopped t (fun x =>
      let w := clampFld 31 24 1 255 (v &&& 0xFF00_E000)
      { (x.refilter s.tb.now (decide (w ≠ x.filt))) with filt := w }) s
  | 0x20 => wtStopped t (fun x => { x with win := clampFld 15 8 65 255 (clampFld 7 0 1 63 (v &&& 0xFFFF)) }) s
  | 0x24 => modWt t (fun x => { x with limits := clampFld 23 16 4 255 (clampFld 15 8 1 255 (clampFld 7 0 1 255 (v &&& 0xFF_FFFF))) }) s
  | 0x28 => modWt t (fun x => { x with pred := clampFld 31 24 1 255 (clampFld 7 0 1 255 (v &&& 0xFF0F_F7FF)) }) s
  | 0x2C => wtStopped t (fun x => { x with ref := clampFld 21 16 1 63 (clampFld 13 8 1 63 (v &&& 0x3F_3F7F)) }) s
  | 0x30 => wtStopped t (fun x => { x with wpat := join (hi32 x.wpat) v }) s
  | 0x34 => wtStopped t (fun x => { x with wpat := join v (lo32 x.wpat) }) s
  | 0x38 => modWt t (fun x => { x with phaseCfg := (x.phaseCfg &&& 0x6000_0000) ||| (v &&& 0x8000_0003) }) s
  | _ => s

/-! Event tables. -/

def evRead (t : Fin 4) (off : Nat) (s : State) : State × Word :=
  let x := s.wt[t]
  let count (f : EvEntry → Bool) : Nat := (x.table.filter f).length
  match off with
  | 0x00 => plain x.evcfg s
  | 0x04 => readClear x.evcmd.word (modWt t fun x => { x with evcmd := x.evcmd.clear }) s
  | 0x08 => plain (x.evarg.setWidth 32) s
  | 0x0C => plain (x.evstat.setWidth 32) s
  | 0x10 => plain (pack [(count fun v => decide (v.st = .issued ∨ v.st = .committed), 16), (count fun v => decide (v.st ≠ .free), 0)]) s
  | 0x14 => readClear (pack [(x.evLate.toNat, 24), (x.evDrop.toNat, 16), (x.evReiss.toNat, 8), (x.evExtrap.toNat, 0)])
      (modWt t fun x => { x with evLate := 0, evDrop := 0, evReiss := 0, evExtrap := 0 }) s
  | 0x18 => readClear (pack [(x.evFull.toNat, 24), (x.evDefer.toNat, 16), (x.evDisc.toNat, 8), (x.evChfail.toNat, 0)])
      (modWt t fun x => { x with evFull := 0, evDefer := 0, evDisc := 0, evChfail := 0 }) s
  | 0x1C => plain x.squashes s
  | _ => plain 0 s

def evWrite (t : Fin 4) (off : Nat) (v : Word) (s : State) : State :=
  match off with
  | 0x00 => defer (.evCfg t) <| modWt t (fun x => { x with evcfg := clampFld 31 24 16 255 (clampFld 23 19 1 25 (v &&& 0xFFF8_000F)) }) s
  | 0x04 =>
    match fld v 3 0 with
    | 1 => evFlush t s
    | 2 => evCancel t s
    | _ => evAnswer t .argInvalid s
  | 0x08 => modWt t (fun x => { x with evarg := v.setWidth 11 }) s
  | 0x0C => modWt t (fun x => { x with evstat := w1c x.evstat v }) s
  | _ => s

/-- The block of the trackers, 0x0018_0000 to 0x0019_FFFF. -/
def wtBlockRead (p : Port) (off : Nat) (s : State) : State × Word :=
  if off < 0x4000 then wtRead p (Fin.ofNat 4 (off / 0x1000)) (off % 0x1000) s
  else if off < 0x4080 then winRead (Fin.ofNat 8 ((off - 0x4000) / 0x10)) (off % 0x10) s
  else if 0x8000 ≤ off ∧ off < 0x8400 then evRead (Fin.ofNat 4 ((off - 0x8000) / 0x100)) (off % 0x100) s
  else if 0x1_0000 ≤ off then
    plain ((s.wt[Fin.ofNat 4 ((off - 0x1_0000) / 0x4000)].entry (off % 0x4000 / 16)).word (off % 16 / 4)) s
  else plain 0 s
def wtBlockWrite (off : Nat) (v : Word) (s : State) : State :=
  if off < 0x4000 then wtWrite (Fin.ofNat 4 (off / 0x1000)) (off % 0x1000) v s
  else if off < 0x4080 then
    if off % 0x10 = 0 then writeWin (Fin.ofNat 8 ((off - 0x4000) / 0x10)) v s else s
  else if 0x8000 ≤ off ∧ off < 0x8400 then evWrite (Fin.ofNat 4 ((off - 0x8000) / 0x100)) (off % 0x100) v s
  else s

/-! Shift engines. -/

def ShState.code : ShState → Nat
  | .stopped => 0 | .run => 1 | .halted => 2

/-- SE_STATE.WAIT (Table 7.16). -/
def Shift.waitCode (clk : Nat) (x : Shift) : Nat :=
  if x.st ≠ .run then 0
  else match x.wait with
  | .none => 0
  | .shift out _ =>
    if !x.ckrun then 6
    else if x.drainOwed.isSome && !x.rxRoom then 2
    else if x.drainOwed.isNone && x.stalled clk out then 1 else 3
  | .idle => if x.ckrun then 3 else 6
  | .fill => 1
  | .drain => 2
  | .await _ => 4
  | .barrier _ => 5

/-- SE_STATE (Table 7.16). -/
def Shift.stateWord (clk : Nat) (x : Shift) : Word :=
  pack [(x.st.code, 30), (b2n x.progchg, 29), (x.waitCode clk, 26), (b2n x.ckrun, 25), (b2n x.f, 24), (b2n x.trg, 23),
        (x.rem, 18), (x.idle, 14), (b2n x.divlim, 13), (x.pc.toNat, 0)]

def seRead (e : Fin 32) (off : Nat) (s : State) : State × Word :=
  let x := s.se[e]
  if 0x80 ≤ off ∧ off < 0x100 then plain (x.prog[Fin.ofNat 32 ((off - 0x80) / 4)].setWidth 32) s
  else match off with
  | 0x00 => plain x.cfg s
  | 0x04 => readClear x.cmd.word (modSe e fun x => { x with cmd := x.cmd.clear }) s
  | 0x08 => plain (x.clkdiv.setWidth 32) s
  | 0x0C => plain (pack [(x.wrapHi.toNat, 8), (x.wrapLo.toNat, 0)]) s
  | 0x10 => plain (x.entry.setWidth 32) s
  | 0x14 => plain (x.stateWord s.tb.clk) s
  | 0x18 =>
    let si := sideLevels e ((Config.inputLevels s.free).setWidth 4) s
    plain (pack [((x.tx.take x.txDepth).length, 28), (x.rxSeen.length, 24), (x.olv, 16), (x.ilv, 8), (si.toNat, 0)]) { s with free := s.free + 1 }
  | 0x1C => plain (x.stat.setWidth 32) s
  | 0x20 => plain x.ie s
  | 0x24 => plain x.sr s
  | 0x28 => plain (x.scnt.setWidth 32) s
  | 0x2C => plain x.cmpv s
  | 0x30 => plain x.cmpm s
  | 0x38 => rxRead e s
  | 0x3C => plain (x.temask.setWidth 32 <<< 16) s
  | 0x40 => readClear (pack [(x.under.toNat, 24), (x.overn.toNat, 16), (x.htxdrop.toNat, 8), (x.trglost.toNat, 0)])
      (modSe e fun x => { x with under := 0, overn := 0, htxdrop := 0, trglost := 0 }) s
  | _ => plain 0 s

/-- SE_CMD (Table 7.2). -/
def seCmdWrite (e : Fin 32) (v : Word) (s : State) : State :=
  match fld v 3 0 with
  | 1 => engineCommand .start false e s
  | 2 => engineCommand .stop false e s
  | 3 => engineCommand .halt false e s
  | 4 => engineCommand .resume (bit v 4) e s
  | 5 => trigEngine e s
  | _ => seAnswer e .argInvalid s

/-- SE_GCMD (Table 7.9). -/
def seGcmdWrite (v : Word) (s : State) : State :=
  let g : Fin 8 := Fin.ofNat 8 (fld v 6 4)
  match fld v 3 0 with
  | 1 => groupCommand .start false g s
  | 2 => groupCommand .halt false g s
  | 3 => groupCommand .resume (bit v 7) g s
  | 4 => groupCommand .stop false g s
  | _ => { s with seg := s.seg.answer .argInvalid }

/-- The block of the shift engines, 0x001A_0000 to 0x001B_FFFF. -/
def seBlockRead (off : Nat) (s : State) : State × Word :=
  if off < 0x2000 then seRead (Fin.ofNat 32 (off / 0x100)) (off % 0x100) s
  else if off = 0x2000 then readClear s.seg.word (fun s => { s with seg := s.seg.clear }) s
  else plain 0 s
def seBlockWrite (off : Nat) (v : Word) (s : State) : State :=
  if off < 0x2000 then
    let e : Fin 32 := Fin.ofNat 32 (off / 0x100)
    match off % 0x100 with
    | 0x04 => seCmdWrite e v s
    | 0x34 => txWrite e v s
    | r => seWrite e r v s
  else if off = 0x2000 then seGcmdWrite v s
  else s

end Sys2Proof.Machine
end

