-- ==== Sys2Proof/Machine/RegMem.lean ====
section
/-! DEFINITION. RegMem: reads and writes of the registers of the guards, the pin matrix, the wells, the
pumps and the Cistern (Tables 8.6 to 8.10, 10.8 to 10.10). -/

namespace Sys2Proof.Machine

/-! Guards. -/

/-- GUARD_CFG as it is stored (Table 8.9). -/
def guardCfgStored (v : Word) : Word :=
  let v := clampFld 20 16 0 20 (v &&& 0xFC1F_0000)
  if fld v 28 27 = 3 then putFld v 28 27 2 else v

/-- A guard field is written unless SYS_LOCK.GUARD is set; SAFE and HOLDPASS apply from the next cycle (R248). -/
def guardSet (p : Fin 288) (f : Pin → Pin) (s : State) : State :=
  if s.sys.lock then s else defer (.guard p) (modPin p f s)

def guardRead (p : Fin 288) (off : Nat) (s : State) : State × Word :=
  let x := s.pin[p]
  match off with
  | 0x00 => plain x.gcfg s
  | 0x04 => plain x.minw s
  | 0x08 => plain x.maxw s
  | 0x0C => plain x.gap s
  | 0x10 => plain x.budget s
  | 0x14 => plain (pack [(b2n x.forced, 31), (b2n ((pinSource s p).getD false), 30), (x.gstat.toNat, 0)]) s
  | 0x18 => readClear (pack [(x.suppr.toNat, 24), (x.clip.toNat, 16), (x.force.toNat, 8)])
      (modPin p fun x => { x with suppr := 0, clip := 0, force := 0 }) s
  | _ => plain (nat (x.usedAt s.tb.now / 64)) s

def guardWrite (p : Fin 288) (off : Nat) (v : Word) (s : State) : State :=
  match off with
  | 0x00 => guardSet p (fun x => { x with gcfg := guardCfgStored v }) s
  | 0x04 => guardSet p (fun x => { x with minw := v }) s
  | 0x08 => guardSet p (fun x => { x with maxw := v }) s
  | 0x0C => guardSet p (fun x => { x with gap := v }) s
  | 0x10 => guardSet p (fun x => { x with budget := v &&& 0xFFFF }) s
  | 0x14 => modPin p (fun x => { x with gstat := w1c x.gstat v }) s
  | _ => s

/-- The bits of GUARD_FAULT whose condition still holds (R250). -/
def standing (s : State) : BitVec 5 := BitVec.ofNat 5 (b2n (anyMchk s) + 2 * b2n (anyForced s) + 4 * b2n s.link.timef)

/-- The block of the guards, 0x001C_0000 to 0x001D_FFFF. -/
def guardBlockRead (off : Nat) (s : State) : State × Word :=
  if off < 0x2400 then guardRead (Fin.ofNat 288 (off / 0x20)) (off % 0x20) s
  else match off with
  | 0x4000 => plain (pack [(b2n (nfault s), 31), (s.pins.fault.toNat, 0)]) s
  | 0x4004 => plain s.pins.ie s
  | 0x4008 => plain s.pins.last s
  | 0x400C => plain (nat (forcedPins s)) s
  | _ => plain 0 s
def guardBlockWrite (off : Nat) (v : Word) (s : State) : State :=
  if off < 0x2400 then guardWrite (Fin.ofNat 288 (off / 0x20)) (off % 0x20) v s
  else match off with
  | 0x4000 => modPins (fun b => { b with fault := b.fault &&& (~~~ v.setWidth 5 ||| standing s) }) s
  | 0x4004 => modPins (fun b => { b with ie := v &&& 0x11F }) s
  | _ => s

/-! Pin matrix. -/

def pinBlockRead (off : Nat) (s : State) : State × Word :=
  if 0x1000 ≤ off ∧ off < 0x1480 then plain (s.pin[Fin.ofNat 288 ((off - 0x1000) / 4)].osel) s
  else if 0x2000 ≤ off ∧ off < 0x2480 then plain (s.pin[Fin.ofNat 288 ((off - 0x2000) / 4)].io) s
  else if 0x3000 ≤ off ∧ off < 0x3400 then plain (s.pins.chin[Fin.ofNat 256 ((off - 0x3000) / 4)].setWidth 32) s
  else if 0x4000 ≤ off ∧ off < 0x4800 then
    plain (if off % 0x40 < 0x30 then
      (s.pins.sein[Fin.ofNat 32 ((off - 0x4000) / 0x40)][Fin.ofNat 12 (off % 0x40 / 4)]).setWidth 32 else 0) s
  else match off with
  | 0x0 => readClear s.pins.cmd.word (modPins fun b => { b with cmd := b.cmd.clear }) s
  | 0x4 => plain (pack [(b2n s.pins.en, 31), (s.pins.lock.toNat, 16), (b2n s.pins.vlvOk, 8), (s.pins.vioOk.toNat, 0)]) s
  | 0x8 => plain s.pins.evt s
  | _ => plain 0 s

/-- PIN_CMD (R234). -/
def pinCmdWrite (v : Word) (s : State) : State :=
  match fld v 3 0 with
  | 1 => pinCommand (pinEnableStatus s) (matrixTo true) s
  | 2 => pinCommand (pinDisableStatus s) (matrixTo false) s
  | _ => pinAnswer .argInvalid s

def pinBlockWrite (off : Nat) (v : Word) (s : State) : State :=
  match off with
  | 0x0 => pinCmdWrite v s
  | 0x8 => modPins (fun b => { b with evt := b.evt &&& ~~~ v }) s
  | _ => writeMatrix off v s

/-! Wells. -/

/-- A peek by the host: the oldest item, the idle item of an empty well, 0 when refused (R298, R300, R302). -/
def wellPeek (k : Fin 64) (s : State) : State × BitVec 64 :=
  let x := s.well[k]
  if !x.reads 1 then (modWell k Well.refuse s, 0)
  else match x.seen s.tb.clk with
    | [] => (s, x.idle)
    | i :: _ => (wellReport k i s, i.data)

/-- WELL_COUNT (Table 10.9). -/
def Well.countWord (clk : Nat) (x : Well) : Word :=
  let head : Nat := match x.seen clk with | [] => 2 | i :: _ => i.readTag.toNat
  pack [(b2n x.en, 31), (head, 28), (x.lastTag.toNat, 26), (x.count clk, 0)]

def wellRead (p : Port) (k : Fin 64) (off : Nat) (s : State) : State × Word :=
  let x := s.well[k]
  match off with
  | 0x00 => plain x.cfg s
  | 0x04 => readClear x.cmd.word (modWell k fun x => { x with cmd := x.cmd.clear }) s
  | 0x08 => plain (x.countWord s.tb.clk) s
  | 0x0C => plain (x.stat.setWidth 32) s
  | 0x10 => plain x.ie s
  | 0x14 => readClear (pack [(x.drop.toNat, 24), (x.parerr.toNat, 16), (x.refused.toNat, 8)])
      (modWell k fun x => { x with drop := 0, parerr := 0, refused := 0 }) s
  | 0x18 => plain x.gcnt s
  | 0x1C => plain (x.temask.setWidth 32) s
  | 0x20 => plain (lo32 x.idle) s
  | 0x24 => plain (hi32 x.idle) s
  | 0x30 => readLow p (.wellPop k) s
  | 0x34 => readHighOf p (.wellPop k) s
  | 0x38 => let (s, v) := wellPeek k s; plain (lo32 v) s
  | 0x3C => let (s, v) := wellPeek k s; plain (hi32 v) s
  | _ => plain 0 s

/-- WELL_CMD (R305). -/
def wellCmdWrite (k : Fin 64) (v : Word) (s : State) : State :=
  match fld v 3 0 with
  | 1 => wellCommand k (wellEnableStatus k s) (fun x => { x with en := true }) s
  | 2 => wellCommand k (wellOnStatus k s) (Well.disable s.tb.clk) s
  | 3 => wellCommand k (wellOnStatus k s) (Well.empty s.tb.clk) s
  | _ => wellAnswer k .argInvalid s

def wellStage (p : Port) (k : Fin 64) (v : Word) (s : State) : State :=
  modWell k (fun x => match p with
    | .pcie _ => { x with stagePcie := v }
    | .spi => { x with stageSpi := v }) s

def wellWrite (p : Port) (k : Fin 64) (off : Nat) (v : Word) (s : State) : State :=
  match off with
  | 0x00 => if s.well[k].en then wellAnswer k .stateRefused s else modWell k (fun x => { x with cfg := v &&& 0xFCFC_77FF }) s
  | 0x04 => wellCmdWrite k v s
  | 0x0C => modWell k (fun x => { x with stat := w1c x.stat v }) s
  | 0x10 => modWell k (fun x => { x with ie := v &&& 0x1_0007 }) s
  | 0x1C => modWell k (fun x => { x with temask := v.setWidth 16 }) s
  | 0x20 => modWell k (fun x => { x with idle := join (hi32 x.idle) v }) s
  | 0x24 => modWell k (fun x => { x with idle := join v (lo32 x.idle) }) s
  | 0x28 => wellStage p k v s
  | 0x2C => hostPush p k v s
  | _ => s

/-! Pumps. -/

def PumpState.code : PumpState → Nat
  | .stopped => 0 | .run => 1 | .stopping => 2 | .error => 3

/-- PUMP_PROGRESS (Table 10.10, R311). -/
def Pump.progress (x : Pump) : Nat :=
  match x.desc with
  | some d => if d.circ then x.offset else x.moved
  | none => x.moved

def pumpRead (u : Fin 8) (off : Nat) (s : State) : State × Word :=
  let x := s.pump[u]
  match off with
  | 0x00 => plain x.cfg s
  | 0x04 => readClear x.cmd.word (modPump u fun x => { x with cmd := x.cmd.clear }) s
  | 0x08 => plain (pack [(x.state.code, 30), (b2n (x.wait || pumpWaits u s), 29), (x.lastCode.toNat, 26)]) s
  | 0x0C => plain (x.stat.setWidth 32) s
  | 0x10 => plain x.ie s
  | 0x14 => plain x.ringcfg s
  | 0x18 => plain (lo32 x.ring) s
  | 0x1C => plain (hi32 x.ring) s
  | 0x20 => plain (x.head.setWidth 32) s
  | 0x24 => plain (x.tail.setWidth 32) s
  | 0x28 => plain (nat (x.progress % 2 ^ 24)) s
  | 0x2C => readClear (pack [(x.done.toNat, 24), (x.err.toNat, 16)]) (modPump u fun x => { x with done := 0, err := 0 }) s
  | _ => plain 0 s

/-- PUMP_CMD (R306). -/
def pumpCmdWrite (u : Fin 8) (v : Word) (s : State) : State :=
  match fld v 3 0 with
  | 1 => let s := endDoze s; pumpCommand u (pumpStartStatus s.pump[u]) (fun x => { x with state := .run }) s
  | 2 => pumpCommand u (pumpStopStatus s.pump[u]) Pump.stop s
  | _ => pumpAnswer u .argInvalid s

def pumpWrite (u : Fin 8) (off : Nat) (v : Word) (s : State) : State :=
  match off with
  | 0x00 => pumpGuarded u (fun x => { x with cfg := v &&& 0xC000_0000 }) s
  | 0x04 => pumpCmdWrite u v s
  | 0x0C => modPump u (fun x => { x with stat := w1c x.stat v }) s
  | 0x10 => modPump u (fun x => { x with ie := v &&& 0x1_001F }) s
  | 0x14 => pumpGuarded u (fun x => { x with ringcfg := v &&& 0x8000_000F }) s
  | 0x18 => pumpGuarded u (fun x => { x with ring := join (hi32 x.ring) (v &&& 0xFFFF_FFE0) }) s
  | 0x1C => pumpGuarded u (fun x => { x with ring := join v (lo32 x.ring) }) s
  | 0x24 => writeTail u (v.setWidth 16) s
  | _ => s

/-! Cistern. -/

def bankRead (b : Fin 8) (off : Nat) (s : State) : State × Word :=
  let x := s.cis.banks[b]
  match off with
  | 0x00 => plain x.own s
  | 0x04 => plain (x.bstat.setWidth 32) s
  | 0x08 => plain (x.bie.setWidth 32) s
  | 0x0C => readClear (pack [(x.wl.toNat, 24), (x.af.toNat, 16), (x.ce.toNat, 0)])
      (modBank b fun x => { x with wl := 0, af := 0, ce := 0 }) s
  | 0x10 => plain x.ceaddr s
  | 0x14 => plain x.ueaddr s
  | 0x18 => plain x.afault s
  | _ => plain x.wlost s
def bankWrite (b : Fin 8) (off : Nat) (v : Word) (s : State) : State :=
  match off with
  | 0x00 => handover b v s
  | 0x04 => modBank b (fun x => { x with bstat := w1c x.bstat v }) s
  | 0x08 => modBank b (fun x => { x with bie := v.setWidth 4 }) s
  | _ => s

def cisRead (off : Nat) (s : State) : State × Word :=
  if 0x100 ≤ off ∧ off < 0x200 then bankRead (Fin.ofNat 8 ((off - 0x100) / 0x20)) (off % 0x20) s
  else match off with
  | 0x00 => readClear (pack [(s.cis.cmd.refusals.toNat, 24), (s.cis.cmd.status.code, 16), (s.cis.init.toNat, 0)])
      (modCis fun c => { c with cmd := c.cmd.clear }) s
  | 0x04 => plain (pack [(b2n s.cis.scrubEn, 31), (s.cis.intv.toNat, 0)]) s
  | 0x08 => plain (pack [(s.cis.passes.toNat, 24), (s.cis.scrubWord, 3)]) s
  | 0x0C => plain (s.cis.inj.setWidth 32) s
  | 0x10 => plain (pack [(b2n s.cis.refie, 0)]) s
  | _ => plain 0 s
def cisWrite (off : Nat) (v : Word) (s : State) : State :=
  if 0x100 ≤ off ∧ off < 0x200 then bankWrite (Fin.ofNat 8 ((off - 0x100) / 0x20)) (off % 0x20) v s
  else match off with
  | 0x04 => writeScrub v s
  | 0x0C => modCis (fun c => { c with inj := v.setWidth 16 }) s
  | 0x10 => modCis (fun c => { c with refie := bit v 0 }) s
  | _ => s

end Sys2Proof.Machine
end

