-- ==== Sys2Proof/Machine/RegLine.lean ====
section
/-! DEFINITION. RegLine: reads and writes of the registers of the product lines, the converters, the line
link and the recorder (Tables 9.10 to 9.17, 12.8 to 12.12, 13.6 to 13.10, 15.4 and 15.5). -/

namespace Sys2Proof.Machine

/-! Product lines. -/

def SlotState.code : SlotState → Nat
  | .free => 0 | .opened => 1 | .bound => 2 | .rejecting => 3

/-- JOB_LEVEL (Table 9.14); a watermark of 0 is off, and LOW then reads its reset value (log 21). -/
def Line.levelWord (x : Line) : Word :=
  pack [(x.ahead, 19), (x.inflight, 9), (b2n (decide (x.ahead < x.level.toNat ∨ (x.level = 0 ∧ x.ahead = 0))), 8), (x.heldCount, 0)]
/-- A counter register: four counters, lowest byte first (Table 9.16). -/
def Line.cntWord (i : Fin 5) (x : Line) : Word :=
  pack ((List.finRange 4).map fun (j : Fin 4) => ((x.cnt[4 * i.val + j.val]'(by omega)).toNat, 8 * j.val))
def Line.cntClear (i : Fin 5) (x : Line) : Line :=
  { x with cnt := Vector.ofFn fun (j : Fin 20) => if j.val / 4 = i.val then 0 else x.cnt[j] }

def lineRead (p : Port) (t : Fin 4) (off : Nat) (s : State) : State × Word :=
  let x := s.job[t]
  if 0x28 ≤ off ∧ off < 0x40 then plain x.ofs[Fin.ofNat 6 ((off - 0x28) / 4)] s
  else if 0xA0 ≤ off ∧ off < 0xB4 then
    let i : Fin 5 := Fin.ofNat 5 ((off - 0xA0) / 4)
    readClear (x.cntWord i) (modLine t (Line.cntClear i)) s
  else match off with
  | 0x00 => plain x.cfg s
  | 0x04 => readClear x.cmd.word (modLine t fun x => { x with cmd := x.cmd.clear }) s
  | 0x08 => plain x.arg s
  | 0x0C => plain (pack [(b2n x.en, 31), (b2n x.markv, 30), (b2n x.rewinding, 29), (x.stat.toNat, 0)]) s
  | 0x10 => plain x.ie s
  | 0x14 => plain x.det s
  | 0x18 => plain x.gate s
  | 0x1C => plain x.gateW s
  | 0x20 => plain x.vpin s
  | 0x24 => plain x.pitch s
  | 0x40 => plain x.ring s
  | 0x44 => plain (x.wr.setWidth 32) s
  | 0x48 => plain (x.inp.setWidth 32) s
  | 0x4C => plain (pack [(x.rwEnd.toNat, 16), (x.mark.toNat, 0)]) s
  | 0x50 => plain x.delta s
  | 0x54 => readClear (pack [(x.cross.toNat, 24), (x.level.toNat, 0)]) (modLine t fun x => { x with cross := 0 }) s
  | 0x58 => plain x.psnNext s
  | 0x5C => plain x.base s
  | 0x60 => plain x.defAddr s
  | 0x64 => plain x.defLen s
  | 0x68 => plain x.wells s
  | 0x6C => plain (match p with | .pcie _ => x.stagePcie | .spi => x.stageSpi) s
  | 0x74 => plain x.levelWord s
  | 0x80 => plain (lo32 x.crBase) s
  | 0x84 => plain (hi32 x.crBase) s
  | 0x88 => plain x.crCfg s
  | 0x8C => plain (x.crWr.setWidth 32) s
  | 0x90 => plain (x.crRd.setWidth 32) s
  | _ => plain 0 s

/-- A write that an enabled line refuses (R279). -/
def lineGuarded (t : Fin 4) (f : Line → Line) (s : State) : State :=
  if s.job[t].en then jobAnswer t .stateRefused s else modLine t f s

/-- JOB_CMD (Table 9.9). -/
def jobCmdWrite (t : Fin 4) (v : Word) (s : State) : State :=
  match fld v 3 0 with
  | 1 => jobCommand t (jobEnableStatus t) (modLine t fun x => { x with en := true }) s
  | 2 => jobCommand t (jobDisableStatus t) (jobDisable t) s
  | 3 => jobCommand t (setmarkStatus t) (modLine t fun x => { x with mark := x.arg.setWidth 16, markv := true }) s
  | 4 => jobCommand t (rewindStatus t) (modLine t Line.rewind) s
  | 5 => jobCommand t (fun _ => .ok) (modLine t Line.flush) s
  | 6 => jobCommand t (setpsnStatus t) (modLine t fun x => { x with psnNext := x.arg }) s
  | _ => jobAnswer t .argInvalid s

/-- JOB_VREC_PSN: each requester port stages its own (R267). -/
def vrecPsn (p : Port) (t : Fin 4) (v : Word) (s : State) : State :=
  modLine t (fun x => match p with
    | .pcie _ => { x with stagePcie := v }
    | .spi => { x with stageSpi := v }) s

def lineWrite (p : Port) (t : Fin 4) (off : Nat) (v : Word) (s : State) : State :=
  if 0x28 ≤ off ∧ off < 0x40 then lineGuarded t (fun x => { x with ofs := x.ofs.set (Fin.ofNat 6 ((off - 0x28) / 4)) v }) s
  else match off with
  | 0x00 => lineGuarded t (fun x => { x with cfg := v &&& 0x7000_0000 }) s
  | 0x04 => jobCmdWrite t v s
  | 0x08 => modLine t (fun x => { x with arg := v }) s
  | 0x0C => modLine t (fun x => { x with stat := w1c x.stat v }) s
  | 0x10 => modLine t (fun x => { x with ie := v &&& 0x1_1FFF }) s
  | 0x14 => lineGuarded t (fun x => { x with det := v }) s
  | 0x18 => lineGuarded t (fun x => { x with gate := v &&& 0xFF80_07FF }) s
  | 0x1C => lineGuarded t (fun x => { x with gateW := v &&& 0xFF_FFFF }) s
  | 0x20 => lineGuarded t (fun x => { x with vpin := v &&& 0xFF80_0000 }) s
  | 0x24 => lineGuarded t (fun x => { x with pitch := v }) s
  | 0x40 => lineGuarded t (fun x => { x with ring := v &&& 0xF0FF_FFC0 }) s
  | 0x44 => writeRing t (v.setWidth 16) s
  | 0x50 => modLine t (fun x => { x with delta := v }) s
  | 0x54 => modLine t (fun x => { x with level := v.setWidth 13 }) s
  | 0x60 => lineGuarded t (fun x => { x with defAddr := v }) s
  | 0x64 => lineGuarded t (fun x => { x with defLen := v }) s
  | 0x68 => lineGuarded t (fun x => { x with wells := v &&& 0xBFBF_0000 }) s
  | 0x6C => vrecPsn p t v s
  | 0x70 => verdictRecord p t (fld v 31 28) s
  | 0x80 => lineGuarded t (fun x => { x with crBase := join (hi32 x.crBase) (v &&& 0xFFFF_FFF0) }) s
  | 0x84 => lineGuarded t (fun x => { x with crBase := join v (lo32 x.crBase) }) s
  | 0x88 => lineGuarded t (fun x => { x with crCfg := v &&& 0x9FF0_0000 }) s
  | 0x8C => lineGuarded t id s
  | 0x90 => modLine t (fun x => { x with crRd := v.setWidth 16 }) s
  | _ => s

/-- A dword of the slot view (Table 9.17). -/
def Slot.dword (v : Slot) (j : Nat) : Word :=
  match j with
  | 0 => v.psn
  | 1 => v.ang
  | 2 => pack [(v.st.code, 30), (v.kind.toNat, 28), (v.verdict.toNat, 26), (b2n v.printed, 25), (v.cause.toNat, 0)]
  | _ => 0

/-- The block of the product lines, 0x0024_0000 to 0x0025_FFFF. -/
def jobBlockRead (p : Port) (off : Nat) (s : State) : State × Word :=
  if off < 0x4000 then lineRead p (Fin.ofNat 4 (off / 0x1000)) (off % 0x1000) s
  else if 0x8000 ≤ off ∧ off < 0x1_0000 then
    plain ((s.job[Fin.ofNat 4 ((off - 0x8000) / 0x2000)].slots[Fin.ofNat 512 (off % 0x2000 / 16)]).dword (off % 16 / 4)) s
  else plain 0 s
def jobBlockWrite (p : Port) (off : Nat) (v : Word) (s : State) : State :=
  if off < 0x4000 then lineWrite p (Fin.ofNat 4 (off / 0x1000)) (off % 0x1000) v s else s

/-! Converters. -/

def ScState.code : ScState → Nat
  | .stopped => 0 | .run => 1 | .cal => 2

/-- The filter is not yet settled (Table 12.10). -/
def Conv.settling (clk : Nat) (x : Conv) : Bool :=
  decide (x.st ≠ .stopped) && (match x.phase with | .integrate _ => decide (clk < x.settleAt) | _ => true)
def Conv.dumping (x : Conv) : Bool := match x.phase with | .dump _ => true | _ => false

/-- SC_STATE (Table 12.10). -/
def convState (s : State) (x : Conv) : Word :=
  pack [(x.st.code, 30), (b2n x.calv, 29), (b2n x.marked, 28), (b2n (lpLim s x), 27), (b2n (fallback s x), 26),
        (x.input.toNat, 22), (x.entry.toNat, 18), (x.injections, 14), (b2n (x.settling s.tb.clk), 13), (b2n x.dumping, 12)]

/-- The registers of a converter; a watermark of 0 is off and HIGH reads its reset value (log 21). -/
def convRead (c : Fin 2) (off : Nat) (s : State) : State × Word :=
  let x := s.sc[c]
  if 0x80 ≤ off ∧ off < 0xC0 then plain x.scan[Fin.ofNat 16 ((off - 0x80) / 4)] s
  else if 0xC0 ≤ off ∧ off < 0x100 then plain x.last[Fin.ofNat 16 ((off - 0xC0) / 4)] s
  else match off with
  | 0x00 => plain x.cfg s
  | 0x04 => readClear x.cmd.word (modSc c fun x => { x with cmd := x.cmd.clear }) s
  | 0x08 => plain (x.arg.setWidth 32) s
  | 0x0C => plain (convState s x) s
  | 0x10 => plain (x.stat.setWidth 32) s
  | 0x14 => plain x.ie s
  | 0x18 => plain x.tint s
  | 0x1C => plain x.filt s
  | 0x20 => plain (pack [(b2n s.scs.valid, 31), (s.scs.period.toNat, 0)]) s
  | 0x24 => plain (x.ofs.setWidth 32) s
  | 0x28 => plain (x.gain.setWidth 32) s
  | 0x2C => plain (scTrim c) s
  | 0x30 => plain x.trig s
  | 0x34 => plain x.bufCfg s
  | 0x38 => plain (x.bufLen.setWidth 32) s
  | 0x3C => plain (pack [(x.rd.toNat, 4)]) s
  | 0x40 => plain (pack [(x.wr.toNat, 4)]) s
  | 0x44 => readClear (pack [(x.cross.toNat, 24), (b2n (decide (x.wm ≠ 0 ∧ x.wm.toNat ≤ x.level)), 23), (x.wm.toNat, 0)])
      (modSc c fun x => { x with cross := 0 }) s
  | 0x48 => readClear (pack [(x.cntOvr.toNat, 24), (x.cntRdrop.toNat, 16), (x.cntInj.toNat, 8), (x.cntBuf.toNat, 0)])
      (modSc c fun x => { x with cntOvr := 0, cntRdrop := 0, cntInj := 0, cntBuf := 0 }) s
  | _ => plain 0 s

/-- SC_CMD (Table 12.7). -/
def scCmdWrite (c : Fin 2) (v : Word) (s : State) : State :=
  match fld v 3 0 with
  | 1 => scStart c s
  | 2 => scStop c s
  | 3 => if bit v 4 then trimCal c s else selfCal c s
  | 4 => scInject c s
  | _ => scAnswer c .argInvalid s

/-- SC_SCAN as it is stored: `NRES` 0 as 1. -/
def scanStored (v : Word) : Word := clampFld 31 24 1 255 (v &&& 0xFF00_000F)

def convWrite (c : Fin 2) (off : Nat) (v : Word) (s : State) : State :=
  if 0x80 ≤ off ∧ off < 0xC0 then
    scGuarded c (fun x => { x with scan := x.scan.set (Fin.ofNat 16 ((off - 0x80) / 4)) (scanStored v) }) s
  else match off with
  | 0x00 => scGuarded c (fun x => { x with cfg := v &&& 0xBF80_0000 }) s
  | 0x04 => scCmdWrite c v s
  | 0x08 => modSc c (fun x => { x with arg := v.setWidth 4 }) s
  | 0x10 => modSc c (fun x => { x with stat := w1c x.stat v }) s
  | 0x14 => modSc c (fun x => { x with ie := v &&& 0x1_00FF }) s
  | 0x18 => scGuarded c (fun x => { x with tint := v }) s
  | 0x1C => scGuarded c (fun x => { x with filt := v }) s
  | 0x24 => scGuarded c (fun x => { x with ofs := v.setWidth 24 }) s
  | 0x28 => scGuarded c (fun x => { x with gain := v.setWidth 24 }) s
  | 0x30 => modSc c (fun x => { x with trig := v &&& 0xFF8F_000F }) s
  | 0x34 => scGuarded c (fun x => { x with bufCfg := v &&& 0x8700_0000 }) s
  | 0x38 => writeBufLen c v s
  | 0x3C => writeBufRd c v s
  | 0x44 => modSc c (fun x => { x with wm := v.setWidth 20 }) s
  | _ => s

/-- The block of the converters, 0x0026_0000 to 0x0027_FFFF. -/
def scBlockRead (off : Nat) (s : State) : State × Word :=
  if off < 0x800 then convRead (Fin.ofNat 2 (off / 0x400)) (off % 0x400) s
  else match off with
  | 0x800 => plain s.scs.plsCfg s
  | 0x804 => plain s.scs.plsLim s
  | 0x808 => plain s.scs.plsTmo s
  | 0x80C => readClear (pack [(b2n s.scs.fail, 31), (s.scs.cause.toNat, 29), (s.scs.failCnt.toNat, 16)])
      (modScs fun x => { x with failCnt := 0 }) s
  | 0x810 => plain (s.scs.diff.setWidth 32) s
  | _ => plain 0 s
def scBlockWrite (off : Nat) (v : Word) (s : State) : State :=
  if off < 0x800 then convWrite (Fin.ofNat 2 (off / 0x400)) (off % 0x400) v s
  else match off with
  | 0x800 => modScs (fun x => { x with plsCfg := clampFld 23 0 1 0xFF_FFFF (v &&& 0x80FF_FFFF) }) s
  | 0x804 => modScs (fun x => { x with plsLim := v &&& 0xFF_FFFF }) s
  | 0x808 => modScs (fun x => { x with plsTmo := clampFld 23 0 1 0xFF_FFFF (v &&& 0xFF_FFFF) }) s
  | 0x80C => modScs (fun x => { x with fail := x.fail && !bit v 31 }) s
  | _ => s

/-! Line link. -/

def PortState.code : PortState → Nat
  | .off => 0 | .down => 1 | .train => 2 | .up => 3 | .blocked => 4

/-- LINK_STATE (Table 13.7). -/
def linkStateWord (s : State) : Word :=
  pack [(b2n (isRoot s), 31), (b2n s.dom.observe, 30), (b2n s.link.tvalid, 29), (b2n s.link.timef, 28),
        (b2n s.link.mismatch, 27), (b2n s.link.oversize, 26), (s.link.path.toNat, 0)]
def LinkPort.word (x : LinkPort) : Word := pack [(x.state.code, 29), (x.bcause.toNat, 27), (x.ver.toNat, 25)]

def linkRead (off : Nat) (s : State) : State × Word :=
  let l := s.link
  if 0x30 ≤ off ∧ off < 0x40 then plain l.ports[Fin.ofNat 4 ((off - 0x30) / 4)].word s
  else if 0x40 ≤ off ∧ off < 0x50 then
    let k : Fin 4 := Fin.ofNat 4 ((off - 0x40) / 4)
    let x := l.ports[k]
    readClear (pack [(x.crc.toNat, 24), (x.loss.toNat, 16), (x.mdrop.toNat, 8), (x.code.toNat, 0)])
      (modPort k fun x => { x with crc := 0, loss := 0, mdrop := 0, code := 0 }) s
  else if 0x70 ≤ off ∧ off < 0x80 then plain (l.follow[Fin.ofNat 4 ((off - 0x70) / 4)].setWidth 32) s
  else if 0x84 ≤ off ∧ off < 0xA4 then plain l.txd[Fin.ofNat 8 ((off - 0x84) / 4)] s
  else if 0xA8 ≤ off ∧ off < 0xC8 then
    plain (match l.rxq with | m :: _ => m.data[Fin.ofNat 8 ((off - 0xA8) / 4)] | [] => 0) s
  else if 0x100 ≤ off ∧ off < 0x140 then plain l.dcfgWheel[Fin.ofNat 16 ((off - 0x100) / 4)] s
  else if 0x140 ≤ off ∧ off < 0x180 then plain l.dcfgUser[Fin.ofNat 16 ((off - 0x140) / 4)] s
  else if 0x180 ≤ off ∧ off < 0x1C0 then plain l.wheelAct[Fin.ofNat 16 ((off - 0x180) / 4)] s
  else match off with
  | 0x00 => plain l.cfg s
  | 0x04 => readClear l.cmd.word (modLink fun l => { l with cmd := l.cmd.clear }) s
  | 0x08 => plain (l.stat.setWidth 32) s
  | 0x0C => plain l.ie s
  | 0x10 => plain (linkStateWord s) s
  | 0x14 => plain l.tlim s
  | 0x18 => plain (l.hopadj.setWidth 32) s
  | 0x1C => plain l.tofs s
  | 0x20 => plain l.hopdly s
  | 0x50 => plain l.dver s
  | 0x54 => plain l.dverAct s
  | 0x58 => plain l.digest s
  | 0x5C => plain l.rootver s
  | 0x60 => plain l.rootdig s
  | 0x64 => plain (pack [(l.sum.devices, 16), (l.sum.observe, 0)]) s
  | 0x68 => plain (pack [(l.sum.safe, 16), (l.sum.timef, 0)]) s
  | 0x80 => plain l.txh s
  | 0xA4 => plain (match l.rxq with | m :: _ => msgHead m | [] => 0) s
  | _ => plain 0 s

/-- LINK_CMD (R397). -/
def linkCmdWrite (v : Word) (s : State) : State :=
  match fld v 3 0 with
  | 1 => linkCommit s
  | 2 => linkSend s
  | 3 => linkRxpop s
  | _ => linkAnswer .argInvalid s

def linkWrite (off : Nat) (v : Word) (s : State) : State :=
  if 0x70 ≤ off ∧ off < 0x80 then modLink (fun l => { l with follow := l.follow.set (Fin.ofNat 4 ((off - 0x70) / 4)) (v.setWidth 4) }) s
  else if 0x84 ≤ off ∧ off < 0xA4 then modLink (fun l => { l with txd := l.txd.set (Fin.ofNat 8 ((off - 0x84) / 4)) v }) s
  else if 0x100 ≤ off ∧ off < 0x140 then
    modLink (fun l => { l with dcfgWheel := l.dcfgWheel.set (Fin.ofNat 16 ((off - 0x100) / 4)) (v &&& 0x80CF_FFFF) }) s
  else if 0x140 ≤ off ∧ off < 0x180 then
    modLink (fun l => { l with dcfgUser := l.dcfgUser.set (Fin.ofNat 16 ((off - 0x140) / 4)) v }) s
  else match off with
  | 0x00 => writeLinkCfg v s
  | 0x04 => linkCmdWrite v s
  | 0x08 => modLink (fun l => { l with stat := w1c l.stat v }) s
  | 0x0C => modLink (fun l => { l with ie := v &&& 0x1_00FF }) s
  | 0x14 => modLink (fun l => { l with tlim := clampFld 31 16 64 0xFFFF (clampFld 6 0 1 64 (v &&& 0xFFFF_007F)) }) s
  | 0x18 => modLink (fun l => { l with hopadj := v.setWidth 16 }) s
  | 0x50 => modLink (fun l => { l with dver := v }) s
  | 0x80 => modLink (fun l => { l with txh := v &&& 0x8FFF_FFFF }) s
  | _ => s

/-! Recorder. -/

def RecState.code : RecState → Nat
  | .idle => 0 | .record => 1 | .drain => 2 | .replay => 3

/-- The registers of the recorder; a watermark of 0 is off and HIGH reads its reset value (log 21). -/
def recRead (off : Nat) (s : State) : State × Word :=
  let r := s.rcd
  if 0x60 ≤ off ∧ off < 0x70 then plain r.div[Fin.ofNat 4 ((off - 0x60) / 4)] s
  else if 0x80 ≤ off ∧ off < 0xA0 then plain r.chmask[Fin.ofNat 8 ((off - 0x80) / 4)] s
  else if 0xA0 ≤ off ∧ off < 0xC4 then plain r.pinmask[Fin.ofNat 9 ((off - 0xA0) / 4)] s
  else match off with
  | 0x00 => plain r.cfg s
  | 0x04 => plain r.mask s
  | 0x08 => readClear r.cmd.word (modRcd fun r => { r with cmd := r.cmd.clear }) s
  | 0x0C => plain (pack [(r.state.code, 30), (b2n r.frozen, 29), (r.wr.toNat, 0)]) s
  | 0x10 => plain (r.stat.setWidth 32) s
  | 0x14 => plain r.ie s
  | 0x18 => plain (r.rd.setWidth 32) s
  | 0x1C => readClear (pack [(r.cross.toNat, 24), (b2n (decide (r.wm ≠ 0 ∧ r.wm.toNat ≤ r.level)), 23), (r.wm.toNat, 0)])
      (modRcd fun r => { r with cross := 0 }) s
  | 0x20 => plain (r.post.setWidth 32) s
  | 0x24 => plain (r.origin.setWidth 32) s
  | 0x28 => plain ((r.origin >>> 32).setWidth 32) s
  | 0x2C => readClear r.lost (modRcd fun r => { r with lost := 0 }) s
  | 0x30 => readClear r.dcnt (modRcd fun r => { r with dcnt := 0 }) s
  | 0x50 => plain (pack [(min 64 r.expect.length, 24), (min 64 r.inject.length, 16), (r.replayQ.length, 0)]) s
  | _ => plain 0 s

/-- A write that only IDLE takes (R437). -/
def recGuarded (f : Recorder → Recorder) (s : State) : State :=
  if s.rcd.state = .idle then modRcd f s else recAnswer .stateRefused s

/-- REC_CMD (Table 15.2). -/
def recCmdWrite (v : Word) (s : State) : State :=
  match fld v 3 0 with
  | 1 => recStart s
  | 2 => recStop s
  | 3 => recFreeze s
  | 4 => recReplay s
  | _ => recAnswer .argInvalid s

def recWrite (off : Nat) (v : Word) (s : State) : State :=
  if 0x40 ≤ off ∧ off < 0x4C then modRcd (fun r => { r with rpq := r.rpq.set (Fin.ofNat 3 ((off - 0x40) / 4)) v }) s
  else if 0x80 ≤ off ∧ off < 0xA0 then recGuarded (fun r => { r with chmask := r.chmask.set (Fin.ofNat 8 ((off - 0x80) / 4)) v }) s
  else if 0xA0 ≤ off ∧ off < 0xC4 then recGuarded (fun r => { r with pinmask := r.pinmask.set (Fin.ofNat 9 ((off - 0xA0) / 4)) v }) s
  else match off with
  | 0x00 => recGuarded (fun r => { r with cfg := v &&& 0xFFC0_0000 }) s
  | 0x04 => recGuarded (fun r => { r with mask := v &&& 0xFF_BEFC }) s
  | 0x08 => recCmdWrite v s
  | 0x10 => modRcd (fun r => { r with stat := w1c r.stat v }) s
  | 0x14 => modRcd (fun r => { r with ie := v &&& 0x1_007F }) s
  | 0x18 => recLevel (fun r => { r with rd := v.setWidth 18 }) s
  | 0x1C => modRcd (fun r => { r with wm := v.setWidth 18 }) s
  | 0x20 => modRcd (fun r => { r with post := v.setWidth 17 }) s
  | 0x24 => modRcd (fun r => { r with origin := (r.origin >>> 32).setWidth 16 ++ v }) s
  | 0x28 => modRcd (fun r => { r with origin := v.setWidth 16 ++ r.origin.setWidth 32 }) s
  | 0x4C => rpqAppend v s
  | _ => s

end Sys2Proof.Machine
end

