-- ==== Sys2Proof/Machine/Regs.lean ====
section
/-! DEFINITION. Regs: the register space BAR0 (R24, R25, Table 1.4), reads and writes of any register of
it (R9 to R14), and the SPI sideband (R404 to R407). -/

namespace Sys2Proof.Machine

/-- A read of the dword at a BAR0 offset, with its side effects. -/
def readReg (p : Port) (a : Nat) (s : State) : State × Word :=
  if a < 0x1_0000 then sysRead a s
  else if a < 0x2_0000 then calmRead (a - 0x1_0000) s
  else if a < 0x4_0000 then icRead (a - 0x2_0000) s
  else if a < 0x8_0000 then tbRead p (a - 0x4_0000) s
  else if a < 0x8_4000 then chRead p (Fin.ofNat 256 ((a - 0x8_0000) / 64)) (a % 64) s
  else if a < 0xC_0000 then plain 0 s
  else if a < 0xD_0000 then teRead (Fin.ofNat 16 ((a - 0xC_0000) / 0x1000)) (a % 0x1000) s
  else if a < 0x10_0000 then plain 0 s
  else if a < 0x18_0000 then mcRead (Fin.ofNat 16 ((a - 0x10_0000) / 0x8000)) (a % 0x8000) s
  else if a < 0x1A_0000 then wtBlockRead p (a - 0x18_0000) s
  else if a < 0x1C_0000 then seBlockRead (a - 0x1A_0000) s
  else if a < 0x1E_0000 then guardBlockRead (a - 0x1C_0000) s
  else if a < 0x1E_1000 then wellRead p (Fin.ofNat 64 ((a - 0x1E_0000) / 0x40)) (a % 0x40) s
  else if a < 0x20_0000 then plain 0 s
  else if a < 0x20_0800 then pumpRead (Fin.ofNat 8 ((a - 0x20_0000) / 0x100)) (a % 0x100) s
  else if a < 0x22_0000 then plain 0 s
  else if a < 0x24_0000 then cisRead (a - 0x22_0000) s
  else if a < 0x26_0000 then jobBlockRead p (a - 0x24_0000) s
  else if a < 0x28_0000 then scBlockRead (a - 0x26_0000) s
  else if a < 0x2A_0000 then linkRead (a - 0x28_0000) s
  else if a < 0x2C_0000 then recRead (a - 0x2A_0000) s
  else if a < 0x2E_0000 then pinBlockRead (a - 0x2C_0000) s
  else plain 0 s

/-- A write of the whole dword at a BAR0 offset. -/
def writeReg (p : Port) (a : Nat) (v : Word) (s : State) : State :=
  if a < 0x1_0000 then sysWrite a v s
  else if a < 0x2_0000 then calmWrite (a - 0x1_0000) v s
  else if a < 0x4_0000 then icWrite (a - 0x2_0000) v s
  else if a < 0x8_0000 then tbWrite (a - 0x4_0000) v s
  else if a < 0x8_4000 then chWrite p (Fin.ofNat 256 ((a - 0x8_0000) / 64)) (a % 64) v s
  else if a < 0xC_0000 then s
  else if a < 0xD_0000 then teWrite (Fin.ofNat 16 ((a - 0xC_0000) / 0x1000)) (a % 0x1000) v s
  else if a < 0x10_0000 then s
  else if a < 0x18_0000 then mcWrite p (Fin.ofNat 16 ((a - 0x10_0000) / 0x8000)) (a % 0x8000) v s
  else if a < 0x1A_0000 then wtBlockWrite (a - 0x18_0000) v s
  else if a < 0x1C_0000 then seBlockWrite (a - 0x1A_0000) v s
  else if a < 0x1E_0000 then guardBlockWrite (a - 0x1C_0000) v s
  else if a < 0x1E_1000 then wellWrite p (Fin.ofNat 64 ((a - 0x1E_0000) / 0x40)) (a % 0x40) v s
  else if a < 0x20_0000 then s
  else if a < 0x20_0800 then pumpWrite (Fin.ofNat 8 ((a - 0x20_0000) / 0x100)) (a % 0x100) v s
  else if a < 0x22_0000 then s
  else if a < 0x24_0000 then cisWrite (a - 0x22_0000) v s
  else if a < 0x26_0000 then jobBlockWrite p (a - 0x24_0000) v s
  else if a < 0x28_0000 then scBlockWrite (a - 0x26_0000) v s
  else if a < 0x2A_0000 then linkWrite (a - 0x28_0000) v s
  else if a < 0x2C_0000 then recWrite (a - 0x2A_0000) v s
  else if a < 0x2E_0000 then pinBlockWrite (a - 0x2C_0000) v s
  else s

/-! The status flags that a host access clears are noted for its cycle (R13). -/

def readNoted (p : Port) (a : Nat) (s : State) : State × Word := let r := readReg p a s; (noteClears s r.1, r.2)
def writeNoted (p : Port) (a : Nat) (v : Word) (s : State) : State := noteClears s (writeReg p a v s)

/-- The bytes of a word that a read addresses (R11). -/
def maskBytes (be : BitVec 4) (v : Word) : Word :=
  (List.range 4).foldl (fun w i => if bit be i then w else putFld w (8 * i + 7) (8 * i) 0) v

/-- A register read; one of fewer than four bytes has every side effect (R11, R12). -/
def readBytes (p : Port) (a : Nat) (be : BitVec 4) (s : State) : State × Word :=
  let r := readNoted p (a / 4 * 4) s
  (r.1, maskBytes be r.2)
/-- A register write; one that does not enable all four bytes is discarded (R11). -/
def writeBytes (p : Port) (a : Nat) (be : BitVec 4) (v : Word) (s : State) : State :=
  if be = 0xF then writeNoted p (a / 4 * 4) v s else s

/-! The SPI sideband. -/

/-- The status byte, which clears ERR (R405). -/
def spiStatusByte (s : State) : State :=
  modSys (fun x => { x with spiErr := false })
    (emit (.spiStatus (BitVec.ofNat 8 (0x80 + 32 * b2n s.sys.ready + 16 * b2n s.sys.spiErr))) s)
def spiError (s : State) : State := modSys (fun x => { x with spiErr := true }) s

/-- One word of a read transaction, by the address of its first byte: registers or the Cistern (R406, R407). -/
def spiFetch (cistern : Bool) (a : Nat) (s : State) : State × Word :=
  if !s.sys.ready then (s, 0)
  else if cistern then
    let r := portRead 25 (a / 8) .spi s
    (r.1, if a % 8 = 4 then hi32 r.2.1 else lo32 r.2.1)
  else readNoted .spi a s
/-- One word of a write transaction. -/
def spiStore (cistern : Bool) (a : Nat) (v : Word) (s : State) : State :=
  if !s.sys.ready then s
  else if cistern then serve 25 (enqueue ⟨25, a / 8, .part (join v v) (if a % 8 = 4 then 0xF0 else 0x0F) false, .spi⟩ s)
  else writeNoted .spi a v s

/-- Whether an address of a transaction is legal (R404), and the words from it to the end of its space. -/
def spiAddrOk (cistern : Bool) (a : Nat) : Bool := decide (a % 4 = 0) && (cistern || decide (a < 0x40_0000))
def spiRoom (cistern : Bool) (a : Nat) : Nat := ((if cistern then 0x100_0000 else 0x40_0000) - a) / 4

/-- A word of a read transaction is fetched and shifted out; one that is `late`, not ready at its first bit, as 0 and with
an error (R405, R406). -/
def spiShiftOut (cistern : Bool) (a : Nat) (late : Bool) (s : State) : State :=
  let r := spiFetch cistern a s
  if late then spiError (emit (.readData .spi 0) r.1) else emit (.readData .spi r.2) r.1

/-- The words that a read transaction shifts out, and the one fetched beyond the last (R406). -/
def spiReadWords (cistern : Bool) (a : Nat) (l : List Bool) (s : State) : State :=
  let s := l.zipIdx.foldl (fun s q => spiShiftOut cistern (a + 4 * q.2) q.1 s) s
  if l.length < spiRoom cistern a then (spiFetch cistern (a + 4 * l.length) s).1 else s

/-- A read transaction: for each word, whether it is late (Table 14.2); `cut` says that chip select rose in the middle of
a further word, which has been fetched. -/
def spiRead (cistern : Bool) (a : Nat) (l : List Bool) (cut : Bool) (s : State) : State :=
  let s := spiStatusByte (spiStatusByte s)
  if !spiAddrOk cistern a then spiError s
  else
    let s := spiReadWords cistern a (l.take (spiRoom cistern a)) s
    if cut ∨ spiRoom cistern a < l.length then spiError s else s

/-- A write transaction; `cut` says that chip select rose in the middle of a further word. -/
def spiWrite (cistern : Bool) (a : Nat) (l : List Word) (cut : Bool) (s : State) : State :=
  let s := spiStatusByte s
  if !spiAddrOk cistern a then spiError s
  else
    let s := ((l.take (spiRoom cistern a)).zipIdx).foldl (fun s q => spiStore cistern (a + 4 * q.2) q.1 s) s
    if cut ∨ spiRoom cistern a < l.length then spiError s else s

/-- A transaction reaches a device whose clock runs. -/
def spi (f : State → State) (s : State) : State := if s.tb.running then f s else s

def execRcRead (p : Port) (addr : Nat) (be : BitVec 4) (s : State) : Host.Outcome State Fault Refusal :=
  done (hostRead p (readBytes p addr be) s)
def execRegisterWrite (p : Port) (addr : Nat) (be : BitVec 4) (v : BitVec 32) (s : State) : Host.Outcome State Fault Refusal :=
  done (host p (writeBytes p addr be v) s)
def execSpiStatus (s : State) : Host.Outcome State Fault Refusal := done (spi spiStatusByte s)
def execSpiRegisterRead (addr : BitVec 24) (words : SpiWords) (s : State) : Host.Outcome State Fault Refusal :=
  done (spi (spiRead false addr.toNat words.late words.cut) s)
def execSpiRegisterWrite (addr : BitVec 24) (words : List (BitVec 32)) (cut : Bool) (s : State) : Host.Outcome State Fault Refusal :=
  done (spi (spiWrite false addr.toNat words cut) s)
def execSpiCisternRead (addr : BitVec 24) (words : SpiWords) (s : State) : Host.Outcome State Fault Refusal :=
  done (spi (spiRead true addr.toNat words.late words.cut) s)
def execSpiCisternWrite (addr : BitVec 24) (words : List (BitVec 32)) (cut : Bool) (s : State) : Host.Outcome State Fault Refusal :=
  done (spi (spiWrite true addr.toNat words cut) s)
def execSpiBadCommand (s : State) : Host.Outcome State Fault Refusal := done (spi (fun s => spiError (spiStatusByte s)) s)

end Sys2Proof.Machine
end

