-- ==== Sys2Proof/Machine/Dispatch.lean ====
section
/-! DEFINITION. Dispatch: the effect of a command on everything but the queue, one meaning per row. -/

namespace Sys2Proof.Machine

/-- The effect of a command. -/
def exec (i : Instr) (s : State) : Host.Outcome State Fault Refusal :=
  match i with
  | .domainArm p => Sys2Proof.Machine.execDomainArm p s
  | .domainRun p => Sys2Proof.Machine.execDomainRun p s
  | .domainHold p => Sys2Proof.Machine.execDomainHold p s
  | .domainStop p => Sys2Proof.Machine.execDomainStop p s
  | .domainDisarm p => Sys2Proof.Machine.execDomainDisarm p s
  | .domainSafe p => Sys2Proof.Machine.execDomainSafe p s
  | .domainClear p => Sys2Proof.Machine.execDomainClear p s
  | .domainTransitionEffect => Sys2Proof.Machine.execDomainTransitionEffect s
  | .frameBoundary calErr => Sys2Proof.Machine.execFrameBoundary calErr s
  | .hostLoss => Sys2Proof.Machine.execHostLoss s
  | .tbLoad p => Sys2Proof.Machine.execTbLoad p s
  | .tbLoadEffect => Sys2Proof.Machine.execTbLoadEffect s
  | .counterStep n => Sys2Proof.Machine.execCounterStep n s
  | .outputEdgeAtBall pin => Sys2Proof.Machine.execOutputEdgeAtBall pin s
  | .chCntWrite p n v => Sys2Proof.Machine.execChCntWrite p n v s
  | .chTopWrite p n v => Sys2Proof.Machine.execChTopWrite p n v s
  | .chCmpWrite p n v => Sys2Proof.Machine.execChCmpWrite p n v s
  | .chTgtLoWrite p n v => Sys2Proof.Machine.execChTgtLoWrite p n v s
  | .chTgtHiWrite p n v => Sys2Proof.Machine.execChTgtHiWrite p n v s
  | .chFiltWrite p n v => Sys2Proof.Machine.execChFiltWrite p n v s
  | .placementHorizon n => Sys2Proof.Machine.execPlacementHorizon n s
  | .targetEdge n => Sys2Proof.Machine.execTargetEdge n s
  | .pulseEnd n => Sys2Proof.Machine.execPulseEnd n s
  | .capture n level stamp => Sys2Proof.Machine.execCapture n level stamp s
  | .chStart p n => Sys2Proof.Machine.execChStart p n s
  | .chStop p n => Sys2Proof.Machine.execChStop p n s
  | .chArm p n => Sys2Proof.Machine.execChArm p n s
  | .chDisarm p n => Sys2Proof.Machine.execChDisarm p n s
  | .chReload p n => Sys2Proof.Machine.execChReload p n s
  | .lowReadLatch rid pair => Sys2Proof.Machine.execLowReadLatch rid pair s
  | .highReadShadow rid pair => Sys2Proof.Machine.execHighReadShadow rid pair s
  | .rcRead p addr be => Sys2Proof.Machine.execRcRead p addr be s
  | .registerWrite p addr be v => Sys2Proof.Machine.execRegisterWrite p addr be v s
  | .teStart p e => Sys2Proof.Machine.execTeStart p e s
  | .teStop p e => Sys2Proof.Machine.execTeStop p e s
  | .teHalt p e => Sys2Proof.Machine.execTeHalt p e s
  | .teVerify p e => Sys2Proof.Machine.execTeVerify p e s
  | .verifyDone e => Sys2Proof.Machine.execVerifyDone e s
  | .teClear p e => Sys2Proof.Machine.execTeClear p e s
  | .teDoorbellWrite p e k v => Sys2Proof.Machine.execTeDoorbellWrite p e k v s
  | .requestPost e num arg => Sys2Proof.Machine.execRequestPost e num arg s
  | .dispatch e => Sys2Proof.Machine.execDispatch e s
  | .preemption e => Sys2Proof.Machine.execPreemption e s
  | .housekeepingEnd e => Sys2Proof.Machine.execHousekeepingEnd e s
  | .runaway e => Sys2Proof.Machine.execRunaway e s
  | .machineCheck e => Sys2Proof.Machine.execMachineCheck e s
  | .drainQueueDelivery e => Sys2Proof.Machine.execDrainQueueDelivery e s
  | .pendingValueArrival e => Sys2Proof.Machine.execPendingValueArrival e s
  | .microcodeDwordStage p e w j v => Sys2Proof.Machine.execMicrocodeDwordStage p e w j v s
  | .microcodeWordStore p e w v => Sys2Proof.Machine.execMicrocodeWordStore p e w v s
  | .microcodeParityRead p e w => Sys2Proof.Machine.execMicrocodeParityRead p e w s
  | .seqNext e => Sys2Proof.Machine.execSeqNext e s
  | .seqGoto e => Sys2Proof.Machine.execSeqGoto e s
  | .seqBrt e => Sys2Proof.Machine.execSeqBrt e s
  | .seqBrf e => Sys2Proof.Machine.execSeqBrf e s
  | .seqDisp e => Sys2Proof.Machine.execSeqDisp e s
  | .seqLoop e => Sys2Proof.Machine.execSeqLoop e s
  | .seqWaitf e => Sys2Proof.Machine.execSeqWaitf e s
  | .seqExit e => Sys2Proof.Machine.execSeqExit e s
  | .seqHalt e => Sys2Proof.Machine.execSeqHalt e s
  | .aluNop e => Sys2Proof.Machine.execAluNop e s
  | .aluPassa e => Sys2Proof.Machine.execAluPassa e s
  | .aluPassb e => Sys2Proof.Machine.execAluPassb e s
  | .aluAdd e => Sys2Proof.Machine.execAluAdd e s
  | .aluAdc e => Sys2Proof.Machine.execAluAdc e s
  | .aluSub e => Sys2Proof.Machine.execAluSub e s
  | .aluSbc e => Sys2Proof.Machine.execAluSbc e s
  | .aluRsb e => Sys2Proof.Machine.execAluRsb e s
  | .aluAnd e => Sys2Proof.Machine.execAluAnd e s
  | .aluOr e => Sys2Proof.Machine.execAluOr e s
  | .aluXor e => Sys2Proof.Machine.execAluXor e s
  | .aluAndn e => Sys2Proof.Machine.execAluAndn e s
  | .aluNot e => Sys2Proof.Machine.execAluNot e s
  | .aluNeg e => Sys2Proof.Machine.execAluNeg e s
  | .aluShl e => Sys2Proof.Machine.execAluShl e s
  | .aluShr e => Sys2Proof.Machine.execAluShr e s
  | .aluSar e => Sys2Proof.Machine.execAluSar e s
  | .aluRol e => Sys2Proof.Machine.execAluRol e s
  | .aluRor e => Sys2Proof.Machine.execAluRor e s
  | .aluCmp e => Sys2Proof.Machine.execAluCmp e s
  | .aluTst e => Sys2Proof.Machine.execAluTst e s
  | .aluMinu e => Sys2Proof.Machine.execAluMinu e s
  | .aluMaxu e => Sys2Proof.Machine.execAluMaxu e s
  | .aluMins e => Sys2Proof.Machine.execAluMins e s
  | .aluMaxs e => Sys2Proof.Machine.execAluMaxs e s
  | .aluMul e => Sys2Proof.Machine.execAluMul e s
  | .aluMulhu e => Sys2Proof.Machine.execAluMulhu e s
  | .aluMulhs e => Sys2Proof.Machine.execAluMulhs e s
  | .aluClz e => Sys2Proof.Machine.execAluClz e s
  | .aluPopc e => Sys2Proof.Machine.execAluPopc e s
  | .aluExt e => Sys2Proof.Machine.execAluExt e s
  | .aluSel e => Sys2Proof.Machine.execAluSel e s
  | .chopRdCfg e => Sys2Proof.Machine.execChopRdCfg e s
  | .chopRdCnt e => Sys2Proof.Machine.execChopRdCnt e s
  | .chopRdTop e => Sys2Proof.Machine.execChopRdTop e s
  | .chopRdCmp e => Sys2Proof.Machine.execChopRdCmp e s
  | .chopRdPre e => Sys2Proof.Machine.execChopRdPre e s
  | .chopRdCap e => Sys2Proof.Machine.execChopRdCap e s
  | .chopRdWidth e => Sys2Proof.Machine.execChopRdWidth e s
  | .chopRdPer e => Sys2Proof.Machine.execChopRdPer e s
  | .chopRdFilt e => Sys2Proof.Machine.execChopRdFilt e s
  | .chopRdIe e => Sys2Proof.Machine.execChopRdIe e s
  | .chopRdTgt e => Sys2Proof.Machine.execChopRdTgt e s
  | .chopRdCapt e => Sys2Proof.Machine.execChopRdCapt e s
  | .chopRdCnt64 e => Sys2Proof.Machine.execChopRdCnt64 e s
  | .chopRdCap64 e => Sys2Proof.Machine.execChopRdCap64 e s
  | .chopRdCmd e => Sys2Proof.Machine.execChopRdCmd e s
  | .chopWrCfg e => Sys2Proof.Machine.execChopWrCfg e s
  | .chopWrCnt e => Sys2Proof.Machine.execChopWrCnt e s
  | .chopWrTop e => Sys2Proof.Machine.execChopWrTop e s
  | .chopWrCmp e => Sys2Proof.Machine.execChopWrCmp e s
  | .chopWrPre e => Sys2Proof.Machine.execChopWrPre e s
  | .chopWrWidth e => Sys2Proof.Machine.execChopWrWidth e s
  | .chopWrFilt e => Sys2Proof.Machine.execChopWrFilt e s
  | .chopWrIe e => Sys2Proof.Machine.execChopWrIe e s
  | .chopWrTgt e => Sys2Proof.Machine.execChopWrTgt e s
  | .chopClrStatus e => Sys2Proof.Machine.execChopClrStatus e s
  | .chopWrWcode e => Sys2Proof.Machine.execChopWrWcode e s
  | .chopStart e => Sys2Proof.Machine.execChopStart e s
  | .chopStop e => Sys2Proof.Machine.execChopStop e s
  | .chopArm e => Sys2Proof.Machine.execChopArm e s
  | .chopDisarm e => Sys2Proof.Machine.execChopDisarm e s
  | .chopReload e => Sys2Proof.Machine.execChopReload e s
  | .chopTgtArm e => Sys2Proof.Machine.execChopTgtArm e s
  | .memLd e => Sys2Proof.Machine.execMemLd e s
  | .memSt e => Sys2Proof.Machine.execMemSt e s
  | .memAdd e => Sys2Proof.Machine.execMemAdd e s
  | .memSwap e => Sys2Proof.Machine.execMemSwap e s
  | .memPop e => Sys2Proof.Machine.execMemPop e s
  | .memPush e => Sys2Proof.Machine.execMemPush e s
  | .memPeek e => Sys2Proof.Machine.execMemPeek e s
  | .memCnt e => Sys2Proof.Machine.execMemCnt e s
  | .flgCommit e => Sys2Proof.Machine.execFlgCommit e s
  | .flgSignal e => Sys2Proof.Machine.execFlgSignal e s
  | .flgSetf e => Sys2Proof.Machine.execFlgSetf e s
  | .flgClrf e => Sys2Proof.Machine.execFlgClrf e s
  | .flgYield e => Sys2Proof.Machine.execFlgYield e s
  | .tkRdAngle e => Sys2Proof.Machine.execTkRdAngle e s
  | .tkRdTooth e => Sys2Proof.Machine.execTkRdTooth e s
  | .tkRdState e => Sys2Proof.Machine.execTkRdState e s
  | .tkRdPhase e => Sys2Proof.Machine.execTkRdPhase e s
  | .tkA2t e => Sys2Proof.Machine.execTkA2t e s
  | .tkRdEvent e => Sys2Proof.Machine.execTkRdEvent e s
  | .tkEvPlace e => Sys2Proof.Machine.execTkEvPlace e s
  | .tkEvCancel e => Sys2Proof.Machine.execTkEvCancel e s
  | .tkEvMove e => Sys2Proof.Machine.execTkEvMove e s
  | .tkReseek e => Sys2Proof.Machine.execTkReseek e s
  | .winCfgWrite p k v => Sys2Proof.Machine.execWinCfgWrite p k v s
  | .peakDecay k => Sys2Proof.Machine.execPeakDecay k s
  | .leadingEdgeJudge t stamp peak => Sys2Proof.Machine.execLeadingEdgeJudge t stamp peak s
  | .trailingEdgeClassify t stamp => Sys2Proof.Machine.execTrailingEdgeClassify t stamp s
  | .windowClose t => Sys2Proof.Machine.execWindowClose t s
  | .autoseekReturn t => Sys2Proof.Machine.execAutoseekReturn t s
  | .wtStart p t => Sys2Proof.Machine.execWtStart p t s
  | .wtStop p t => Sys2Proof.Machine.execWtStop p t s
  | .wtReseek p t => Sys2Proof.Machine.execWtReseek p t s
  | .wtSetrev p t => Sys2Proof.Machine.execWtSetrev p t s
  | .eventIssue t => Sys2Proof.Machine.execEventIssue t s
  | .eventCommit t k => Sys2Proof.Machine.execEventCommit t k s
  | .convertAction t k => Sys2Proof.Machine.execConvertAction t k s
  | .noticeAction t k => Sys2Proof.Machine.execNoticeAction t k s
  | .evCmdFlush p t => Sys2Proof.Machine.execEvCmdFlush p t s
  | .evCmdCancel p t => Sys2Proof.Machine.execEvCmdCancel p t s
  | .seStart p e => Sys2Proof.Machine.execSeStart p e s
  | .seStop p e => Sys2Proof.Machine.execSeStop p e s
  | .seHalt p e => Sys2Proof.Machine.execSeHalt p e s
  | .seResume p e clr => Sys2Proof.Machine.execSeResume p e clr s
  | .seTrig p e => Sys2Proof.Machine.execSeTrig p e s
  | .gstart p g => Sys2Proof.Machine.execGstart p g s
  | .ghalt p g => Sys2Proof.Machine.execGhalt p g s
  | .gresume p g clr => Sys2Proof.Machine.execGresume p g clr s
  | .gstop p g => Sys2Proof.Machine.execGstop p g s
  | .seRegisterWrite p e off v => Sys2Proof.Machine.execSeRegisterWrite p e off v s
  | .seWrapWrite p e v => Sys2Proof.Machine.execSeWrapWrite p e v s
  | .seTxqWrite p e v => Sys2Proof.Machine.execSeTxqWrite p e v s
  | .seRxqRead p e => Sys2Proof.Machine.execSeRxqRead p e s
  | .shift e li => Sys2Proof.Machine.execShift e li s
  | .idleTick e => Sys2Proof.Machine.execIdleTick e s
  | .seNop e => Sys2Proof.Machine.execSeNop e s
  | .seSho e => Sys2Proof.Machine.execSeSho e s
  | .seShi e => Sys2Proof.Machine.execSeShi e s
  | .seShx e => Sys2Proof.Machine.execSeShx e s
  | .sePut e => Sys2Proof.Machine.execSePut e s
  | .seClkHold e => Sys2Proof.Machine.execSeClkHold e s
  | .seClkRun e => Sys2Proof.Machine.execSeClkRun e s
  | .seClkRestart e => Sys2Proof.Machine.execSeClkRestart e s
  | .seClkRestartBarrier e => Sys2Proof.Machine.execSeClkRestartBarrier e s
  | .seAwait e li si => Sys2Proof.Machine.execSeAwait e li si s
  | .awaitComplete e li si => Sys2Proof.Machine.execAwaitComplete e li si s
  | .barrierRelease g => Sys2Proof.Machine.execBarrierRelease g s
  | .seFill e => Sys2Proof.Machine.execSeFill e s
  | .fillComplete e => Sys2Proof.Machine.execFillComplete e s
  | .seDrain e => Sys2Proof.Machine.execSeDrain e s
  | .drainComplete e => Sys2Proof.Machine.execDrainComplete e s
  | .seCmp e => Sys2Proof.Machine.execSeCmp e s
  | .seBrc e li => Sys2Proof.Machine.execSeBrc e li s
  | .seSig e => Sys2Proof.Machine.execSeSig e s
  | .seMov e li si => Sys2Proof.Machine.execSeMov e li si s
  | .illop e => Sys2Proof.Machine.execIllop e s
  | .pinEnable p => Sys2Proof.Machine.execPinEnable p s
  | .pinDisable p => Sys2Proof.Machine.execPinDisable p s
  | .pinMatrixWrite p addr v => Sys2Proof.Machine.execPinMatrixWrite p addr v s
  | .guardClip pin => Sys2Proof.Machine.execGuardClip pin s
  | .budgetWindow pin => Sys2Proof.Machine.execBudgetWindow pin s
  | .budgetForce pin => Sys2Proof.Machine.execBudgetForce pin s
  | .vioLoss b => Sys2Proof.Machine.execVioLoss b s
  | .vioReturn b => Sys2Proof.Machine.execVioReturn b s
  | .bind t => Sys2Proof.Machine.execBind t s
  | .printStage t => Sys2Proof.Machine.execPrintStage t s
  | .decision t => Sys2Proof.Machine.execDecision t s
  | .gateAngle t => Sys2Proof.Machine.execGateAngle t s
  | .safeSlotClose t => Sys2Proof.Machine.execSafeSlotClose t s
  | .intake t => Sys2Proof.Machine.execIntake t s
  | .jobRingWrWrite p t v => Sys2Proof.Machine.execJobRingWrWrite p t v s
  | .jobVrecPsnWrite p t v => Sys2Proof.Machine.execJobVrecPsnWrite p t v s
  | .verdictRecord p t code => Sys2Proof.Machine.execVerdictRecord p t code s
  | .reportWellItem t => Sys2Proof.Machine.execReportWellItem t s
  | .completionRecord t => Sys2Proof.Machine.execCompletionRecord t s
  | .jobEnable p t => Sys2Proof.Machine.execJobEnable p t s
  | .jobDisable p t => Sys2Proof.Machine.execJobDisable p t s
  | .setmark p t => Sys2Proof.Machine.execSetmark p t s
  | .rewind p t => Sys2Proof.Machine.execRewind p t s
  | .jobFlush p t => Sys2Proof.Machine.execJobFlush p t s
  | .setpsn p t => Sys2Proof.Machine.execSetpsn p t s
  | .wayGrant b w => Sys2Proof.Machine.execWayGrant b w s
  | .accessRefused port => Sys2Proof.Machine.execAccessRefused port s
  | .readDataReturn port => Sys2Proof.Machine.execReadDataReturn port s
  | .bankHandover p b v => Sys2Proof.Machine.execBankHandover p b v s
  | .scrubVisit => Sys2Proof.Machine.execScrubVisit s
  | .cisternInitDone => Sys2Proof.Machine.execCisternInitDone s
  | .bar2Read rid addr len => Sys2Proof.Machine.execBar2Read rid addr len s
  | .bar2Write addr bytes => Sys2Proof.Machine.execBar2Write addr bytes s
  | .wellEnable p k => Sys2Proof.Machine.execWellEnable p k s
  | .wellDisable p k => Sys2Proof.Machine.execWellDisable p k s
  | .wellFlush p k => Sys2Proof.Machine.execWellFlush p k s
  | .wellPushLoWrite p k v => Sys2Proof.Machine.execWellPushLoWrite p k v s
  | .wellPushHiWrite p k v => Sys2Proof.Machine.execWellPushHiWrite p k v s
  | .wellPopLoRead p k => Sys2Proof.Machine.execWellPopLoRead p k s
  | .pumpStart p u => Sys2Proof.Machine.execPumpStart p u s
  | .pumpStop p u => Sys2Proof.Machine.execPumpStop p u s
  | .stoppingEnd u => Sys2Proof.Machine.execStoppingEnd u s
  | .pumpTailWrite p u v => Sys2Proof.Machine.execPumpTailWrite p u v s
  | .descriptorTake u => Sys2Proof.Machine.execDescriptorTake u s
  | .elementMove u => Sys2Proof.Machine.execElementMove u s
  | .descriptorEnd u => Sys2Proof.Machine.execDescriptorEnd u s
  | .hostReadCompletion u r => Sys2Proof.Machine.execHostReadCompletion u r s
  | .icClaimRead p h fast => Sys2Proof.Machine.execIcClaimRead p h fast s
  | .icCompleteWrite p h fast v => Sys2Proof.Machine.execIcCompleteWrite p h fast v s
  | .unwind p h fast => Sys2Proof.Machine.execUnwind p h fast s
  | .icModeWrite p v => Sys2Proof.Machine.execIcModeWrite p v s
  | .sourceConfigWrite p src v => Sys2Proof.Machine.execSourceConfigWrite p src v s
  | .coalescingThreshold h fast => Sys2Proof.Machine.execCoalescingThreshold h fast s
  | .msixMessage h fast => Sys2Proof.Machine.execMsixMessage h fast s
  | .targetSleepWrite p h v => Sys2Proof.Machine.execTargetSleepWrite p h v s
  | .pmeRepeat => Sys2Proof.Machine.execPmeRepeat s
  | .scStart p c => Sys2Proof.Machine.execScStart p c s
  | .scStop p c => Sys2Proof.Machine.execScStop p c s
  | .selfCalibration p c => Sys2Proof.Machine.execSelfCalibration p c s
  | .trimCalibration p c => Sys2Proof.Machine.execTrimCalibration p c s
  | .inject p c => Sys2Proof.Machine.execInject p c s
  | .scBufLenWrite p c v => Sys2Proof.Machine.execScBufLenWrite p c v s
  | .integrationEnd c input overload => Sys2Proof.Machine.execIntegrationEnd c input overload s
  | .dumpEnd c => Sys2Proof.Machine.execDumpEnd c s
  | .switchEnd c => Sys2Proof.Machine.execSwitchEnd c s
  | .mainsSyncEdge stamp => Sys2Proof.Machine.execMainsSyncEdge stamp s
  | .mainsSyncLoss => Sys2Proof.Machine.execMainsSyncLoss s
  | .plausibilityRound => Sys2Proof.Machine.execPlausibilityRound s
  | .plausibilityTimeout => Sys2Proof.Machine.execPlausibilityTimeout s
  | .linkCfgWrite p v => Sys2Proof.Machine.execLinkCfgWrite p v s
  | .trainingStart k => Sys2Proof.Machine.execTrainingStart k s
  | .portUp k good partnerUp pv => Sys2Proof.Machine.execPortUp k good partnerUp pv s
  | .portLoss k signal => Sys2Proof.Machine.execPortLoss k signal s
  | .linkFrameReceive k f => Sys2Proof.Machine.execLinkFrameReceive k f s
  | .linkFrameAct k => Sys2Proof.Machine.execLinkFrameAct k s
  | .tbStep => Sys2Proof.Machine.execTbStep s
  | .observeExit => Sys2Proof.Machine.execObserveExit s
  | .followStale t => Sys2Proof.Machine.execFollowStale t s
  | .linkCommit p => Sys2Proof.Machine.execLinkCommit p s
  | .linkSend p => Sys2Proof.Machine.execLinkSend p s
  | .linkRxpop p => Sys2Proof.Machine.execLinkRxpop p s
  | .powerOnReset start => Sys2Proof.Machine.execPowerOnReset start s
  | .nrstReset lowNs straps => Sys2Proof.Machine.execNrstReset lowNs straps s
  | .sysReset p key => Sys2Proof.Machine.execSysReset p key s
  | .softReset => Sys2Proof.Machine.execSoftReset s
  | .wakeStartUp straps => Sys2Proof.Machine.execWakeStartUp straps s
  | .clockLossReset straps => Sys2Proof.Machine.execClockLossReset straps s
  | .calmPor => Sys2Proof.Machine.execCalmPor s
  | .pllLock => Sys2Proof.Machine.execPllLock s
  | .norefStart => Sys2Proof.Machine.execNorefStart s
  | .sysBootRelease p => Sys2Proof.Machine.execSysBootRelease p s
  | .pcieConfigRequest r => Sys2Proof.Machine.execPcieConfigRequest r s
  | .d3hotEntry => Sys2Proof.Machine.execD3hotEntry s
  | .spiStatus => Sys2Proof.Machine.execSpiStatus s
  | .spiRegisterRead addr words => Sys2Proof.Machine.execSpiRegisterRead addr words s
  | .spiRegisterWrite addr words cut => Sys2Proof.Machine.execSpiRegisterWrite addr words cut s
  | .spiCisternRead addr words => Sys2Proof.Machine.execSpiCisternRead addr words s
  | .spiCisternWrite addr words cut => Sys2Proof.Machine.execSpiCisternWrite addr words cut s
  | .sysDoze p => Sys2Proof.Machine.execSysDoze p s
  | .sysSleep p => Sys2Proof.Machine.execSysSleep p s
  | .sysWake p => Sys2Proof.Machine.execSysWake p s
  | .l23SleepRequest => Sys2Proof.Machine.execL23SleepRequest s
  | .wakePinEdge k level => Sys2Proof.Machine.execWakePinEdge k level s
  | .calmTimerMatch => Sys2Proof.Machine.execCalmTimerMatch s
  | .pwrenLow => Sys2Proof.Machine.execPwrenLow s
  | .pwrenHigh => Sys2Proof.Machine.execPwrenHigh s
  | .vanaChange valid => Sys2Proof.Machine.execVanaChange valid s
  | .vkeepLoss => Sys2Proof.Machine.execVkeepLoss s
  | .recStart p => Sys2Proof.Machine.execRecStart p s
  | .recordingBegin => Sys2Proof.Machine.execRecordingBegin s
  | .recStop p => Sys2Proof.Machine.execRecStop p s
  | .recFreeze p => Sys2Proof.Machine.execRecFreeze p s
  | .postCountDone => Sys2Proof.Machine.execPostCountDone s
  | .recordWrite => Sys2Proof.Machine.execRecordWrite s
  | .drainEnd => Sys2Proof.Machine.execDrainEnd s
  | .recReplay p => Sys2Proof.Machine.execRecReplay p s
  | .replayBegin => Sys2Proof.Machine.execReplayBegin s
  | .recRpqAppend p v => Sys2Proof.Machine.execRecRpqAppend p v s
  | .replayQueueMove => Sys2Proof.Machine.execReplayQueueMove s
  | .inputInjection => Sys2Proof.Machine.execInputInjection s
  | .divergenceTimeout => Sys2Proof.Machine.execDivergenceTimeout s
  | .vlvLoss => Sys2Proof.Machine.execVlvLoss s
  | .vlvReturn => Sys2Proof.Machine.execVlvReturn s
  | .coreRailLoss rail => Sys2Proof.Machine.execCoreRailLoss rail s
  | .partnerSignalLoss k => Sys2Proof.Machine.execPartnerSignalLoss k s
  | .dlActive width speed => Sys2Proof.Machine.execDlActive width speed s
  | .shiftClockTick e => Sys2Proof.Machine.execShiftClockTick e s
  | .spiBadCommand => Sys2Proof.Machine.execSpiBadCommand s

end Sys2Proof.Machine
end

