-- ==== Sys2Proof/Safety.lean ====
section
/-! DEFINITION. Safety: what holds between two commands. A run is safe while it does: no entry into
SAFE is owed, and every interrupt source shows the level that drives it. -/

namespace Sys2Proof.Safety
open Machine

/-- No fault waits for the entry into SAFE that it asks for: R467 has the device enter SAFE in the
fault's own cycle. -/
def safeServed (s : State) : Prop := s.dom.safeNow = false

/-- Each shared source that a level drives is 1 while the level is 1, and is 1 otherwise only to the end of the cycle in
which the level has ended (R13, R320, R322). -/
def sourcesFollow (s : State) : Prop :=
  ∀ (k : Fin 496) (lv : Bool), sourceLevel s k = some lv →
    (lv = true → s.ic.src[k].live = true) ∧ (lv = false → s.ic.src[k].live = true → k ∈ s.ic.falls)

/-- What every command leaves behind. -/
structure Inv (s : State) : Prop where
  served : safeServed s
  sources : sourcesFollow s

/-- A step that stops: none does (no rule of the spec stops the device). -/
def stops (s : State) : Prop := ∀ t, step s ≠ .next t

end Sys2Proof.Safety
end

