-- ==== Sys2Proof/Claims.lean ====
section
/-! DEFINITION. Claims: the words the statements are written in: a command's completion, and what a
command leaves unchanged. -/

namespace Sys2Proof.Claims
open Machine

/-- The command answers a next state, and that state is as `P` says. -/
def Does (c : Instr) (s : State) (P : State → Prop) : Prop := ∃ t, exec c s = .next t ∧ P t

/-- The command answers a next state: the state `x` that `P` describes, ended as every command ends, by the
entry into SAFE that a fault in it asks for and by the sources following their levels (`finish`). -/
def Ends (c : Instr) (s : State) (P : State → Prop) : Prop := ∃ x, exec c s = .next (finish x) ∧ P x

/-- The parts of the state. -/
inductive Part where
  | pending | free | out | later | dom | tb | shadows | ch | te | win | wt | pin | pins | cis | well | pump | ic
  | link | se | seg | job | sc | scs | rcd | sys | calm
  deriving DecidableEq, Repr

/-- What the interrupt controller keeps while sources follow their inputs and events are counted (R322,
R324, R332): everything but live inputs, pending memory, event counts, coalescing counts and timers. -/
structure IcKept (x y : Ic) : Prop where
  flat : y.flat = x.flat
  refie : y.refie = x.refie
  cmd : y.cmd = x.cmd
  msix : y.msix = x.msix
  msixEn : y.msixEn = x.msixEn
  funcMask : y.funcMask = x.funcMask
  cfg : ∀ k : Fin 496, y.src[k].cfg = x.src[k].cfg
  active : ∀ k : Fin 496, y.src[k].active = x.src[k].active
  priv : ∀ (h : Fin 32) (j : Fin 16), y.tgt[h].priv[j].cfg = x.tgt[h].priv[j].cfg ∧
    y.tgt[h].priv[j].active = x.tgt[h].priv[j].active
  sleep : ∀ h : Fin 32, y.tgt[h].sleep = x.tgt[h].sleep
  pme : ∀ h : Fin 32, y.tgt[h].pmen = x.tgt[h].pmen ∧ y.tgt[h].pmesent = x.tgt[h].pmesent
  errors : ∀ h : Fin 32, y.tgt[h].deep = x.tgt[h].deep ∧ y.tgt[h].order = x.tgt[h].order ∧
    y.tgt[h].stray = x.tgt[h].stray ∧ y.tgt[h].orderN = x.tgt[h].orderN
  messages : ∀ h : Fin 32, y.tgt[h].msgn = x.tgt[h].msgn ∧ y.tgt[h].msgf = x.tgt[h].msgf ∧
    y.tgt[h].dback = x.tgt[h].dback
  normal : ∀ h : Fin 32, y.tgt[h].normal.thr = x.tgt[h].normal.thr ∧ y.tgt[h].normal.timeF = x.tgt[h].normal.timeF ∧
    y.tgt[h].normal.limit = x.tgt[h].normal.limit ∧ y.tgt[h].normal.due = x.tgt[h].normal.due ∧
    y.tgt[h].normal.held = x.tgt[h].normal.held ∧ y.tgt[h].normal.ready = x.tgt[h].normal.ready ∧ y.tgt[h].normal.stack = x.tgt[h].normal.stack
  fast : ∀ h : Fin 32, y.tgt[h].fast.thr = x.tgt[h].fast.thr ∧ y.tgt[h].fast.timeF = x.tgt[h].fast.timeF ∧
    y.tgt[h].fast.limit = x.tgt[h].fast.limit ∧ y.tgt[h].fast.due = x.tgt[h].fast.due ∧
    y.tgt[h].fast.held = x.tgt[h].fast.held ∧ y.tgt[h].fast.ready = x.tgt[h].fast.ready ∧ y.tgt[h].fast.stack = x.tgt[h].fast.stack

/-- One part is unchanged. -/
def same : Part → State → State → Prop
  | .pending, s, t => t.pending = s.pending
  | .free, s, t => t.free = s.free
  | .out, s, t => t.out = s.out
  | .later, s, t => t.later = s.later
  | .dom, s, t => t.dom = s.dom
  | .tb, s, t => t.tb = s.tb
  | .shadows, s, t => t.shadows = s.shadows
  | .ch, s, t => t.ch = s.ch
  | .te, s, t => t.te = s.te
  | .win, s, t => t.win = s.win
  | .wt, s, t => t.wt = s.wt
  | .pin, s, t => t.pin = s.pin
  | .pins, s, t => t.pins = s.pins
  | .cis, s, t => t.cis = s.cis
  | .well, s, t => t.well = s.well
  | .pump, s, t => t.pump = s.pump
  | .ic, s, t => IcKept s.ic t.ic
  | .link, s, t => t.link = s.link
  | .se, s, t => t.se = s.se
  | .seg, s, t => t.seg = s.seg
  | .job, s, t => t.job = s.job
  | .sc, s, t => t.sc = s.sc
  | .scs, s, t => t.scs = s.scs
  | .rcd, s, t => t.rcd = s.rcd
  | .sys, s, t => t.sys = s.sys
  | .calm, s, t => t.calm = s.calm

/-- Every part but those named is unchanged. -/
def OnlyIn (l : List Part) (s t : State) : Prop := ∀ p, p ∉ l → same p s t

/-- Every element of an array but one is unchanged. -/
def OthersKept {α : Type} {n : Nat} (i : Fin n) (v w : Vector α n) : Prop := ∀ j : Fin n, j ≠ i → w[j] = v[j]

end Sys2Proof.Claims
end

