-- ==== Sys2Proof/Certificates/Slice0/Obligations.lean ====
section
/-! DEFINITION. Obligations: the statements about the model. -/

open Sys2Proof Sys2Proof.Machine Sys2Proof.Claims

namespace Says
end Says

open Says

/-! The machine. -/

/-- A step takes the command at the front of the queue: it is that command on the state with the queue's
rest (the block's queue is the model's). -/
def Obligations.StepTakesFront : Prop :=
  ∀ (c : Instr) (rest : List Instr) (s : State),
    step { s with pending := c :: rest } = exec c { s with pending := rest }

/-- With no command waiting one CCLK cycle passes while CCLK runs: TB64 gains 64 T64 units, and the first cycle of a
frame has R21 to do (R21, R36; that an empty queue is a cycle is the model's choice, log 1). Without CCLK nothing
moves. A cycle to which nothing was left moves nothing else. -/
def Says.StepIdle : Prop :=
  ∀ s : State, s.pending = [] →
    ∃ t, step s = .next t ∧ t.pending = [] ∧ (s.tb.running = false → t = s) ∧
      (s.tb.running = true →
        t.tb = { s.tb with
          now := s.tb.now + 64, clk := s.tb.clk + 1
          frameDue := s.tb.frameDue || decide (fld (s.tb.now + 64) 15 6 = 0)
          ended := if fld (s.tb.now + 64) 15 6 = 0 then frameOf (s.tb.now + 64) - 1 else s.tb.ended }) ∧
      (s.later = [] → s.dom.safeNow = false → OnlyIn [.tb] s t)

/-- The passing of time, by which every statement about a command that waits for its cycle is said: while CCLK runs, `k`
cycles take TB64 and the count of cycles on by `k` cycles, whatever else comes about in them; a device that has left nothing
to its next cycle and owes no entry into SAFE is otherwise as it was; time comes to a later cycle, or to the cycle of a later
T64 time, exactly (R3, R36). -/
def Says.TimePasses : Prop :=
  ∀ (k : Nat) (s : State), s.tb.running = true →
    (advance k s).tb.clk = s.tb.clk + k ∧ (advance k s).tb.now = s.tb.now + BitVec.ofNat 64 (64 * k) ∧
    (advance k s).tb.running = true ∧
    (s.later = [] → s.dom.safeNow = false → OnlyIn [.tb] s (advance k s) ∧ (advance k s).later = []) ∧
    (s.tb.clk ≤ k → (runClk k s).tb.clk = k) ∧
    (∀ t : Stamp, later (coarse t) (coarse s.tb.now) = true → coarse (runTo t s).tb.now = coarse t)

/-- The parts that the entry into a domain state can change, as the slots, the events and the pins follow it. -/
def Says.stateParts : List Part := [.dom, .ch, .te, .wt, .pin, .pins, .job, .rcd, .sys]

/-- Source `k` has been pulsed: its input rose, and falls with the next cycle (R320, R322). -/
def Says.Pulsed (k : Fin 496) (s t : State) : Prop := t.ic.src[k] = s.ic.src[k].input true ∧ k ∈ t.ic.falls

/-- The outcome of a refused command (R16, Table 0.4). -/
def Says.refused (r : CmdReg) : CmdReg := ⟨.stateRefused, BitVec.ofNat 8 (min 255 (r.refusals.toNat + 1))⟩

/-- Every step from a state in which no entry into SAFE is owed and every source follows its level leads to
such a state: a fault's entry into SAFE is made in the fault's own step (R467), and no command leaves an
interrupt source behind the level that drives it (R320). -/
def Obligations.StepKeepsInv : Prop :=
  ∀ s t : State, Safety.Inv s → step s = .next t → Safety.Inv t

/-- The state after reset has the invariant. -/
def Says.ResetHasInv : Prop := Safety.Inv State.reset

/-- No step stops: every command of the table has an effect, and no state is stuck. -/
def Says.NoStepStops : Prop := ∀ s : State, ∃ t, step s = .next t

/-- Every command of the table completes in every state: it answers a next state, ended as every command ends. Of a command that the state
does not serve, or whose time has not come and cannot come, the effect is nothing (log 3); what each one does is said by name below. -/
def Says.EveryCommandEnds : Prop :=
  ∀ (c : Instr) (s : State), ∃ x : State, exec c s = .next (finish x) ∧ ∃ t, step { s with pending := c :: s.pending } = .next t

/-- What a power-on reset leaves of the values the spec gives: CONFIG with nothing pending, TB64 0 and not
counting, every pin undriven, the Cistern's bytes 0 with every bank in initialisation, every source
disabled, the safe mask, the lead time and the reset cause. -/
def Says.ResetValues : Prop :=
  State.reset.dom.state = .config ∧ State.reset.dom.pend = false ∧ State.reset.dom.observe = false ∧
  State.reset.dom.lead = 16 ∧ State.reset.dom.mask = 0x11 ∧
  State.reset.tb.now = 0 ∧ State.reset.tb.running = false ∧
  (∀ n : Fin 256, State.reset.ch[n].top = 0xFFFF_FFFF ∧ State.reset.ch[n].run = false) ∧
  (∀ e : Fin 16, State.reset.te[e].state = .stopped) ∧
  (∀ e : Fin 32, State.reset.se[e].st = .stopped ∧ State.reset.se[e].wrapHi = 31) ∧
  (∀ t : Fin 4, State.reset.wt[t].st = .stopped) ∧
  (∀ p : Fin 288, State.reset.pin[p].ball = .undriven 1 ∧ State.reset.pin[p].gcfg = 0x2000_0000) ∧
  (∀ a : Nat, Memory.get State.reset.cis.mem a = 0) ∧ State.reset.cis.init = 0xFF ∧
  (∀ k : Fin 64, State.reset.well[k].en = false) ∧
  (∀ u : Fin 8, State.reset.pump[u].state = .stopped) ∧
  (∀ k : Fin 496, State.reset.ic.src[k].cfg = 0) ∧
  (∀ c : Fin 2, State.reset.sc[c].st = .stopped) ∧
  State.reset.rcd.state = .idle ∧ State.reset.sys.cause = 1 ∧ State.reset.calm.cpor = true

/-! The domain state. -/

/-- The domain commands that schedule a transition, with the states of Table 1.6. -/
def Says.scheduled : List ((Port → Instr) × DomState × DomState) :=
  [(.domainArm, .config, .armed), (.domainRun, .armed, .run), (.domainDisarm, .armed, .config),
   (.domainHold, .run, .hold), (.domainStop, .run, .armed), (.domainStop, .hold, .armed), (.domainRun, .hold, .run)]

/-- The root accepts `ARM`, `RUN`, `HOLD`, `STOP` and `DISARM` from the states of Table 1.6, with no
transition pending (and, for `ARM`, no enabled fault active), and schedules the transition for frame F +
LEAD_F (R27, R30): `PEND`, `PSTATE` and the effective frame, nothing else. -/
def Says.DomainCommandSchedules : Prop :=
  ∀ r ∈ scheduled, ∀ (p : Port) (s : State), Safety.safeServed s → hostOk p s = true → live s = true →
    isRoot s = true → s.dom.state = r.2.1 → s.dom.safeWait = false → s.dom.pend = false →
    (s.dom.state = .config → faultActive s = false) →
    Does (r.1 p) s fun t =>
      t.dom = { s.dom with
        pend := true, pstate := r.2.2, eff := frame s + s.dom.lead.setWidth 48, bcast := none
        cmd := { s.dom.cmd with status := .ok } } ∧
      OnlyIn [.dom] s t

/-- `CLEAR` while `PERMIT` is 1, in SAFE or once a commanded SAFE waits: at the root the transition to CONFIG is scheduled, and a SAFE
broadcast under way goes on (R29, R30; log 69); at another device CONFIG and OBSERVE begin at once (log 15). -/
def Says.DomainClearSchedules : Prop :=
  ∀ (p : Port) (s : State), Safety.safeServed s → hostOk p s = true → live s = true →
    s.dom.state = .safe ∨ s.dom.safeWait = true → s.dom.pend = false → permit s = true →
    (isRoot s = true → Does (.domainClear p) s fun t =>
      t.dom = { s.dom with
        pend := true, pstate := .config, eff := frame s + s.dom.lead.setWidth 48
        cmd := { s.dom.cmd with status := .ok } } ∧
      OnlyIn [.dom] s t) ∧
    (isRoot s = false → Ends (.domainClear p) s fun x =>
      x.dom = { s.dom with state := .config, observe := true, cmd := { s.dom.cmd with status := .ok } } ∧
      OnlyIn stateParts s x)

/-- A commanded `SAFE` is accepted in CONFIG, ARMED, RUN and HOLD, by a root or any other device, also
while a transition is pending, which it discards: it waits for the next frame boundary, `STATE` still
shows the old state and `PEND` is 0 (R28, R31, R32). -/
def Says.DomainSafeWaits : Prop :=
  ∀ (p : Port) (s : State), Safety.safeServed s → hostOk p s = true → live s = true →
    s.dom.state ≠ .safe → s.dom.safeWait = false →
    Does (.domainSafe p) s fun t =>
      t.dom = { s.dom with
        pend := false, safeWait := true, bcast := some (frame s + s.dom.lead.setWidth 48)
        cmd := { s.dom.cmd with status := .ok } } ∧
      OnlyIn [.dom] s t

/-- A domain command is refused: STATUS and REFUSALS take it, nothing else of the domain state moves, and where SYS_IE.REFIE
is set source 448 pulses (R16). So are `ARM`, `RUN`, `HOLD`, `STOP` and `DISARM` from a state from which Table 1.6 has no such
transition, while a `SAFE` waits, while a transition is pending, on a device that is not the root, and `ARM` while an enabled
fault is active; `SAFE` in SAFE or while one waits; `CLEAR` outside SAFE, while a transition is pending, and while `PERMIT`
is 0 (R27 to R32). -/
def Says.DomainCommandRefused : Prop :=
  ∀ (p : Port) (s : State), hostOk p s = true →
    let No (c : Instr) : Prop := Ends c s fun x =>
      x.dom = { s.dom with cmd := refused s.dom.cmd } ∧ (bit s.sys.ie 16 = true → Pulsed 448 s x) ∧ OnlyIn [.dom] s x
    (∀ c ∈ [Instr.domainArm, .domainRun, .domainHold, .domainStop, .domainDisarm],
      (∀ r ∈ scheduled, r.1 p = c p → r.2.1 ≠ s.dom.state) ∨ s.dom.safeWait = true ∨ s.dom.pend = true ∨ isRoot s = false →
      No (c p)) ∧
    (faultActive s = true → No (.domainArm p)) ∧
    (s.dom.state = .safe ∨ s.dom.safeWait = true → No (.domainSafe p)) ∧
    ((s.dom.state ≠ .safe ∧ s.dom.safeWait = false) ∨ s.dom.pend = true ∨ permit s = false → No (.domainClear p))

/-- The domain commands: what they schedule, `CLEAR`, `SAFE`, and what is refused.
It rests on the model's own reading in logs 14, 15, 69 and 77. -/
def Obligations.DomainCommands : Prop :=
  DomainCommandSchedules ∧ DomainClearSchedules ∧ DomainSafeWaits ∧ DomainCommandRefused


/-- What ends a command: no entry into SAFE stays owed and every source shows its level. Where none was owed,
nothing else moves. Where one was and the device is not in REPLAY, the device is in SAFE, a pending
transition and a waiting `SAFE` are discarded, and the root broadcasts (R31, R32, R320, R467); in REPLAY the domain
state follows the record alone (R440). -/
def Says.CommandEnds : Prop :=
  ∀ x : State, Safety.Inv (finish x) ∧
    (x.dom.safeNow = false → OnlyIn [] x (finish x)) ∧
    (x.dom.safeNow = true → live x = true →
      (finish x).dom = { x.dom with
        state := .safe, pend := false, safeWait := false, safeNow := false
        bcast := some (frame x + x.dom.lead.setWidth 48) } ∧
      OnlyIn stateParts x (finish x)) ∧
    (x.dom.safeNow = true → live x = false →
      (finish x).dom = { x.dom with safeNow := false } ∧ OnlyIn [.dom] x (finish x))

/-- The machine runs: an empty queue is a cycle, no step stops, and each command ends by the same work.
It rests on the model's own reading in logs 1 and 3. -/
def Obligations.MachineRuns : Prop :=
  StepIdle ∧ TimePasses ∧ NoStepStops ∧ CommandEnds ∧ EveryCommandEnds


/-- The state at the frame boundary that comes: this one, while its R21 is still to be done. -/
def Says.atItsBoundary (s : State) : State :=
  if s.tb.frameDue then s else runClk (s.tb.clk + (1024 - frameCycle s)) s

/-- At the boundary of its effective frame, or at the next boundary after it, the pending transition takes
effect, and LATE counts the second case (R30); a commanded `SAFE` takes effect at the next boundary (R31); a boundary has at
most one transition (R23). `y` is the device as that boundary finds it. -/
def Says.DomainTransitionTakesEffect : Prop :=
  ∀ s y : State, s.tb.running = true → live y = true → y.dom = s.dom →
    (s.dom.safeWait = true → y = atItsBoundary s → s.dom.movedIn ≠ some (frame y) →
      Ends .domainTransitionEffect s fun x =>
        x.dom = { s.dom with state := .safe, safeWait := false, movedIn := some (frame y) } ∧ OnlyIn stateParts y x) ∧
    (s.dom.safeWait = false → s.dom.pend = true → 0 < (s.dom.eff - frame s).toInt →
      y = runTo (s.dom.eff.setWidth 64 <<< 16) s → s.dom.movedIn ≠ some s.dom.eff →
      Ends .domainTransitionEffect s fun x =>
        frame y = s.dom.eff ∧
        x.dom = { s.dom with state := s.dom.pstate, pend := false, movedIn := some s.dom.eff } ∧ OnlyIn stateParts y x) ∧
    (s.dom.safeWait = false → s.dom.pend = true → (s.dom.eff - frame s).toInt ≤ 0 → y = atItsBoundary s →
      0 ≤ (frame y - s.dom.eff).toInt → s.dom.movedIn ≠ some (frame y) →
      Ends .domainTransitionEffect s fun x =>
        x.dom = { s.dom with
          state := s.dom.pstate, pend := false, movedIn := some (frame y)
          late := if frame y = s.dom.eff then s.dom.late else BitVec.ofNat 8 (min 255 (s.dom.late.toNat + 1)) } ∧
        OnlyIn stateParts y x)

/-- R21 at the boundary that comes, with no load, step or link work waiting: a transition that is due
takes effect, every engine begins its housekeeping with an empty count of busy cycles, every coalescing timer that runs counts
the boundary (R332), and the duties of this boundary are done. -/
def Says.FrameBoundaryActs : Prop :=
  ∀ (calErr : List Int) (s y : State), s.tb.running = true → s.tb.loadPend = false → s.link.stepDue = none →
    y = atItsBoundary s → live y = true → y.rcd.replayDue = none → y.link.takeDue = none → y.link.obsDue = false →
    y.dom.observe = false → y.dom.safeWait = false → (∀ k : Fin 4, y.link.ports[k].state ≠ .up) →
    (∀ t : Fin 4, y.wt[t].follows = false) → y.dom.movedIn ≠ some (frame y) →
    Ends (.frameBoundary calErr) s fun x =>
      x.tb = { y.tb with frameDue := false } ∧
      (y.dom.pend = true → 0 ≤ (frame y - y.dom.eff).toInt →
        x.dom.state = y.dom.pstate ∧ x.dom.pend = false ∧ x.dom.movedIn = some (frame y)) ∧
      (y.dom.pend = false → x.dom.state = y.dom.state ∧ x.dom.pend = false ∧ x.dom.movedIn = y.dom.movedIn) ∧
      (∀ e : Fin 16, x.te[e].hk = true ∧ x.te[e].busy = 0 ∧ x.te[e].state = y.te[e].state ∧ x.te[e].pc = y.te[e].pc ∧
        x.te[e].last.toNat = min 960 y.te[e].busy) ∧
      (y.dom.pend = false → ∀ h : Fin 32, x.ic.tgt[h].normal.timer = y.ic.tgt[h].normal.timer.map (· + 1) ∧
        x.ic.tgt[h].fast.timer = y.ic.tgt[h].fast.timer.map (· + 1)) ∧
      x.sys.dlact = y.sys.dlact ∧ x.cis = y.cis ∧ x.well = y.well ∧ x.pump = y.pump ∧ x.sc = y.sc ∧ x.se = y.se

/-- The loss of the host with a data link that was active (R403): the link's fields clear, `HOSTLOSS` is set, source 451
pulses, the Calm domain takes a fault record, the shadows and every PCI Express staging register are emptied, every
descriptor with a host read outstanding ends with HOSTERR, and where `SREN` is 1 and the device is not in SAFE the domain
state is CONFIG with no transition pending; the wells, the Cistern and the line link keep what they hold. -/
def Says.HostLossActs : Prop :=
  ∀ s : State, s.sys.dlact = true → s.sys.l23 = false → bit s.sys.strap 0 = false → live s = true →
    Ends .hostLoss s fun x =>
      x.sys.dlact = false ∧ x.sys.width = 0 ∧ x.sys.speed = 0 ∧ x.sys.stat = s.sys.stat ||| 1 ∧ x.shadows = [] ∧
      Pulsed 451 s x ∧
      (s.sys.vkeepOk = true → (s.calm.faultClk = some s.tb.clk → 6 ≤ s.calm.faultCode) →
        x.calm = { s.calm with
          fcount := BitVec.ofNat 8 (min 255 (s.calm.fcount.toNat + 1)), faultClk := some s.tb.clk, faultCode := 6
          fault := x.calm.fault } ∧
        fld x.calm.fault[0] 31 24 = 6 ∧ fld x.calm.fault[0] 23 16 = s.dom.state.code ∧
        x.calm.fault[1] = (frame s).setWidth 32 ∧ x.calm.fault[2] = ((frame s) >>> 32).setWidth 32) ∧
      (∀ n : Fin 256, x.ch[n].stagePcie = 0) ∧ (∀ e : Fin 16, x.te[e].stagePcie = Vector.replicate 3 0) ∧
      (∀ l : Fin 4, x.job[l].stagePcie = 0) ∧ (∀ k : Fin 64, x.well[k] = { s.well[k] with stagePcie := 0 }) ∧
      (∀ u : Fin 8, (s.pump[u].hostOut = [] → x.pump[u] = s.pump[u]) ∧
        (s.pump[u].hostOut ≠ [] → s.pump[u].fetching = false → s.pump[u].fail = none →
          x.pump[u].fail = some 4 ∧ x.pump[u].hostOut = [])) ∧
      (s.sys.sren = true → s.dom.state ≠ .safe → x.dom = { s.dom with state := .config, pend := false }) ∧
      (s.sys.sren = false ∨ s.dom.state = .safe → x.dom = s.dom) ∧
      OnlyIn [.dom, .shadows, .ch, .te, .wt, .pin, .pins, .well, .pump, .job, .rcd, .sys, .calm] s x

/-! The timebase. -/

/-- `LOAD` is accepted in CONFIG with TB64 not following the link and no load pending; it copies the staged
value, its bits [15:0] read as zero, and `LOADPEND` reads 1 (R38). Otherwise it is refused (R39). -/
def Obligations.TbLoadJudged : Prop :=
  ∀ (p : Port) (s : State), Safety.safeServed s → hostOk p s = true →
    (s.dom.state = .config → s.tb.src = false → s.tb.loadPend = false →
      Does (.tbLoad p) s fun t =>
        t.tb = { s.tb with
          loadPend := true, loadVal := (s.tb.setHi ++ s.tb.setLo) &&& 0xFFFF_FFFF_FFFF_0000
          cmd := { s.tb.cmd with status := .ok } } ∧
        OnlyIn [.tb] s t) ∧
    (s.dom.state ≠ .config ∨ s.tb.src = true ∨ s.tb.loadPend = true →
      Does (.tbLoad p) s fun t =>
        t.tb = { s.tb with cmd := ⟨.stateRefused, BitVec.ofNat 8 (min 255 (s.tb.cmd.refusals.toNat + 1))⟩ } ∧
        OnlyIn [.tb] s t)

/-- The pending load takes effect at the frame boundary `y`: TB64 holds the loaded value in that cycle, `LOADPEND`
reads 0, R21 is due for the loaded frame, and the effective frame of a pending transition and of a SAFE broadcast moves with
the frame number (R38). A compare armed outside its horizon is disarmed and sets TBJ, a committed edge and the end of a pulse move with
the load, in local mode too, a shared PERIOD_MEASURE begins anew, and no counter moves (R40). -/
def Says.TbLoadTakesEffect : Prop :=
  ∀ s y : State, s.tb.loadPend = true → s.tb.running = true → y = atItsBoundary s →
    Ends .tbLoadEffect s fun x =>
      x.tb = { y.tb with now := s.tb.loadVal, loadPend := false, frameDue := true } ∧
      x.dom = { y.dom with
        eff := y.dom.eff + (frameOf s.tb.loadVal - frame y)
        bcast := y.dom.bcast.map (· + (frameOf s.tb.loadVal - frame y))
        movedIn := y.dom.movedIn.map (· + (frameOf s.tb.loadVal - frame y)) } ∧
      (∀ n : Fin 256,
        x.ch[n].cnt = y.ch[n].cnt ∧ (y.ch[n].stopping = false → x.ch[n].run = y.ch[n].run) ∧
        (y.ch[n].shared = true → y.ch[n].armed = true → y.ch[n].horizon = false → y.ch[n].pulse = false →
          x.ch[n].armed = false ∧ bit x.ch[n].flags 6 = true) ∧
        (y.ch[n].horizon = true ∨ y.ch[n].pulse = true → (∀ t : Fin 4, y.wt[t].table.any (EvEntry.holds n) = false) →
          x.ch[n].horizon = y.ch[n].horizon ∧ x.ch[n].pulse = y.ch[n].pulse ∧
          x.ch[n].edgeAt = y.ch[n].edgeAt + (s.tb.loadVal - y.tb.now) ∧ x.ch[n].endAt = y.ch[n].endAt + (s.tb.loadVal - y.tb.now)) ∧
        (y.ch[n].shared = true → y.ch[n].mode = 5 → x.ch[n].pvalid = false)) ∧
      OnlyIn [.tb, .dom, .ch, .te, .win, .wt, .pin, .pins, .job, .rcd] y x

/-- The frame boundary, and the domain transition and the load of TB64 that take effect at it.
It rests on the model's own reading in logs 2, 53 and 76. -/
def Obligations.FrameBoundaries : Prop :=
  DomainTransitionTakesEffect ∧ FrameBoundaryActs ∧ TbLoadTakesEffect


/-! Timer channels. -/

/-- The next step of a channel's own counter in local mode comes 2^PSC cycles after the last: it goes from
`CH_TOP`, or from 0xFFFF_FFFF, to 0, where `WRAP` is set and a held `CH_TOP` and, with PREN, the preload are
taken, and adds 1 to every other value; a step that takes the count to a `CH_CMP` not above `CH_TOP` sets
`MATCH`, and in COMPARE_OUT applies ACT to the output in RUN and HOLD (R41, R42, R43, R46, R58, R68). A wrap of the low
channel steps the running high channel of its cascade (R63). No other channel moves. `y` is the device in the cycle of the step. -/
def Says.CounterSteps : Prop :=
  ∀ (n : Fin 256) (s y : State), s.tb.running = true → s.ch[n].run = true → s.ch[n].shared = false →
    (n.val % 2 = 0 ∨ s.ch[n].mode ≠ 6) → y = runClk s.ch[n].nextStep s →
    Ends (.counterStep n) s fun x =>
      x.ch[n].nextStep = y.ch[n].nextStep + 2 ^ y.ch[n].psc ∧
      (y.ch[n].cnt = y.ch[n].top ∨ y.ch[n].cnt = 0xFFFF_FFFF →
        x.ch[n].cnt = 0 ∧ bit x.ch[n].flags 1 = true ∧
        x.ch[n].top = y.ch[n].heldTop.getD y.ch[n].top ∧ x.ch[n].heldTop = none ∧
        x.ch[n].cmp = (if y.ch[n].pren then y.ch[n].pre else y.ch[n].cmp) ∧
        (cascades y n = true → y.ch[highOf n].run = true → x.ch[highOf n].cnt =
          if y.ch[highOf n].cnt = y.ch[highOf n].top ∨ y.ch[highOf n].cnt = 0xFFFF_FFFF then 0 else y.ch[highOf n].cnt + 1)) ∧
      (y.ch[n].cnt ≠ y.ch[n].top → y.ch[n].cnt ≠ 0xFFFF_FFFF →
        x.ch[n].cnt = y.ch[n].cnt + 1 ∧ x.ch[n].top = y.ch[n].top ∧ x.ch[n].heldTop = y.ch[n].heldTop ∧
        x.ch[n].cmp = y.ch[n].cmp ∧ x.ch[highOf n].cnt = (if highOf n = n then x.ch[n].cnt else y.ch[highOf n].cnt)) ∧
      (x.ch[n].cnt = x.ch[n].cmp → x.ch[n].cmp ≤ x.ch[n].top → bit x.ch[n].flags 0 = true ∧
        (y.ch[n].mode = 1 → suppressing y = false → x.ch[n].out = match y.ch[n].actCode with
          | .set => true | .clear => false | .toggle => !y.ch[n].out | _ => y.ch[n].out)) ∧
      (x.ch[n].cnt ≠ x.ch[n].cmp → bit x.ch[n].flags 0 = bit y.ch[n].flags 0) ∧
      (∀ j : Fin 256, j ≠ n → (j ≠ highOf n ∨ cascades y n = false) → x.ch[j] = y.ch[j]) ∧
      OnlyIn [.ch, .te, .pin, .pins, .se, .sc, .rcd, .calm, .dom] y x

/-- Host writes of `CH_CNT`, `CH_TOP`, `CH_FILT` and of the low half of a target (R42, R51, R52, R66). The new count is held
from the next cycle on, for captures to come (R54). A write of `CH_TOP` is held while the channel runs; while it is stopped it
replaces a value still held too (log 60); FN 0 is stored as 1, and a change of the filter or its direction restarts it; the low
half is staged at its port, and an ANGLE_EVENT channel ignores it. No other register of the channel and no other channel moves. -/
def Says.ChannelRegistersWritten : Prop :=
  ∀ (p : Port) (n : Fin 256) (v : Word) (s : State), Safety.safeServed s → hostOk p s = true →
    (Does (.chCntWrite p n v) s fun t =>
      t.ch = s.ch.set n { s.ch[n] with cnt := v, hist := t.ch[n].hist } ∧
      t.ch[n].hist.head? = some ⟨s.tb.clk + 1, v, s.ch[n].steps⟩ ∧ OnlyIn [.ch] s t) ∧
    (Does (.chTopWrite p n v) s fun t =>
      t.ch = s.ch.set n (if s.ch[n].run then { s.ch[n] with heldTop := some v }
        else { s.ch[n] with top := v, heldTop := none }) ∧
      OnlyIn [.ch] s t) ∧
    (Does (.chFiltWrite p n v) s fun t =>
      t.ch = s.ch.set n { s.ch[n] with
        filt := t.ch[n].filt, epsCnt := 0
        filtFrom := if fld t.ch[n].filt 31 24 ≠ fld s.ch[n].filt 31 24 ∨ fld v 15 13 ≠ fld s.ch[n].filt 15 13
          then some s.tb.now else s.ch[n].filtFrom } ∧
      t.ch[n].filt = (if fld v 31 24 = 0 then (v &&& 0xFFFF_E000) ||| 0x0100_0000 else v &&& 0xFFFF_E000) ∧
      OnlyIn [.ch] s t) ∧
    (Does (.chTgtLoWrite p n v) s fun t =>
      t.ch = s.ch.set n (if s.ch[n].mode = 7 then s.ch[n] else match p with
        | .pcie _ => { s.ch[n] with stagePcie := v }
        | .spi => { s.ch[n] with stageSpi := v }) ∧
      OnlyIn [.ch] s t)

/-- An immediate write of `CH_CMP`: the register takes the value, and the next cycle judges it (R44, R45; `NextCycleActs`). The
write of a target's high half moves the pair into the target of a shared channel; an armed compare whose horizon has come with
it commits (R50, R51); an ANGLE_EVENT channel ignores it (R66). -/
def Says.ChannelComparesWritten : Prop :=
  ∀ (p : Port) (n : Fin 256) (v : Word) (s : State), hostOk p s = true →
    let w : Stamp := v ++ (match p with | .pcie _ => s.ch[n].stagePcie | .spi => s.ch[n].stageSpi)
    let comes : Prop := s.ch[n].armed = true ∧ s.ch[n].horizon = false ∧ ({ s.ch[n] with tgt := w } : Chan).atHorizon s.tb.now = true
    (Ends (.chCmpWrite p n v) s fun x =>
      x.ch = s.ch.set n { s.ch[n] with cmp := v } ∧ Later.compare n ∈ x.later ∧
      (cascades s (lowOf n) = true → Later.comparePair (lowOf n) ∈ x.later) ∧ (∀ a ∈ s.later, a ∈ x.later) ∧
      OnlyIn [.ch, .later] s x) ∧
    (s.ch[n].mode ≠ 7 → ¬ comes → Ends (.chTgtHiWrite p n v) s fun x => x = modCh n (fun c => { c with tgt := w }) s) ∧
    (s.ch[n].mode ≠ 7 → comes → Ends (.chTgtHiWrite p n v) s fun x =>
      x.ch[n].tgt = w ∧ x.ch[n].horizon = true ∧ OthersKept n s.ch x.ch) ∧
    (s.ch[n].mode = 7 → Ends (.chTgtHiWrite p n v) s fun x => x = s)

/-- What a write leaves to the next cycle. A written `CH_CMP` of a running local channel with MATCH_GE that is not above the
count matches there, and so does the pair of a cascade (R45, R64); MATCH_GE, POL, ACT and WCODE of a written `CH_CFG` are in
force from it (R57). So are `EV_CFG` (R194), SE_IE, SE_CMPV, SE_CMPM and SE_SIG, and the SE_WRAP that a running engine holds for its next
crossing (R198, R217), and the owner of a bank that has been handed over (R288); an event whose last step is done is FREE (R184). -/
def Says.NextCycleActs : Prop :=
  ∀ (n : Fin 256) (s t : State), s.tb.running = true → s.dom.safeNow = false → t = advance 1 s →
    (s.later = [.compare n] →
      (s.ch[n].run = true → s.ch[n].shared = false → s.ch[n].matchGe = true → s.ch[n].mode ≠ 6 → s.ch[n].cmp ≤ s.ch[n].cnt →
        bit t.ch[n].flags 0 = true) ∧
      (s.ch[n].run = false ∨ s.ch[n].shared = true ∨ s.ch[n].matchGe = false ∨ s.ch[n].mode = 6 ∨ s.ch[n].cnt < s.ch[n].cmp →
        OnlyIn [.tb, .later] s t)) ∧
    (s.later = [.comparePair n] → cascades s n = true → s.ch[highOf n].run = true → s.ch[highOf n].matchGe = true →
      s.ch[highOf n].cmp ++ s.ch[n].cmp ≤ s.ch[highOf n].cnt ++ s.ch[n].cnt → bit t.ch[highOf n].flags 0 = true) ∧
    (s.later = [.chCfg n] → t.ch[n].eff = s.ch[n].cfg) ∧
    (∀ (u : Fin 4) (i : Nat), s.later = [.evFree u i] →
      (t.wt[u].entry i).st = .free ∧ (∀ j, j ≠ i → t.wt[u].entry j = s.wt[u].entry j) ∧ OthersKept u s.wt t.wt) ∧
    (∀ u : Fin 4, s.later = [.evCfg u] → t.wt[u].evNow = s.wt[u].evcfg) ∧
    (∀ (e : Fin 32) (off : Nat) (v : Word), s.later = [.seReg e off v] →
      (off = 0x20 → t.se[e].ie = v &&& 0x1_007F) ∧ (off = 0x2C → t.se[e].cmpv = v) ∧ (off = 0x30 → t.se[e].cmpm = v) ∧
      (off = 0x3C → t.se[e].temask = (v >>> 16).setWidth 16) ∧
      (off = 0x0C → t.se[e].heldWrap = some (BitVec.ofNat 5 (fld v 4 0), BitVec.ofNat 5 (fld v 12 8))) ∧
      OthersKept e s.se t.se ∧ OnlyIn [.tb, .later, .se] s t) ∧
    (∀ (b : Fin 8) (w : Word), s.later = [.owner b w] →
      t.cis.banks[b] = { s.cis.banks[b] with own := w } ∧ OthersKept b s.cis.banks t.cis.banks ∧ OnlyIn [.tb, .later, .cis] s t)

/-- The counter of a channel and the registers that steer it.
It rests on the model's own reading in logs 2, 24, 61 and 67. -/
def Obligations.LocalCounting : Prop :=
  CounterSteps ∧ ChannelRegistersWritten ∧ ChannelComparesWritten ∧ NextCycleActs


/-- The channel commands in the states of Table 2.5: `START` runs a stopped channel of a legal mode, its first step 2^PSC cycles on,
and with it the high channel of its cascade (R65); `STOP` stops a running one, with that, and disarms a compare outside its
horizon; an ANGLE_EVENT channel completes a COMMITTED event first and gives an ISSUED one back (R469); `ARM` arms the compare of a running shared one, and
commits it at once inside the horizon; `DISARM` disarms a compare outside its horizon; `RELOAD` writes
`CH_PRE` to the compare, to be judged as a write of it. STATUS is OK. -/
def Says.ChannelCommandsAccepted : Prop :=
  ∀ (p : Port) (n : Fin 256) (s : State), hostOk p s = true →
    (s.ch[n].run = false → s.ch[n].mode ≤ 8 → s.ch[n].mode ≠ 6 → (s.ch[n].mode = 2 → s.ch[n].shared = false) →
      (s.ch[n].mode = 7 → s.ch[n].shared = true) →
      Ends (.chStart p n) s fun x =>
        x.ch[n].run = true ∧ x.ch[n].nextStep = s.tb.clk + 2 ^ s.ch[n].psc ∧ x.ch[n].pvalid = false ∧
        x.ch[n].cnt = s.ch[n].cnt ∧ x.ch[n].cmd = { s.ch[n].cmd with status := .ok } ∧
        (cascades s n = false → OthersKept n s.ch x.ch) ∧
        (cascades s n = true → s.ch[n].shared = false → x.ch[highOf n].run = true ∧ x.ch[highOf n].cnt = s.ch[highOf n].cnt) ∧
        OnlyIn [.ch] s x) ∧
    (s.ch[n].run = true → (n.val % 2 = 0 ∨ s.ch[n].mode ≠ 6) → (s.ch[n].mode = 7 → s.ch[n].event = none) →
      Ends (.chStop p n) s fun x =>
        x.ch[n].run = false ∧ (s.ch[n].horizon = false → x.ch[n].armed = false) ∧
        (s.ch[n].horizon = true → x.ch[n].armed = s.ch[n].armed ∧ x.ch[n].horizon = true) ∧
        x.ch[n].pulse = s.ch[n].pulse ∧ x.ch[n].cmd = { s.ch[n].cmd with status := .ok } ∧
        (cascades s n = false → OthersKept n s.ch x.ch) ∧
        (cascades s n = true → s.ch[n].shared = false → x.ch[highOf n].run = false) ∧ OnlyIn [.ch] s x) ∧
    (∀ v, s.ch[n].run = true → s.ch[n].mode = 7 → s.ch[n].event = some v →
      ((s.wt[v.trk].entry v.idx).st = .committed →
        Ends (.chStop p n) s fun x => x.ch[n].run = true ∧ x.ch[n].stopping = true ∧ x.ch[n].event = some v ∧
          OthersKept n s.ch x.ch ∧ OnlyIn [.ch] s x) ∧
      ((s.wt[v.trk].entry v.idx).st ≠ .committed →
        Ends (.chStop p n) s fun x => x.ch[n].run = false ∧ x.ch[n].armed = false ∧ x.ch[n].event = none ∧
          (v.idx < s.wt[v.trk].table.length → (x.wt[v.trk].entry v.idx).st = .waiting) ∧
          OthersKept n s.ch x.ch ∧ OthersKept v.trk s.wt x.wt ∧ OnlyIn [.ch, .wt] s x)) ∧
    (s.ch[n].run = true → s.ch[n].shared = true → s.ch[n].mode ≠ 7 → s.ch[n].armed = false → s.ch[n].pulse = false →
      Ends (.chArm p n) s fun x =>
        x.ch[n].armed = true ∧ x.ch[n].cmd = { s.ch[n].cmd with status := .ok } ∧
        (s.ch[n].horizon = false → s.ch[n].atHorizon s.tb.now = false → x.ch[n].horizon = false ∧ OnlyIn [.ch] s x) ∧
        (s.ch[n].atHorizon s.tb.now = true → x.ch[n].horizon = true) ∧ OthersKept n s.ch x.ch) ∧
    (s.ch[n].armed = true → s.ch[n].horizon = false → s.ch[n].mode ≠ 7 →
      Ends (.chDisarm p n) s fun x =>
        x.ch = s.ch.set n { s.ch[n] with armed := false, horizon := false, cmd := { s.ch[n].cmd with status := .ok } } ∧
        OnlyIn [.ch] s x) ∧
    (s.ch[n].shared = false →
      Ends (.chReload p n) s fun x =>
        x.ch = s.ch.set n { s.ch[n] with cmp := s.ch[n].pre, cmd := { s.ch[n].cmd with status := .ok } } ∧
        Later.compare n ∈ x.later ∧ OnlyIn [.ch, .later] s x)

/-- The channel commands that Table 2.5 refuses: `START` of a running channel or of the high channel of a cascade, `STOP` of a
stopped one or of that, `ARM` of a channel that is stopped, in local mode, an ANGLE_EVENT channel, armed already or in a pulse, `DISARM` of
a compare that is not armed, inside its horizon or of an ANGLE_EVENT channel, and `RELOAD` in shared mode. STATUS and REFUSALS alone move, and with
REFIE source 448 pulses (R16, R67). `START` of a stopped channel in a reserved mode, or in a mode that TBSEL does not allow, is ARG_INVALID. -/
def Says.ChannelCommandsRefused : Prop :=
  ∀ (p : Port) (n : Fin 256) (s : State), hostOk p s = true →
    let No (c : Instr) : Prop := Ends c s fun x =>
      x.ch = s.ch.set n { s.ch[n] with cmd := refused s.ch[n].cmd } ∧
      (bit s.ch[n].ie 16 = true → Pulsed 448 s x) ∧ OnlyIn [.ch] s x
    (s.ch[n].run = true ∨ (n.val % 2 = 1 ∧ s.ch[n].mode = 6) → No (.chStart p n)) ∧
    (s.ch[n].run = false ∨ (n.val % 2 = 1 ∧ s.ch[n].mode = 6) → No (.chStop p n)) ∧
    (s.ch[n].run = false ∨ s.ch[n].shared = false ∨ s.ch[n].mode = 7 ∨ s.ch[n].armed = true ∨ s.ch[n].pulse = true →
      No (.chArm p n)) ∧
    (s.ch[n].armed = false ∨ s.ch[n].horizon = true ∨ s.ch[n].mode = 7 → No (.chDisarm p n)) ∧
    (s.ch[n].shared = true → No (.chReload p n)) ∧
    (s.ch[n].run = false → ¬ (n.val % 2 = 1 ∧ s.ch[n].mode = 6) →
      9 ≤ s.ch[n].mode ∨ s.ch[n].mode = 6 ∨ (s.ch[n].mode = 2 ∧ s.ch[n].shared = true) ∨ (s.ch[n].mode = 7 ∧ s.ch[n].shared = false) →
      Ends (.chStart p n) s fun x =>
        x.ch = s.ch.set n { s.ch[n] with cmd := { s.ch[n].cmd with status := .argInvalid } } ∧ OnlyIn [.ch] s x)

/-- The channel commands, accepted and refused.
It rests on the model's own reading in logs 7, 67 and 79. -/
def Obligations.ChannelCommands : Prop :=
  ChannelCommandsAccepted ∧ ChannelCommandsRefused


/-- The placement horizon of an armed shared compare that holds no angle event comes four cycles before its target: the compare is
committed for the target time, and where that cycle has passed for four cycles on, with LATE set (R49, R50). In RUN its action is not
suppressed; where the domain state suppresses it, SUPPR is set (R68). A FIRE takes its code with the commit (R61). -/
def Says.SharedCompareActs : Prop :=
  ∀ (n : Fin 256) (s y : State), s.tb.running = true → s.ch[n].shared = true → s.ch[n].event = none →
    s.ch[n].armed = true → s.ch[n].horizon = false → y = runTo (coarse s.ch[n].tgt - 256) s → y.ch[n] = s.ch[n] →
    Ends (.placementHorizon n) s fun x =>
      x.ch[n].horizon = true ∧ x.ch[n].armed = true ∧
      (256 ≤ dist (coarse y.ch[n].tgt) y.tb.now → x.ch[n].edgeAt = y.ch[n].tgt) ∧
      (dist (coarse y.ch[n].tgt) y.tb.now < 256 → x.ch[n].edgeAt = y.tb.now + 256 ∧ bit x.ch[n].flags 5 = true) ∧
      (y.dom.observe = false → y.dom.state = .run ∨ y.dom.state = .hold →
        x.ch[n].suppr = false ∧ (y.ch[n].mode = 8 → x.ch[n].code = y.ch[n].wcode)) ∧
      (y.dom.observe = true ∨ (y.dom.state ≠ .run ∧ y.dom.state ≠ .hold) → y.ch[n].sharedAct.1 ≠ .none →
        x.ch[n].suppr = true ∧ bit x.ch[n].flags 7 = true ∧ x.ch[n].code = y.ch[n].code) ∧
      x.ch[n].out = y.ch[n].out ∧ OthersKept n y.ch x.ch ∧ OnlyIn [.ch, .te, .pin, .pins, .rcd, .calm, .dom] y x

/-- The committed edge of a shared compare in the cycle of its time: `MATCH` is set; SET, CLEAR and TOGGLE act on the output, and
the compare is disarmed; a pulse or FIRE of a width other than 0 raises the output and ends its width later; of width 0 it shows
nothing (R58, R60, R61). A suppressed edge moves no output (R68). A channel whose STOP waits stops with the end (R67). -/
def Says.TargetEdgeActs : Prop :=
  ∀ (n : Fin 256) (s y : State), s.tb.running = true → s.ch[n].horizon = true → s.ch[n].pulse = false →
    y = runTo s.ch[n].edgeAt s → y.ch[n] = s.ch[n] →
    let pulses : Bool := decide (y.ch[n].act = .pulse ∨ y.ch[n].act = .fire)
    Ends (.targetEdge n) s fun x =>
      bit x.ch[n].flags 0 = true ∧
      (pulses = false ∨ y.ch[n].actWidth = 0 →
        x.ch[n].armed = false ∧ x.ch[n].horizon = false ∧ x.ch[n].pulse = false ∧ x.ch[n].event = none ∧
        x.ch[n].run = (y.ch[n].run && !y.ch[n].stopping) ∧
        x.ch[n].out = (if y.ch[n].suppr then y.ch[n].out else match y.ch[n].act with
          | .set => true | .clear => false | .toggle => !y.ch[n].out | _ => y.ch[n].out)) ∧
      (pulses = true → y.ch[n].actWidth ≠ 0 →
        x.ch[n].pulse = true ∧ x.ch[n].isLocal = false ∧ x.ch[n].endAt = y.ch[n].edgeAt + y.ch[n].actWidth ∧
        x.ch[n].out = (if y.ch[n].suppr then y.ch[n].out else true) ∧ x.ch[n].armed = y.ch[n].armed) ∧
      OthersKept n y.ch x.ch ∧
      OnlyIn ([.ch, .te, .pin, .pins, .se, .sc, .rcd, .calm, .dom] ++ if y.ch[n].event = none then [] else [.later]) y x

/-- A pulse ends as its rise has fixed it: one begun by a local match in the cycle of its end, where a local ONE_SHOT channel
stops, with the high channel of its cascade; a shared one at its trailing edge's time, where the compare is disarmed, and a
channel whose STOP waits stops (R60, R61, R65, R67). A pulse that was not suppressed brings the output back. `y` is the device in that cycle. -/
def Says.PulseEnds : Prop :=
  ∀ (n : Fin 256) (s y : State), s.tb.running = true → s.ch[n].pulse = true → y.ch[n] = s.ch[n] →
    (s.ch[n].isLocal = true → y = runClk s.ch[n].endClk s →
      Ends (.pulseEnd n) s fun x =>
        x.ch[n].pulse = false ∧ x.ch[n].out = (if y.ch[n].suppr then y.ch[n].out else false) ∧
        x.ch[n].run = (if y.ch[n].once then false else y.ch[n].run) ∧ x.ch[n].cnt = y.ch[n].cnt ∧
        (y.ch[n].once = true → cascades y n = true → x.ch[highOf n].run = false) ∧
        (y.ch[n].once = false ∨ cascades y n = false → OthersKept n y.ch x.ch) ∧
        OnlyIn [.ch, .pin, .pins, .se, .sc, .rcd, .calm, .dom] y x) ∧
    (s.ch[n].isLocal = false → y = runTo s.ch[n].endAt s →
      Ends (.pulseEnd n) s fun x =>
        x.ch[n].pulse = false ∧ x.ch[n].out = (if y.ch[n].suppr then y.ch[n].out else false) ∧
        x.ch[n].armed = false ∧ x.ch[n].horizon = false ∧ x.ch[n].event = none ∧
        x.ch[n].run = (y.ch[n].run && !y.ch[n].stopping) ∧ OthersKept n y.ch x.ch ∧
        OnlyIn ([.ch, .pin, .pins, .se, .sc, .rcd, .calm, .dom] ++ if y.ch[n].event = none then [] else [.later]) y x)

/-- Shared compares and the ends of pulses.
It rests on the model's own reading in logs 2, 61 and 67. -/
def Obligations.ComparesAndPulses : Prop :=
  SharedCompareActs ∧ TargetEdgeActs ∧ PulseEnds


/-- An edge of the routed input of a channel qualifies when FN samples on the grid of 2^FPSC cycles agree, the first of them
three cycles after the ball's sample, or the first cycle after a restart of the filter where that is later (R4, R52, R236). One of a selected direction on a running capture channel whose
edge prescaler is exhausted is taken: the timestamp is the raw transition's, or the restart's where that is later: in shared mode
its time, in local mode the count held then; `CAP` is set, and `OVR` where `CAP` was set (R53 to R55). PERIOD_MEASURE gives the time,
or the counter steps, from the edge taken before, if there is one (R62). An edge of a direction that is not selected, or that the prescaler counts, is not
taken; samples that agree with the filtered level are no edge. An input without a source is a constant 0, sampled from the cycle after the restart on (R231). A wheel input that the channel selects has
the transition first, whether or not the filter passes it on (R144, R146). In REPLAY no edge comes in (R440).
It rests on the model's own reading in logs 2, 14, 58 and 84. -/
def Obligations.CaptureTaken : Prop :=
  ∀ (n : Fin 256) (level : Bool) (stamp : Stamp) (s y : State),
    let code := s.pins.chin[n].toNat
    let grid := 2 ^ fld s.ch[n].filt 15 13
    let since := s.ch[n].filtFrom
    let edge : Stamp := if code = 511 then since.getD stamp else stamp
    let sampled : Stamp := coarse (edge + 63) + 192
    let first : Stamp := if code = 511 then coarse edge + 64
      else match since with | some f => if later (coarse f + 64) sampled then coarse f + 64 else sampled | none => sampled
    let due : Stamp := atCyc ((cyc first + grid - 1) / grid * grid + (fld s.ch[n].filt 31 24 - 1) * grid)
    let t : Stamp := match since with | some f => if later f edge then f else edge | none => edge
    let u := chinEdge n level stamp s
    let selected := s.ch[n].edge = 2 ∨ s.ch[n].edge = (if level then 0 else 1)
    let raw := y.tb.clk - (y.tb.now - coarse t).toNat / 64
    (live s = false ∨ (code = 511 ∧ level = true) → Ends (.capture n level stamp) s fun x => x = s) ∧
    (code < 288 ∨ 296 ≤ code → u = s) ∧
    (∀ i : Fin 8, code = 288 + i.val →
      (level = false → u.win[i].level = false) ∧ (level = true → u.win[i].leadAt = some stamp) ∧
      (level = true → s.win[i].leadAt ≠ some stamp → u.win[i].level = true ∧ u.win[i].thr = u.win[i].threshold) ∧
      OthersKept i s.win u.win ∧ OnlyIn [.win, .free] s u) ∧
    (live s = true → s.tb.running = true → chinAllows n level stamp s = true →
      y = runTo due u → y.ch[n] = s.ch[n] → s.ch[n].level = level → Ends (.capture n level stamp) s fun x => x = y) ∧
    (live s = true → s.tb.running = true → chinAllows n level stamp s = true →
      y = runTo due u → y.ch[n] = s.ch[n] → s.ch[n].level ≠ level → s.ch[n].run = true →
      s.ch[n].mode = 4 ∨ s.ch[n].mode = 5 →
      (selected → fld s.ch[n].filt 23 16 ≤ s.ch[n].epsCnt →
        Ends (.capture n level stamp) s fun x =>
          x.ch[n].level = level ∧ bit x.ch[n].flags 2 = true ∧ (bit s.ch[n].flags 2 = true → bit x.ch[n].flags 3 = true) ∧
          x.ch[n].cnt = s.ch[n].cnt ∧ x.ch[n].epsCnt = 0 ∧ x.ch[n].filtFrom = none ∧
          (s.ch[n].shared = true → x.ch[n].capt = t ∧ x.ch[n].cap = s.ch[n].cap ∧
            (s.ch[n].mode = 5 →
              (s.ch[n].prevStamp = none → x.ch[n].per = s.ch[n].per ∧ x.ch[n].pvalid = s.ch[n].pvalid) ∧
              (∀ p, s.ch[n].prevStamp = some p → x.ch[n].pvalid = true ∧
                ((t - p).toNat < 2 ^ 32 → x.ch[n].per = (t - p).setWidth 32) ∧
                (2 ^ 32 ≤ (t - p).toNat → x.ch[n].per = 0xFFFF_FFFF ∧ bit x.ch[n].flags 4 = true)))) ∧
          (s.ch[n].shared = false → x.ch[n].capt = s.ch[n].capt ∧
            ∀ h, s.ch[n].hist.head? = some h → h.since ≤ raw → x.ch[n].cap = h.cnt ∧
              (s.ch[n].mode = 5 → ∀ p, s.ch[n].prevSteps = some p → h.steps - p < 2 ^ 32 → h.steps - p ≤ s.ch[n].top.toNat + 1 →
                x.ch[n].per = BitVec.ofNat 32 (h.steps - p) ∧ x.ch[n].pvalid = true)) ∧
          (cascades y n = false → OthersKept n y.ch x.ch) ∧ OnlyIn [.ch, .te, .job, .later, .rcd] y x) ∧
      (selected → s.ch[n].epsCnt < fld s.ch[n].filt 23 16 →
        Ends (.capture n level stamp) s fun x =>
          x.ch = y.ch.set n { y.ch[n] with level := level, filtFrom := none, epsCnt := y.ch[n].epsCnt + 1 } ∧
          OnlyIn [.ch, .rcd] y x) ∧
      (¬ selected →
        Ends (.capture n level stamp) s fun x =>
          x.ch = y.ch.set n { y.ch[n] with level := level, filtFrom := none } ∧ OnlyIn [.ch, .rcd] y x))

/-! Pins and guards. -/

/-- The earliest of the edges decided for a pin reaches the ball at its time with `SKEW`; the ball takes its
level, except that an open-drain pin does not drive high; the other edges wait on. No other pin moves (R235,
R237). In REPLAY the ball stays at its safe level (R440). The last edge of a bounded pulse that a hold-pass pin completes in SAFE
takes the pin to its safe level (R240, R241). `y` is the device in the cycle of the edge. -/
def Says.EdgeReachesBall : Prop :=
  ∀ (p : Fin 288) (a b : List (Stamp × Bool)) (e : Stamp × Bool) (s y : State), s.tb.running = true →
    s.pin[p].edges = a ++ e :: b → (∀ f ∈ a, later f.1 e.1 = true) → (∀ f ∈ b, later e.1 f.1 = false) →
    let t : Stamp := e.1 + ((s.pin[p].io >>> 26).setWidth 6).signExtend 64
    let d : Drive := if e.2 = false then .low
      else if bit s.pin[p].io 9 = true ∧ p.val < 256 then .undriven (BitVec.ofNat 2 (fld s.pin[p].io 11 10)) else .high
    y = runTo t s → y.pin[p] = s.pin[p] →
    (pinRow y p = y.pin[p].row ∨ (pinRow y p = 4 ∧ ({ y.pin[p] with edges := a ++ b } : Pin).completes = true) →
      (live y = true ∨ y.pin[p].row < 3 → Ends (.outputEdgeAtBall p) s fun x =>
        x.pin = y.pin.set p { y.pin[p] with edges := a ++ b, ball := d, hist := x.pin[p].hist } ∧
        (y.pin[p].ball ≠ d → x.pin[p].hist.head? = some (t, d)) ∧ (y.pin[p].ball = d → x.pin[p].hist = y.pin[p].hist) ∧
        OnlyIn [.pin] y x) ∧
      (live y = false → 3 ≤ y.pin[p].row → Ends (.outputEdgeAtBall p) s fun x =>
        x.pin = y.pin.set p { y.pin[p] with
          edges := a ++ b, ball := y.pin[p].driveOf p y.pin[p].safeLevel, hist := x.pin[p].hist } ∧ OnlyIn [.pin] y x)) ∧
    (y.pin[p].row = 8 → pinRow y p = 4 → ({ y.pin[p] with edges := a ++ b } : Pin).completes = false →
      Ends (.outputEdgeAtBall p) s fun x =>
        x.pin[p].row = 4 ∧ x.pin[p].edges = [] ∧ x.pin[p].pulses = [] ∧
        x.pin[p].ball = y.pin[p].driveOf p y.pin[p].safeLevel ∧ OthersKept p y.pin x.pin ∧ OnlyIn [.pin, .rcd] y x)

/-- The clip of a passing pulse at lead + MAXW. One in progress, without a width or with a longer one, ends there: the pin is to be
driven inactive at that time, `CLIP` counts, the violation is in GUARD_STAT and GUARD_LAST, and the pin holds while its source still shows
the pulse (R245, R247). One whose own trailing edge was decided for a later time ends there too, for which edge nothing is held back. A
pulse whose width ends by then is not clipped. `y` is the device in the cycle of the clip. -/
def Says.GuardClipActs : Prop :=
  ∀ (p : Fin 288) (t : Stamp) (s y : State), s.tb.running = true → y = runTo t s → y.pin[p] = s.pin[p] →
    let Clipped (act : Bool) (x : State) : Prop :=
      x.pin[p].clip.toNat = min 255 (y.pin[p].clip.toNat + 1) ∧ x.pin[p].gstat = y.pin[p].gstat ||| 8 ∧
      x.pin[p].edges = y.pin[p].edges ++ [(t, !act)] ∧ x.pin[p].used = y.pin[p].used ∧
      x.pin[p].suppr = y.pin[p].suppr ∧ x.pin[p].forced = y.pin[p].forced ∧
      fld x.pins.last 31 23 = p.val ∧ fld x.pins.last 22 20 = 3 ∧ OthersKept p y.pin x.pin ∧ OnlyIn [.pin, .pins, .rcd] y x
    (∀ (q : Pulse) (l : List Pulse), s.pin[p].pulses = q :: l → q.clipAt = some t → q.till = none → (∀ r ∈ q :: l, r.cut = false) →
      ((∀ w, q.width = some w → t - q.lead < w) →
        pinRow y p = y.pin[p].row ∨ (pinRow y p = 4 ∧ y.pin[p].row = 8 ∧ y.pin[p].passNow = true ∧ q.width ≠ none) →
        Ends (.guardClip p) s fun x => Clipped q.act x ∧
          x.pin[p].pulses = { q with till := some t } :: l ∧ x.pin[p].hold = y.pin[p].during.isSome) ∧
      (∀ w, q.width = some w → w ≤ t - q.lead → pinRow s p = s.pin[p].row → Ends (.guardClip p) s fun x => x = s)) ∧
    (∀ (c : Pulse) (k l : List Pulse), s.pin[p].pulses = k ++ c :: l → c.cut = true → c.till = some t →
      (∀ q ∈ k, q ≠ c) → (∀ q ∈ l, q.cut = false) → pinRow y p = y.pin[p].row →
      Ends (.guardClip p) s fun x => Clipped c.act x ∧
        x.pin[p].pulses = k ++ { c with cut := false } :: l ∧ x.pin[p].hold = y.pin[p].hold)

/-- A new budget window: the budget used is 0 again, and of an open pulse in progress the time from the window's begin on counts; the pin is
no longer forced and leaves its safe level by Table 8.2, and at the common multiple of the old and the new window BEN, BWEXP and BUDGET are
taken (R246, R248). -/
def Says.BudgetWindowBegins : Prop :=
  ∀ (p : Fin 288) (s : State), s.pin[p].window ≠ frame s - frame s % BitVec.ofNat 48 (2 ^ s.pin[p].bwexpNow) →
    let b : BitVec 48 := frame s - frame s % BitVec.ofNat 48 (2 ^ s.pin[p].bwexpNow)
    let begins : Stamp := b.setWidth 64 <<< 16
    Ends (.budgetWindow p) s fun x =>
      x.pin[p].forced = false ∧ (s.pin[p].row = 7 → x.pin[p].row ≠ 7) ∧ x.pin[p].window = b ∧
      (s.pin[p].forced = false → pinRow s p = s.pin[p].row →
        x.pin[p].used = 0 ∧ x.pin[p].pulses = s.pin[p].pulses.filter (fun q => !s.pin[p].over begins q) ∧
        (∀ (q : Pulse) (t : Stamp), s.pin[p].pulses = [q] → q.counts = true → q.till = none → later begins q.lead = true →
          later t begins = true → later t x.pin[p].windowEnd = false → x.pin[p].usedAt t = (t - begins).toNat)) ∧
      (b % BitVec.ofNat 48 (2 ^ max (fld s.pin[p].gcfg 20 16) s.pin[p].bwexpNow) = 0 →
        x.pin[p].benNow = bit s.pin[p].gcfg 26 ∧ x.pin[p].bwexpNow = fld s.pin[p].gcfg 20 16 ∧
        x.pin[p].budgetNow = fld s.pin[p].budget 15 0) ∧
      (b % BitVec.ofNat 48 (2 ^ max (fld s.pin[p].gcfg 20 16) s.pin[p].bwexpNow) ≠ 0 →
        x.pin[p].benNow = s.pin[p].benNow ∧ x.pin[p].bwexpNow = s.pin[p].bwexpNow ∧ x.pin[p].budgetNow = s.pin[p].budgetNow) ∧
      x.pin[p].force = s.pin[p].force ∧ (2 < s.pin[p].row → x.pin[p].gstat = s.pin[p].gstat) ∧
      OthersKept p s.pin x.pin ∧ OnlyIn [.pin, .pins, .rcd] s x

/-- An open pulse that brings the budget used to its limit within the window forces the pin safe in that cycle: `CLIP` and `FORCE`
count, the violation is in GUARD_STAT, a pin in row 8 is in row 7, cause 1 of GUARD_FAULT is set, and where SYS_SAFE_MASK enables that
cause, and no other pin is forced, the command's end enters SAFE (R246, R247, R250, R467; log 59). Of one open pulse the limit comes when
the time since its leading edge, or since the window's begin where that is later, makes up what is left of it; where that is after
the window, or the pin has no budget, it is not forced. `y` is the device in the cycle of the limit. -/
def Says.BudgetForces : Prop :=
  ∀ (p : Fin 288) (s : State),
    let limit := s.pin[p].budgetNow * 2 ^ s.pin[p].bwexpNow
    let begins : Stamp := s.pin[p].window.setWidth 64 <<< 16
    let windowEnd : Stamp := (s.pin[p].window + BitVec.ofNat 48 (2 ^ s.pin[p].bwexpNow)).setWidth 64 <<< 16
    (∀ (t : Stamp) (y : State), s.tb.running = true → s.pin[p].forceAt = some t → y = runTo t s → y.pin[p] = s.pin[p] →
      Ends (.budgetForce p) s fun x =>
        x.pin[p].forced = true ∧ x.pin[p].pulses = [] ∧
        (pinRow y p = 8 → s.pin[p].row = 8 → x.pin[p].used = s.pin[p].usedAt t ∧ x.pin[p].prevTrail = some t) ∧
        x.pin[p].clip.toNat = min 255 (s.pin[p].clip.toNat + 1) ∧ x.pin[p].force.toNat = min 255 (s.pin[p].force.toNat + 1) ∧
        x.pin[p].gstat = s.pin[p].gstat ||| 16 ∧ bit x.pins.fault 1 = true ∧
        (s.pin[p].row = 8 → pinRow y p = 8 → x.pin[p].row = 7 ∧ x.pin[p].edges = [] ∧
          x.pin[p].ball = s.pin[p].driveOf p s.pin[p].safeLevel) ∧
        (bit y.dom.mask 1 = true → (∀ q : Fin 288, y.pin[q].forced = false) → x.dom.safeNow = true) ∧
        (bit y.dom.mask 1 = false ∨ (∃ q : Fin 288, y.pin[q].forced = true) → x.dom = y.dom) ∧
        OthersKept p y.pin x.pin ∧ OnlyIn [.pin, .pins, .rcd, .calm, .dom] y x) ∧
    (s.pin[p].forceAt = none → Ends (.budgetForce p) s fun x => x = s) ∧
    (s.pin[p].benNow = false → s.pin[p].forceAt = none) ∧
    (∀ q : Pulse, s.pin[p].pulses = [q] → q.counts = true → q.till = none →
      let t : Stamp := (if later begins q.lead then begins else q.lead) + BitVec.ofNat 64 (limit - s.pin[p].used)
      (s.pin[p].benNow = true → later windowEnd t = true → s.pin[p].forceAt = some t ∧
        (s.pin[p].used ≤ limit → limit < 2 ^ 63 → s.pin[p].usedAt t = limit)) ∧
      (later windowEnd t = false → s.pin[p].forceAt = none))

/-- The output stage and its guard: edges, clips, budgets.
It rests on the model's own reading in logs 2, 59 and 62. -/
def Obligations.OutputGuards : Prop :=
  EdgeReachesBall ∧ GuardClipActs ∧ BudgetWindowBegins ∧ BudgetForces


/-- `ENABLE` and `DISABLE` in CONFIG or OBSERVE, judged by what the commands accepted before make of the matrix: STATUS is OK and the command
takes effect in the next cycle, when the matrix is on or off; while it is off every
pin is in row 1 of Table 8.2, and a pin that was in another row is undriven (R233, R234, R240). Otherwise they are refused. -/
def Says.MatrixSwitches : Prop :=
  ∀ (p : Port) (s : State), hostOk p s = true →
    let No (c : Instr) : Prop := Ends c s fun x =>
      x.pins = { s.pins with cmd := refused s.pins.cmd } ∧ (bit s.pins.ie 8 = true → Pulsed 448 s x) ∧ OnlyIn [.pins] s x
    (s.dom.state = .config ∨ s.dom.observe = true →
      (s.pins.cmdEn = false → Ends (.pinEnable p) s fun x =>
        x.pins = { s.pins with cmdEn := true, cmd := { s.pins.cmd with status := .ok } } ∧ Later.matrix ∈ x.later ∧
        OnlyIn [.pins, .later] s x) ∧
      (s.pins.cmdEn = true → Ends (.pinDisable p) s fun x =>
        x.pins = { s.pins with cmdEn := false, cmd := { s.pins.cmd with status := .ok } } ∧ Later.matrix ∈ x.later ∧
        OnlyIn [.pins, .later] s x)) ∧
    ((s.dom.state ≠ .config ∧ s.dom.observe = false) ∨ s.pins.cmdEn = true → No (.pinEnable p)) ∧
    ((s.dom.state ≠ .config ∧ s.dom.observe = false) ∨ s.pins.cmdEn = false → No (.pinDisable p)) ∧
    (s.later = [.matrix] → s.dom.safeNow = false →
      (advance 1 s).pins.en = s.pins.cmdEn ∧ OnlyIn [.tb, .later, .pin, .pins, .rcd] s (advance 1 s) ∧
      (s.pins.cmdEn = false → s.pins.en = true → ∀ q : Fin 288, (advance 1 s).pin[q].row = 1 ∧
        (s.pin[q].row ≠ 1 → (advance 1 s).pin[q].ball = .undriven 1)))

/-- Matrix writes at the addresses of Tables 8.7 and 8.8, where the write may act (R231, R233): PIN_OSEL and PIN_IO keep their
defined fields, a PIN_IO with PULL 3 stores PULL 0, a channel or lane source code above 295 stores 511. Where it
may not act nothing is written and STATUS is STATE_REFUSED. -/
def Says.MatrixWrites : Prop :=
  ∀ (p : Port) (q : Fin 288) (n : Fin 256) (e : Fin 32) (k : Fin 12) (v : Word) (s : State), hostOk p s = true →
    (s.dom.state = .config ∨ s.dom.observe = true ∨ s.pins.en = false →
      (Ends (.pinMatrixWrite p (0x2C_1000 + 4 * q.val) v) s fun x =>
        x.pin[q].osel = v &&& 0xF0FF_0307 ∧ x.pin[q].io = s.pin[q].io ∧ x.pins = s.pins ∧
        OthersKept q s.pin x.pin ∧ OnlyIn [.pin, .rcd] s x) ∧
      (Ends (.pinMatrixWrite p (0x2C_2000 + 4 * q.val) v) s fun x =>
        x.pin[q].io = (if fld v 11 10 = 3 then v &&& 0xFC00_03F8 else v &&& 0xFC00_0FF8) ∧
        x.pin[q].osel = s.pin[q].osel ∧ x.pins = s.pins ∧ OthersKept q s.pin x.pin ∧ OnlyIn [.pin, .rcd] s x) ∧
      (Ends (.pinMatrixWrite p (0x2C_3000 + 4 * n.val) v) s fun x =>
        x.pins = { s.pins with chin := s.pins.chin.set n (if v.setWidth 9 < 296#9 then v.setWidth 9 else 511) } ∧
        OthersKept n s.ch x.ch ∧ x.ch[n] = { s.ch[n] with filtFrom := x.ch[n].filtFrom } ∧ OnlyIn [.pins, .ch] s x) ∧
      (Ends (.pinMatrixWrite p (0x2C_4000 + 0x40 * e.val + 4 * k.val) v) s fun x =>
        x.pins = { s.pins with sein := s.pins.sein.set e (s.pins.sein[e].set k
          (if v.setWidth 9 < 296#9 then v.setWidth 9 else 511)) } ∧ OnlyIn [.pin, .pins, .rcd] s x)) ∧
    (s.dom.state ≠ .config → s.dom.observe = false → s.pins.en = true →
      ∀ a ∈ [0x2C_1000 + 4 * q.val, 0x2C_2000 + 4 * q.val, 0x2C_3000 + 4 * n.val, 0x2C_4000 + 0x40 * e.val + 4 * k.val],
      Ends (.pinMatrixWrite p a v) s fun x =>
        x.pins = { s.pins with cmd := refused s.pins.cmd } ∧ (bit s.pins.ie 8 = true → Pulsed 448 s x) ∧ OnlyIn [.pins] s x)

/-- The I/O supplies: a bank's supply, or the 3.3 V supply, that leaves its range sets the bit of it in PIN_EVT
and every pin on it is in row 1; its return sets no event; a bank takes the band of its supply as that becomes valid and keeps it until it is
invalid (R240, R249, R450, R451). -/
def Says.IoSupplies : Prop :=
  ∀ (b : Fin 8) (band : VioBand) (s : State),
    (bit s.pins.vioOk b = true → Ends (.vioLoss b) s fun x =>
      bit x.pins.vioOk b = false ∧ bit x.pins.evt b = true ∧ x.pins.band = s.pins.band.set b none ∧
      (∀ q : Fin 288, q.val / 32 = b.val → x.pin[q].row = 1) ∧ OnlyIn [.pin, .pins, .rcd] s x) ∧
    (bit s.pins.vioOk b = false → Ends (.vioReturn ⟨b, band⟩) s fun x =>
      x.pins = { s.pins with vioOk := x.pins.vioOk, band := s.pins.band.set b (some band), last := x.pins.last } ∧
      bit x.pins.vioOk b = true ∧ (∀ c : Fin 8, c ≠ b → bit x.pins.vioOk c = bit s.pins.vioOk c) ∧
      OnlyIn [.pin, .pins, .rcd] s x) ∧
    (bit s.pins.vioOk b = true → Ends (.vioReturn ⟨b, band⟩) s fun x => x = s) ∧
    (s.pins.vlvOk = true → Ends (.vlvLoss) s fun x =>
      x.pins = { s.pins with vlvOk := false, evt := s.pins.evt ||| 0x100, last := x.pins.last } ∧
      (∀ q : Fin 288, 256 ≤ q.val → x.pin[q].row = 1) ∧ OnlyIn [.pin, .pins, .rcd] s x) ∧
    (s.pins.vlvOk = false → Ends (.vlvReturn) s fun x =>
      x.pins = { s.pins with vlvOk := true, last := x.pins.last } ∧ OnlyIn [.pin, .pins, .rcd] s x)

/-- The pin matrix and the supplies of the pins.
It rests on the model's own reading in log 25. -/
def Obligations.PinMatrix : Prop :=
  MatrixSwitches ∧ MatrixWrites ∧ IoSupplies


/-! Registers: shadows, reads that clear, writes, the SPI sideband. -/

/-- A PCI Express read of the low register of a latched pair returns the low half and copies the high half
into the requester's shadow; at most eight requesters keep one, the most recent first (R71, R72). The
counters of a pair latch only as a cascade. Nothing else moves. -/
def Says.LowReadLatches : Prop :=
  ∀ (rid : BitVec 16) (pair : Pair) (v : BitVec 64) (s : State), Safety.safeServed s → hostOk (.pcie rid) s = true →
    (match pair with
      | .tbNow => v = s.tb.now
      | .tbFrame => v = (s.tb.now >>> 16)
      | .chCapt n => v = s.ch[n].capt
      | .chTgt n => v = s.ch[n].tgt
      | .chCnt k => v = s.ch[hiChan k].cnt ++ s.ch[loChan k].cnt ∧ s.ch[hiChan k].mode = 6
      | .chCap k => v = s.ch[hiChan k].cap ++ s.ch[loChan k].cap ∧ s.ch[hiChan k].mode = 6
      | .wtTooth t => v = s.wt[t].toothAt
      | .wellPop _ => False) →
    Does (.lowReadLatch rid pair) s fun t =>
      t.out = s.out ++ [.readData (.pcie rid) (v.setWidth 32)] ∧
      t.shadows = (⟨rid, pair, (v >>> 32).setWidth 32, true⟩ :: s.shadows.filter fun x => decide (x.rid ≠ rid)).take 8 ∧
      OnlyIn [.out, .shadows] s t

/-- A read of the high register returns the requester's shadow, which is then empty; a requester whose shadow is
of another pair, or empty, reads the live value and nothing but the read data moves (R71). -/
def Says.HighReadTakesShadow : Prop :=
  ∀ (rid : BitVec 16) (pair : Pair) (w : Word) (a b : List Shadow) (s : State), Safety.safeServed s →
    hostOk (.pcie rid) s = true → (∀ k, pair = .chCnt k ∨ pair = .chCap k → s.ch[hiChan k].mode = 6) →
    (s.shadows = a ++ ⟨rid, pair, w, true⟩ :: b → (∀ x ∈ a, x.rid ≠ rid) →
      Does (.highReadShadow rid pair) s fun t =>
        t.out = s.out ++ [.readData (.pcie rid) w] ∧
        t.shadows = ⟨rid, pair, w, false⟩ :: a ++ (b.filter fun x => decide (x.rid ≠ rid)) ∧
        OnlyIn [.out, .shadows] s t) ∧
    ((∀ x ∈ s.shadows, x.rid = rid → x.full = false ∨ x.pair ≠ pair) →
      Does (.highReadShadow rid pair) s fun t =>
        t.out = s.out ++ [.readData (.pcie rid) ((pairValue pair s >>> 32).setWidth 32)] ∧ OnlyIn [.out] s t)

/-- Latched pairs and shadows.
It rests on the model's own reading in logs 56 and 67. -/
def Obligations.LatchedPairs : Prop :=
  LowReadLatches ∧ HighReadTakesShadow


/-- A read of CH_CMD or of SYS_DCMD shows STATUS and the counters and clears the counters, a
partial read too; STATUS stays (R10, R11, R12, Tables 1.11 and 2.14). -/
def Says.ReadClearRegisters : Prop :=
  ∀ (p : Port) (n : Fin 256) (be : BitVec 4) (s : State), Safety.safeServed s → hostOk p s = true →
    (Does (.rcRead p (0x8_0004 + 64 * n.val) be) s fun t =>
      (∃ v, t.out = s.out ++ [.readData p v] ∧
        (be = 0xF → fld v 31 24 = s.ch[n].cmd.refusals.toNat ∧ fld v 23 16 = s.ch[n].supcnt.toNat ∧
          fld v 10 8 = s.ch[n].cmd.status.code)) ∧
      t.ch = s.ch.set n { s.ch[n] with supcnt := 0, cmd := { s.ch[n].cmd with refusals := 0 } } ∧
      OnlyIn [.out, .ch] s t) ∧
    (Does (.rcRead p 0x10C be) s fun t =>
      (∃ v, t.out = s.out ++ [.readData p v] ∧
        (be = 0xF → fld v 15 8 = s.dom.cmd.refusals.toNat ∧ fld v 7 0 = s.dom.cmd.status.code)) ∧
      t.dom = { s.dom with cmd := { s.dom.cmd with refusals := 0 } } ∧ OnlyIn [.out, .dom] s t)

/-- Register writes: a write of fewer than four bytes is discarded (R11). CH_PRE and CH_WIDTH take the word, a 1
in CH_STATUS clears a flag, SYS_LOCK only rises, SYS_SAFE_MASK is not written while it is set, LEAD_F is at least 4. -/
def Says.RegisterWrites : Prop :=
  ∀ (p : Port) (n : Fin 256) (v : Word) (s : State), Safety.safeServed s → hostOk p s = true →
    (∀ (a : Nat) (be : BitVec 4), be ≠ 0xF → Does (.registerWrite p a be v) s fun t => OnlyIn [] s t) ∧
    (Does (.registerWrite p (0x8_0014 + 64 * n.val) 0xF v) s fun t =>
      t.ch = s.ch.set n { s.ch[n] with pre := v } ∧ OnlyIn [.ch] s t) ∧
    (Does (.registerWrite p (0x8_001C + 64 * n.val) 0xF v) s fun t =>
      t.ch = s.ch.set n { s.ch[n] with width := v } ∧ OnlyIn [.ch] s t) ∧
    (Does (.registerWrite p (0x8_0034 + 64 * n.val) 0xF v) s fun t =>
      t.ch = s.ch.set n { s.ch[n] with flags := s.ch[n].flags &&& ~~~ v.setWidth 8 } ∧ OnlyIn [.ch] s t) ∧
    (Does (.registerWrite p 0xC 0xF v) s fun t => t.sys = { s.sys with lock := s.sys.lock || bit v 0 } ∧ OnlyIn [.sys] s t) ∧
    (Does (.registerWrite p 0x110 0xF v) s fun t =>
      t.dom = (if s.sys.lock then s.dom else { s.dom with mask := v &&& 0x3F }) ∧ OnlyIn [.dom] s t) ∧
    (Does (.registerWrite p 0x114 0xF v) s fun t =>
      t.dom = { s.dom with lead := BitVec.ofNat 8 (max 4 (v.toNat % 256)) } ∧ OnlyIn [.dom] s t)

/-- Register reads that clear, and register writes.
It rests on the model's own reading in logs 27 and 56. -/
def Obligations.RegisterAccesses : Prop :=
  ReadClearRegisters ∧ RegisterWrites


/-- The sideband's status byte carries READY and ERR and clears ERR; an illegal command sets it again (R404, R405). A
register transaction reads or writes the registers from its address (R406): CH_TOP of a channel is read, CH_PRE written. A word that is not ready
at its first bit is shifted out as 0 and sets ERR, and so does chip select that rises inside a word (R405, R406).
A transaction at an address that is not a multiple of 4 makes no access and sets ERR. Before READY the words shift out 0 (R407). -/
def Says.SpiRegisters : Prop :=
  ∀ (n : Fin 256) (v : Word) (s : State), Safety.safeServed s → s.tb.running = true →
    let st (e : Bool) : OutItem := .spiStatus (BitVec.ofNat 8 (0x80 + (if s.sys.ready then 32 else 0) + (if e then 16 else 0)))
    (Does .spiStatus s fun t =>
      t.out = s.out ++ [st s.sys.spiErr] ∧ t.sys = { s.sys with spiErr := false } ∧ OnlyIn [.out, .sys] s t) ∧
    (Does .spiBadCommand s fun t =>
      t.out = s.out ++ [st s.sys.spiErr] ∧ t.sys = { s.sys with spiErr := true } ∧ OnlyIn [.out, .sys] s t) ∧
    (∀ late cut : Bool, Does (.spiRegisterRead (BitVec.ofNat 24 (0x8_000C + 64 * n.val)) ⟨[late], cut⟩) s fun t =>
      t.out = s.out ++ [st s.sys.spiErr, st false, .readData .spi (if late || !s.sys.ready then 0 else s.ch[n].top)] ∧
      t.sys = { s.sys with spiErr := late || cut } ∧ OnlyIn [.out, .sys] s t) ∧
    (∀ cut : Bool, Does (.spiRegisterWrite (BitVec.ofNat 24 (0x8_0014 + 64 * n.val)) [v] cut) s fun t =>
      t.out = s.out ++ [st s.sys.spiErr] ∧ t.ch = (if s.sys.ready then s.ch.set n { s.ch[n] with pre := v } else s.ch) ∧
      t.sys = { s.sys with spiErr := cut } ∧ OnlyIn [.out, .sys, .ch] s t) ∧
    (∀ (a : BitVec 24) (l : List Bool) (cut : Bool), a.toNat % 4 ≠ 0 → Does (.spiRegisterRead a ⟨l, cut⟩) s fun t =>
      t.out = s.out ++ [st s.sys.spiErr, st false] ∧ t.sys = { s.sys with spiErr := true } ∧ OnlyIn [.out, .sys] s t) ∧
    (∀ (a : BitVec 24) (l : List Word) (cut : Bool), a.toNat % 4 ≠ 0 → Does (.spiRegisterWrite a l cut) s fun t =>
      t.out = s.out ++ [st s.sys.spiErr] ∧ t.sys = { s.sys with spiErr := true } ∧ OnlyIn [.out, .sys] s t)

/-- The word holds valid check bits and no poison (R291, R292). -/
def Says.clean (s : State) (w : Nat) : Prop := s.cis.poison.contains w = false ∧ ∀ p ∈ s.cis.flipped, p.1 ≠ w

/-- A Cistern transaction of one word over the sideband, as the host port, where the bank admits it, no other access
waits and the port has had none refused in this cycle: the access is granted by its way and its data comes back four cycles later; the
bytes are read, or written with every other byte of the Cistern unchanged (R9, R281, R283, R406). -/
def Says.SpiCistern : Prop :=
  ∀ (a : BitVec 24) (v : Word) (s : State), Safety.safeServed s → s.tb.running = true → s.sys.ready = true → s.later = [] →
    s.cis.waiting = [] → (∀ r ∈ s.cis.returns, r.port ≠ 25) → s.cis.turn[25] ≤ s.tb.clk → bit s.cis.init (bankOf (a.toNat / 8)) = false →
    fld (s.cis.banks[bankOf (a.toNat / 8)]).own 31 30 ≤ 1 → clean s (a.toNat / 8) → a.toNat % 4 = 0 →
    Memory.wf s.cis.mem = true →
    (Does (.spiCisternRead a ⟨[false], false⟩) s fun t =>
      (∃ i j : OutItem, t.out = s.out ++ [i, j, .readData .spi (Memory.get s.cis.mem (a.toNat + 3) ++
        Memory.get s.cis.mem (a.toNat + 2) ++ Memory.get s.cis.mem (a.toNat + 1) ++ Memory.get s.cis.mem a.toNat)]) ∧
      t.cis.mem = s.cis.mem ∧ s.tb.clk + 4 ≤ t.tb.clk ∧
      (a.toNat % 8 = 0 → t.sys = { s.sys with spiErr := false } ∧ t.cis.waiting = [] ∧ t.cis.returns = s.cis.returns ∧
        OnlyIn [.out, .sys, .cis, .tb] s t)) ∧
    (Does (.spiCisternWrite a [v] false) s fun t =>
      (∀ b : Nat, Memory.get t.cis.mem b =
        if a.toNat ≤ b ∧ b < a.toNat + 4 then (v >>> (8 * (b - a.toNat))).setWidth 8 else Memory.get s.cis.mem b) ∧
      Memory.wf t.cis.mem = true ∧ t.cis.waiting = [] ∧ t.cis.returns = s.cis.returns ∧
      t.sys = { s.sys with spiErr := false } ∧ OnlyIn [.out, .sys, .cis, .tb] s t)

/-- The SPI sideband.
It rests on the model's own reading in logs 34, 39 and 56. -/
def Obligations.Sideband : Prop :=
  SpiRegisters ∧ SpiCistern


/-! Timing engines: commands, requests, scheduling. -/

/-- The engine commands from the states of Table 3.3, with STATUS OK: `START` runs a stopped or halted engine and
keeps the ready set; `HALT` halts a running one and keeps its requests, the routine's with its context and a busy cycle for
its abandonment; `STOP` empties the ready set and counts its entries as discarded; `VERIFY` begins a scan; `CLEAR` after a good
scan stops the engine with its registers 0 (R79, R95, R103 to R105). A `HALT` in the cycle of the routine's own reports OK and
changes nothing (R106). From any other state a command is refused and changes nothing else, and pulses source 448 where TE_IE
enables it (R16, R79). -/
def Says.EngineCommandsAccepted : Prop :=
  ∀ (p : Port) (e : Fin 16) (s : State), hostOk p s = true →
    (s.te[e].state = .stopped ∨ s.te[e].state = .halted → Ends (.teStart p e) s fun x =>
      x.te = s.te.set e { s.te[e] with state := .run, cmd := { s.te[e].cmd with status := .ok } } ∧ OnlyIn [.te, .sys] s x) ∧
    (s.te[e].state = .run ∨ s.te[e].state = .halted → Ends (.teStop p e) s fun x =>
      x.te[e].state = .stopped ∧ x.te[e].ready = [] ∧ x.te[e].sb = [] ∧ x.te[e].dq = s.te[e].dq ∧
      x.te[e].disc.toNat = min 255 (s.te[e].disc.toNat + s.te[e].ready.length) ∧
      x.te[e].cmd = { s.te[e].cmd with status := .ok } ∧ OthersKept e s.te x.te ∧ OnlyIn [.te] s x) ∧
    (s.te[e].state = .run → Ends (.teHalt p e) s fun x =>
      x.te[e].state = .halted ∧ x.te[e].ready.map (·.seq) = s.te[e].ready.map (·.seq) ∧ x.te[e].dq = s.te[e].dq ∧
      (∀ r, s.te[e].runningEntry = some r → x.te[e].sb = [] ∧ x.te[e].g = s.te[e].snap.g ∧
        x.te[e].lc = s.te[e].snap.lc ∧ x.te[e].flags = s.te[e].snap.flags ∧
        x.te[e].abandon.toNat = min 255 (s.te[e].abandon.toNat + 1) ∧
        (∃ q ∈ x.te[e].ready, q.seq = r.seq ∧ q.running = false ∧ q.ctx = some s.te[e].snap ∧ q.slot = false) ∧
        (s.te[e].hk = false → inHousekeeping s = false → x.te[e].busy = s.te[e].busy + 1)) ∧
      x.te[e].cmd = { s.te[e].cmd with status := .ok } ∧ OthersKept e s.te x.te ∧ OnlyIn [.te] s x) ∧
    (s.te[e].state = .halted → s.te[e].runningEntry = none → s.te[e].ownHalt = some s.tb.clk → Ends (.teHalt p e) s fun x =>
      x.te = s.te.set e { s.te[e] with cmd := { s.te[e].cmd with status := .ok } } ∧ OnlyIn [.te] s x) ∧
    (s.te[e].state = .mchk → s.te[e].vstart = none → Ends (.teVerify p e) s fun x =>
      x.te = s.te.set e { s.te[e] with
        vstart := some s.tb.clk, vdone := false, vgood := false, vwrite := false
        cmd := { s.te[e].cmd with status := .ok } } ∧ OnlyIn [.te] s x) ∧
    (s.te[e].state = .mchk → s.te[e].vgood = true → Ends (.teClear p e) s fun x =>
      x.te = s.te.set e { s.te[e] with
        state := .stopped, g := Vector.replicate 16 0, lc := 0, flags := 0
        cmd := { s.te[e].cmd with status := .ok } } ∧ OnlyIn [.te, .pin, .pins, .rcd] s x) ∧
    (let No (c : Instr) : Prop := Ends c s fun x =>
        x.te = s.te.set e { s.te[e] with cmd := refused s.te[e].cmd } ∧ (bit s.te[e].ie 9 = true → Pulsed 448 s x) ∧
        OnlyIn [.te] s x
     (s.sys.pwr = .active → s.te[e].state = .run ∨ s.te[e].state = .mchk → No (.teStart p e)) ∧
     (s.te[e].state = .stopped ∨ s.te[e].state = .mchk → No (.teStop p e)) ∧
     (s.te[e].state = .stopped ∨ s.te[e].state = .mchk ∨ (s.te[e].state = .halted ∧ s.te[e].ownHalt ≠ some s.tb.clk) →
       No (.teHalt p e)) ∧
     (s.te[e].state ≠ .mchk ∨ s.te[e].vstart ≠ none → No (.teVerify p e)) ∧
     (s.te[e].state ≠ .mchk ∨ s.te[e].vgood = false → No (.teClear p e)))

/-- A scan of the store ends 2,048 cycles after it began: `VBUSY` falls, `VDONE` rises, and `VGOOD` rises if every word has
even parity in each lane and the window was not written (R103). The store as it stands then is judged (the model's, log 70). -/
def Says.VerifyEnds : Prop :=
  ∀ (e : Fin 16) (c : Nat) (s y : State), s.tb.running = true → s.te[e].vstart = some c → s.tb.clk ≤ c + 2048 →
    y = runClk (c + 2048) s →
    Ends (.verifyDone e) s fun x =>
      x.tb.clk = c + 2048 ∧ x.te[e].vstart = none ∧ x.te[e].vdone = true ∧
      (x.te[e].vgood = true ↔ y.te[e].vwrite = false ∧ ∀ w ∈ y.te[e].store, parityBits w.2.1 = w.2.2) ∧
      x.te[e].state = y.te[e].state ∧ x.te[e].mccnt = y.te[e].mccnt ∧ x.te[e].stat = y.te[e].stat ∧
      OthersKept e y.te x.te ∧ OnlyIn [.te] y x

/-- The commands of a timing engine and the end of a scan.
It rests on the model's own reading in logs 9, 64, 70 and 89. -/
def Obligations.EngineCommands : Prop :=
  EngineCommandsAccepted ∧ VerifyEnds


/-- A request of number `num` with argument `arg` comes to engine `e` by the command `c`: posted as such (numbers 0
to 55 and 63), or by a write of doorbell k, which is number 40 + k (Table 3.4). -/
def Says.posts (c : Instr) (e : Fin 16) (num : Fin 64) (arg : Word) (s : State) : Prop :=
  (c = .requestPost e num arg ∧ ¬ (56 ≤ num.val ∧ num.val ≤ 62)) ∨
  ∃ (p : Port) (k : Fin 8), c = .teDoorbellWrite p e k arg ∧ num.val = 40 + k.val ∧ hostOk p s = true

/-- A posted request: discarded and counted in STOPPED and MCHK (R80) or by a disabled dispatch entry (R82); merged into
an equal one that has not been dispatched, whose deadline becomes the earlier (R84); discarded and counted when 64
are held (R85); else it takes an entry with the deadline F + DL_F, the next sequence number and the cycle of the post (R82, R86,
R88).
It rests on the model's own reading in log 31. -/
def Obligations.RequestEntersReadySet : Prop :=
  ∀ (c : Instr) (e : Fin 16) (num : Fin 64) (arg : Word) (s : State), posts c e num arg s →
    let x := s.te[e]
    let d := x.disp[num]
    let dl : Word := (frame s).setWidth 32 + BitVec.ofNat 32 (fld d 23 16)
    let held (q : Entry) : Prop := q.num.toNat = num.val ∧ q.arg = arg ∧ q.running = false ∧ q.ctx = none
    (x.state = .stopped ∨ x.state = .mchk → Ends c s fun y =>
      y.te = s.te.set e { x with disc := y.te[e].disc, stat := x.stat ||| 0x100 } ∧
      y.te[e].disc.toNat = min 255 (x.disc.toNat + 1) ∧ OnlyIn [.te, .rcd] s y) ∧
    (x.state = .run ∨ x.state = .halted →
      (bit d 31 = false → Ends c s fun y =>
        y.te = s.te.set e { x with undisp := y.te[e].undisp, stat := x.stat ||| 0x20 } ∧
        y.te[e].undisp.toNat = min 255 (x.undisp.toNat + 1) ∧ OnlyIn [.te, .rcd] s y) ∧
      (bit d 31 = true → (∀ q ∈ x.ready, ¬ held q) → 64 ≤ x.ready.length → Ends c s fun y =>
        y.te = s.te.set e { x with qdrop := y.te[e].qdrop, stat := x.stat ||| 0x40 } ∧
        y.te[e].qdrop.toNat = min 255 (x.qdrop.toNat + 1) ∧ OnlyIn [.te, .rcd] s y) ∧
      (bit d 31 = true → (∀ q ∈ x.ready, ¬ held q) → x.ready.length < 64 → Ends c s fun y =>
        y.te[e].ready = x.ready ++ [{ num := BitVec.ofNat 6 num, arg := arg, deadline := dl, seq := x.nextSeq, posted := s.tb.clk,
                                      entry := BitVec.ofNat 11 (fld d 10 0) }] ∧
        y.te[e].nextSeq = x.nextSeq + 1 ∧ y.te[e].g = x.g ∧ y.te[e].pc = x.pc ∧ y.te[e].sb = x.sb ∧ y.te[e].stat = x.stat ∧
        OthersKept e s.te y.te ∧ OnlyIn [.te, .rcd] s y) ∧
      (bit d 31 = true → ∀ (a b : List Entry) (q : Entry), x.ready = a ++ q :: b → held q → (∀ r ∈ a, ¬ held r) →
        (∀ r ∈ a ++ b, r.seq ≠ q.seq) → Ends c s fun y =>
          y.te[e].ready = a ++ { q with deadline := if (dl - q.deadline).toInt < 0 then dl else q.deadline } :: b ∧
          y.te[e].merge.toNat = min 255 (x.merge.toNat + 1) ∧ y.te[e].nextSeq = x.nextSeq ∧ y.te[e].stat = x.stat ∧
          OthersKept e s.te y.te ∧ OnlyIn [.te, .rcd] s y))

/-- A post is tested for preemption in its cycle (R90): where its dispatch entry has PRE and its deadline is strictly
earlier than the running request's, it becomes the preempting one, with the second cycle after as its abandonment cycle; with four
context slots in use it is counted blocked; a post in housekeeping is kept for the tests of cycle 64 (R92). -/
def Says.PreemptionTested : Prop :=
  ∀ (c : Instr) (e : Fin 16) (num : Fin 64) (arg : Word) (r : Entry) (s : State), posts c e num arg s →
    let x := s.te[e]
    let d := x.disp[num]
    let dl : Word := (frame s).setWidth 32 + BitVec.ofNat 32 (fld d 23 16)
    x.state = .run → x.runningEntry = some r → bit d 31 = true → bit d 30 = true → (dl - r.deadline).toInt < 0 →
    x.ready.length < 64 → (∀ q ∈ x.ready, q.seq < x.nextSeq) →
    (∀ q ∈ x.ready, ¬ (q.num.toNat = num.val ∧ q.arg = arg ∧ q.running = false ∧ q.ctx = none)) →
    (x.hk = false → inHousekeeping s = false →
      (x.slots < 4 → x.preempt = none → Ends c s fun y =>
        y.te[e].preempt = some x.nextSeq ∧ y.te[e].preemptAt = s.tb.clk + 2 ∧ y.te[e].pblock = x.pblock ∧
        OthersKept e s.te y.te ∧ OnlyIn [.te, .rcd] s y) ∧
      (4 ≤ x.slots → Ends c s fun y =>
        y.te[e].preempt = x.preempt ∧ y.te[e].pblock.toNat = min 255 (x.pblock.toNat + 1) ∧
        OthersKept e s.te y.te ∧ OnlyIn [.te, .rcd] s y)) ∧
    (x.hk = true ∨ inHousekeeping s = true → Ends c s fun y =>
      y.te[e].tests = x.tests ++ [x.nextSeq] ∧ y.te[e].preempt = x.preempt ∧ y.te[e].pblock = x.pblock ∧
      OthersKept e s.te y.te ∧ OnlyIn [.te, .rcd] s y)

/-- The order of R87: deadline modulo 2^32, then number, then arrival; of a channel's requests of one cycle the lower status
bit comes first (R86). -/
def Says.earlier (a b : Entry) : Prop :=
  (a.deadline - b.deadline).toInt < 0 ∨ (a.deadline = b.deadline ∧ (a.num < b.num ∨ (a.num = b.num ∧
    (a.posted < b.posted ∨ (a.posted = b.posted ∧
      (a.statusBit < b.statusBit ∨ (a.statusBit = b.statusBit ∧ a.seq < b.seq)))))))

/-- The dispatch cycle, the first free one after the post of an eligible entry, loads the entry that comes first among those
posted before it: the entry address with a fresh snapshot, or its saved context; the entry runs and holds no context slot
(R87, R88, R99). `y` is the device in that cycle. -/
def Says.DispatchLoadsFirst : Prop :=
  ∀ (e : Fin 16) (a b : List Entry) (q : Entry) (c : Nat) (s y : State), s.tb.running = true → s.te[e].state = .run →
    s.te[e].hk = false → (∀ r ∈ s.te[e].ready, r.running = false) →
    (∃ r ∈ s.te[e].ready, r.waitf = none ∧ c = r.posted + 1) →
    (∀ r ∈ s.te[e].ready, r.waitf = none → c ≤ r.posted + 1) → s.tb.clk ≤ max s.te[e].free c →
    y = runClk (max s.te[e].free c) s → inHousekeeping y = false → y.te[e] = s.te[e] →
    s.te[e].ready = a ++ q :: b → q.waitf = none → q.posted < y.tb.clk →
    (∀ r ∈ a ++ b, r.seq ≠ q.seq ∧ (r.waitf = none → r.posted < y.tb.clk → earlier q r ∧ ¬ earlier r q)) →
    Ends (.dispatch e) s fun x =>
      x.tb.clk = max s.te[e].free c ∧ x.te[e].free = x.tb.clk + 1 ∧
      x.te[e].ready = a ++ { q with running := true, ctx := none, slot := false, waitf := none } :: b ∧
      (q.ctx = none → x.te[e].pc = q.entry ∧ x.te[e].g = s.te[e].g ∧ x.te[e].lc = s.te[e].lc ∧ x.te[e].flags = s.te[e].flags ∧
        x.te[e].snap = ⟨s.te[e].g, s.te[e].lc, s.te[e].flags, q.entry⟩) ∧
      (∀ k, q.ctx = some k → x.te[e].pc = k.pc ∧ x.te[e].g = k.g ∧ x.te[e].lc = k.lc ∧ x.te[e].flags = k.flags ∧
        x.te[e].snap = k) ∧
      x.te[e].sb = [] ∧ x.te[e].dq = s.te[e].dq ∧ x.te[e].opd = 0 ∧ x.te[e].busy = s.te[e].busy + 1 ∧
      OthersKept e y.te x.te ∧ OnlyIn [.te] y x

/-- The abandonment cycle of a preemption, the first free one from the second after the test: the running routine is suspended
in a context slot with its snapshot, its store buffer is discarded and its entry stays; the drain queue is kept; and the
preempting request is loaded, also where another one would come first (R90, R99). `y` is the device in that cycle. -/
def Says.PreemptionAbandons : Prop :=
  ∀ (e : Fin 16) (r v : Entry) (s y : State), s.tb.running = true → s.te[e].executes = true → s.te[e].runningEntry = some r →
    s.te[e].preempt = some v.seq → s.tb.clk ≤ max s.te[e].free s.te[e].preemptAt →
    y = runClk (max s.te[e].free s.te[e].preemptAt) s → y.te[e] = s.te[e] → inHousekeeping y = false → s.te[e].slots < 4 →
    v ∈ s.te[e].ready → v.running = false → v.waitf = none → (s.te[e].ready.map (·.seq)).Nodup →
    Ends (.preemption e) s fun x =>
      x.tb.clk = max s.te[e].free s.te[e].preemptAt ∧ x.te[e].sb = [] ∧ x.te[e].dq = s.te[e].dq ∧ x.te[e].preempt = none ∧
      x.te[e].abandon.toNat = min 255 (s.te[e].abandon.toNat + 1) ∧ x.te[e].busy = s.te[e].busy + 1 ∧
      x.te[e].ready = s.te[e].ready.map (fun q =>
        if q.seq = r.seq then { r with running := false, ctx := some s.te[e].snap, slot := true, waitf := none }
        else if q.seq = v.seq then { v with running := true, ctx := none, slot := false } else q) ∧
      (v.ctx = none → x.te[e].pc = v.entry ∧ x.te[e].g = s.te[e].snap.g ∧ x.te[e].lc = s.te[e].snap.lc ∧
        x.te[e].flags = s.te[e].snap.flags) ∧
      (∀ k, v.ctx = some k → x.te[e].pc = k.pc ∧ x.te[e].g = k.g ∧ x.te[e].lc = k.lc ∧ x.te[e].flags = k.flags) ∧
      OthersKept e y.te x.te ∧ OnlyIn [.te] y x

/-- Housekeeping ends in CCLK cycle 64 of the frame: no entry's WAITF of this frame or an earlier one waits any more, the
watchdog finds a routine that has crossed WDOG_F boundaries, the deferred preemption tests are made, for an abandonment in the next cycle,
and with FRAMEREQ request
63, with the frame number as its argument, is posted, where its dispatch entry is enabled and there is room (R81, R91, R92,
R95). `y` is the device in that cycle. -/
def Says.HousekeepingEnds : Prop :=
  ∀ (e : Fin 16) (s y : State), s.tb.running = true → s.te[e].hk = true → s.tb.frameDue = false → frameCycle s ≤ 64 →
    y = runClk (s.tb.clk + (64 - frameCycle s)) s → y.te[e] = s.te[e] →
    Ends (.housekeepingEnd e) s fun x =>
      frameCycle x = 64 ∧ x.te[e].hk = false ∧ x.te[e].tests = [] ∧
      (∀ q ∈ x.te[e].ready, ∀ w, q.waitf = some w → ((frame y).setWidth 32 - w).toInt < 0) ∧
      (x.te[e].runaway = true ↔ (∃ r, s.te[e].runningEntry = some r) ∧ s.te[e].wdog.toNat ≤ s.te[e].crossed) ∧
      (s.te[e].framereq = false → x.te[e].ready.map (·.seq) = s.te[e].ready.map (·.seq) ∧
        ∀ r v : Entry, s.te[e].runningEntry = some r → v ∈ s.te[e].ready → s.te[e].tests = [v.seq] → (s.te[e].ready.map (·.seq)).Nodup →
          v.running = false → v.waitf = none → bit s.te[e].disp[v.num.toNat] 30 = true → (v.deadline - r.deadline).toInt < 0 →
          s.te[e].slots < 4 → s.te[e].preempt = none → 0 < x.tb.clk →
          x.te[e].preempt = some v.seq ∧ x.te[e].preemptAt = x.tb.clk + 1) ∧
      (s.te[e].framereq = true → s.te[e].state = .run ∨ s.te[e].state = .halted → bit s.te[e].disp[63] 31 = true →
        s.te[e].ready.length < 64 →
        (∀ q ∈ s.te[e].ready, ¬ (q.num = 63 ∧ q.arg = (frame y).setWidth 32 ∧ q.running = false ∧ q.ctx = none)) →
        ∃ q ∈ x.te[e].ready, q.num = 63 ∧ q.arg = (frame y).setWidth 32 ∧ q.posted = x.tb.clk ∧ q.seq = s.te[e].nextSeq ∧
          q.deadline = (frame y).setWidth 32 + BitVec.ofNat 32 (fld s.te[e].disp[63] 23 16) ∧
          x.te[e].ready.map (·.seq) = s.te[e].ready.map (·.seq) ++ [q.seq]) ∧
      x.te[e].g = s.te[e].g ∧ x.te[e].pc = s.te[e].pc ∧ x.te[e].sb = s.te[e].sb ∧ x.te[e].dq = s.te[e].dq ∧
      OthersKept e y.te x.te ∧ OnlyIn [.te] y x

/-- Dispatch, preemption, housekeeping.
It rests on the model's own reading in logs 2, 66 and 78. -/
def Obligations.EngineScheduling : Prop :=
  DispatchLoadsFirst ∧ PreemptionTested ∧ PreemptionAbandons ∧ HousekeepingEnds


/-- The watchdog abandons and discards the routine that it found in cycle 64, in a cycle that counts as busy: registers from the snapshot, the
store buffer discarded, the drain queue kept, TE_STAT.RUNAWAY set and FDISC counted (R95, R99). -/
def Says.RunawayAbandons : Prop :=
  ∀ (e : Fin 16) (r : Entry) (s : State), s.te[e].state = .run → s.te[e].runaway = true → inHousekeeping s = false →
    s.te[e].runningEntry = some r →
    Ends (.runaway e) s fun x =>
      x.te[e].ready = s.te[e].ready.filter (fun q => decide (q.seq ≠ r.seq)) ∧
      x.te[e].g = s.te[e].snap.g ∧ x.te[e].lc = s.te[e].snap.lc ∧ x.te[e].flags = s.te[e].snap.flags ∧
      x.te[e].sb = [] ∧ x.te[e].dq = s.te[e].dq ∧ x.te[e].stat = s.te[e].stat ||| 16 ∧
      x.te[e].fdisc.toNat = min 255 (s.te[e].fdisc.toNat + 1) ∧ x.te[e].state = .run ∧
      x.te[e].runaway = false ∧ x.te[e].busy = s.te[e].busy + 1 ∧
      OthersKept e s.te x.te ∧ OnlyIn [.te] s x

/-- The machine check, in the engine's first free cycle: a fetched microword that fails parity in any lane is not executed; the engine is in MCHK with its ready
set and store buffer empty, TE_MC shows the word and its lanes, TE_STAT.MCHK and cause 0 of GUARD_FAULT are set, and
where SYS_SAFE_MASK enables that cause the command's end enters SAFE (R101, R250, R467). -/
def Says.MachineCheckTaken : Prop :=
  ∀ (e : Fin 16) (s y : State), s.tb.running = true → s.te[e].executes = true → s.tb.clk ≤ s.te[e].free →
    y = runClk s.te[e].free s → y.te[e] = s.te[e] → inHousekeeping y = false → y.te[e].preempting y.tb.clk = none →
    badLanes (s.te[e].fetch s.te[e].pc) ≠ 0 →
    Ends (.machineCheck e) s fun x =>
      x.te[e].state = .mchk ∧ x.te[e].ready = [] ∧ x.te[e].sb = [] ∧ x.te[e].dq = s.te[e].dq ∧
      x.te[e].mcAddr = s.te[e].pc ∧ x.te[e].mcLanes = badLanes (s.te[e].fetch s.te[e].pc) ∧
      x.te[e].mccnt.toNat = min 255 (s.te[e].mccnt.toNat + 1) ∧ bit x.te[e].stat 7 = true ∧
      bit x.pins.fault 0 = true ∧ (bit y.dom.mask 0 = true → (∀ k : Fin 16, y.te[k].state ≠ .mchk) → x.dom.safeNow = true) ∧
      OnlyIn [.dom, .ch, .te, .wt, .pin, .pins, .rcd, .calm] y x

/-- The watchdog and the machine check.
It rests on the model's own reading in logs 16, 31 and 59. -/
def Obligations.EngineFaults : Prop :=
  RunawayAbandons ∧ MachineCheckTaken


/-- The drain queue delivers its first entry, one a cycle, no sooner than the cycle after its commit: a store waits at the
engine's port of the Cistern where its bank admits the engine; a removal takes the well's oldest item, and is counted refused where
the engine is not the well's reader; a write puts the data in as an item; a write of CH_PRE takes effect (R97, R100, R299). `y` is
the device in that cycle. Without the engine's clock nothing is delivered (R414). -/
def Says.DrainQueueDelivers : Prop :=
  ∀ (e : Fin 16) (r : List SideEffect) (w : Nat) (v : BitVec 64) (k : Fin 64) (n : Fin 256) (a b : Word) (s y : State),
    (s.sys.pwr ≠ .active → Ends (.drainQueueDelivery e) s fun x => x = s) ∧
    (s.sys.pwr = .active → s.tb.running = true → s.tb.clk ≤ s.te[e].dqAt → y = runClk s.te[e].dqAt s → y.te[e].dq = s.te[e].dq →
    (s.te[e].dq = .st w v :: r → admits (y.cis.banks[bankOf w]).own e true = true →
      Ends (.drainQueueDelivery e) s fun x =>
        x.te = y.te.set e { y.te[e] with dq := r, dqAt := y.tb.clk + 1 } ∧
        x.cis = { y.cis with waiting := y.cis.waiting ++ [⟨e, w, .write v false, .none⟩] } ∧ OnlyIn [.te, .cis] y x) ∧
    (s.te[e].dq = .pop k true :: r → y.well[k].en = true → fld y.well[k].cfg 23 18 = 0x10 + e.val →
      Ends (.drainQueueDelivery e) s fun x =>
        x.te = y.te.set e { y.te[e] with dq := r, dqAt := y.tb.clk + 1 } ∧
        x.well[k].items = y.well[k].items.drop 1 ∧ x.well[k].stat = y.well[k].stat ∧
        OthersKept k y.well x.well ∧ OnlyIn [.te, .well] y x) ∧
    (s.te[e].dq = .pop k true :: r → y.well[k].en = false ∨ fld y.well[k].cfg 23 18 ≠ 0x10 + e.val →
      Ends (.drainQueueDelivery e) s fun x =>
        x.te = y.te.set e { y.te[e] with dq := r, dqAt := y.tb.clk + 1 } ∧
        x.well[k].items = y.well[k].items ∧ x.well[k].refused.toNat = min 255 (y.well[k].refused.toNat + 1) ∧
        OthersKept k y.well x.well ∧ OnlyIn [.te, .well] y x) ∧
    (s.te[e].dq = .push k v :: r → y.well[k].en = true → fld y.well[k].cfg 31 26 = 0x10 + e.val →
      y.well[k].gcnt = 0 → 0 < y.well[k].room y.tb.clk → 0 < y.well[k].count y.tb.clk →
      Ends (.drainQueueDelivery e) s fun x =>
        x.te = y.te.set e { y.te[e] with dq := r, dqAt := y.tb.clk + 1 } ∧
        x.well[k].items.map (fun i => (i.data, i.tag)) = y.well[k].items.map (fun i => (i.data, i.tag)) ++ [(v, 0)] ∧
        OthersKept k y.well x.well ∧ OnlyIn [.te, .well] y x) ∧
    (s.te[e].dq = .chan n 0x14 a b :: r → Ends (.drainQueueDelivery e) s fun x =>
      x.te = y.te.set e { y.te[e] with dq := r, dqAt := y.tb.clk + 1 } ∧
      x.ch = y.ch.set n { y.ch[n] with pre := a } ∧ OnlyIn [.te, .ch] y x))

/-- A value that has come to the engine's port arrives in Gd:Gd+1 of the running routine that asked for it, and sets FLAGS.P when
it is poisoned or was refused; one whose routine is gone is dropped (R130, R468). Without the engine's clock none arrives (R414). -/
def Says.PendingValueArrives : Prop :=
  ∀ (e : Fin 16) (v : PendVal) (a b : List PendVal) (d : BitVec 64) (bad : Bool) (s : State),
    s.te[e].pend = a ++ v :: b → (∀ q ∈ a, q.arrived = none) → (∀ q ∈ a ++ b, q.id ≠ v.id) → v.arrived = some (d, bad) →
    (s.sys.pwr ≠ .active → Ends (.pendingValueArrival e) s fun x => x = s) ∧
    (∀ (r : Fin 8) (o : Nat), s.sys.pwr = .active → v.dst = some r → v.owner = some o → s.te[e].runSeq = some o →
      Ends (.pendingValueArrival e) s fun x =>
        x.te[e].pend = a ++ b ∧ x.te[e].g[2 * r.val] = d.setWidth 32 ∧ x.te[e].g[2 * r.val + 1] = (d >>> 32).setWidth 32 ∧
        (∀ j : Fin 16, j.val / 2 ≠ r.val → x.te[e].g[j] = s.te[e].g[j]) ∧
        x.te[e].flags = (if bad then s.te[e].flags ||| 16 else s.te[e].flags) ∧ x.te[e].sb = s.te[e].sb ∧
        x.te[e].ready = s.te[e].ready ∧ OthersKept e s.te x.te ∧ OnlyIn [.te] s x) ∧
    (s.sys.pwr = .active → v.owner = none → Ends (.pendingValueArrival e) s fun x =>
      x.te = s.te.set e { s.te[e] with pend := a ++ b } ∧ OnlyIn [.te] s x)

/-- What leaves an engine by its drain queue, and what comes back.
It rests on the model's own reading in logs 2 and 70. -/
def Obligations.EngineDeliveries : Prop :=
  DrainQueueDelivers ∧ PendingValueArrives


/-- The microcode window: outside RUN a write of dword 0 to 2 is staged for its port, and a write of dword 3 stores the whole
word with its parity, disturbed once by an injection, and clears VGOOD; in RUN a write is discarded and
counted. A read of dword 3 latches the stored parity bits (R103, R138 to R141).
It rests on the model's own reading in log 55. -/
def Obligations.MicrocodeWindow : Prop :=
  ∀ (p : Port) (e : Fin 16) (w : Fin 2048) (j : Fin 3) (v : Word) (s : State), Safety.safeServed s → hostOk p s = true →
    s.te[e].store.Pairwise (fun x y => x.1 < y.1) →
    let st := (match p with | .pcie _ => s.te[e].stagePcie | .spi => s.te[e].stageSpi)
    (s.te[e].state ≠ .run → Does (.microcodeDwordStage p e w j v) s fun t =>
      (match p with | .pcie _ => t.te[e].stagePcie | .spi => t.te[e].stageSpi) = st.set j v ∧
      t.te[e].store = s.te[e].store ∧ t.te[e].vgood = false ∧ OthersKept e s.te t.te ∧ OnlyIn [.te] s t) ∧
    (s.te[e].state ≠ .run → Does (.microcodeWordStore p e w v) s fun t =>
      t.te[e].fetch (BitVec.ofNat 11 w) =
        (v ++ st[2] ++ st[1] ++ st[0], parityBits (v ++ st[2] ++ st[1] ++ st[0]) ^^^ s.te[e].inj) ∧
      (∀ u : BitVec 11, u.toNat ≠ w.val → t.te[e].fetch u = s.te[e].fetch u) ∧
      t.te[e].inj = 0 ∧ t.te[e].vgood = false ∧ OthersKept e s.te t.te ∧ OnlyIn [.te] s t) ∧
    (s.te[e].state = .run → ∀ c ∈ [Instr.microcodeDwordStage p e w j v, .microcodeWordStore p e w v], Does c s fun t =>
      t.te = s.te.set e { s.te[e] with wrej := t.te[e].wrej } ∧ t.te[e].wrej.toNat = min 255 (s.te[e].wrej.toNat + 1) ∧
      OnlyIn [.te] s t) ∧
    (Does (.microcodeParityRead p e w) s fun t =>
      t.out = s.out ++ [.readData p (((s.te[e].fetch (BitVec.ofNat 11 w)).1 >>> 96).setWidth 32)] ∧
      t.te = s.te.set e { s.te[e] with par := (s.te[e].fetch (BitVec.ofNat 11 w)).2 } ∧ OnlyIn [.te, .out] s t)

/-! Microcode. Each row of the microcode tables is the execution of the microword at the engine's PC, whole, when it
carries the row's code (the model's reading, log 16); the statements say what that operation does in it. -/

/-- The engine's next microword is `w`, with good parity, and executes in this cycle: the engine has not spent it yet, it is no
housekeeping cycle and none of a preemption (R22, R90, R92), no stall of Table 4.2 holds, its side effects fit (R135), and a
Cistern access is to a bank that admits the engine (R100, R129). -/
def Says.runsWord (e : Fin 16) (w : Microword) (y : Word) (s : State) : Prop :=
  s.te[e].executes = true ∧ s.te[e].free ≤ s.tb.clk ∧ inHousekeeping s = false ∧ s.te[e].preempting s.tb.clk = none ∧
  s.te[e].fetch s.te[e].pc = (w, parityBits w) ∧
  stallsOperands s.tb.clk w s.te[e] = false ∧ stallsCommit w s.te[e] = false ∧ s.te[e].sb.length + uEntries w ≤ 16 ∧
  (1 ≤ uMem w → uMem w ≤ 4 →
    fld y 31 24 = 0 ∧ admits (s.cis.banks[bankOf (fld y 23 3)]).own e (decide (uMem w ≠ 1)) = true)

/-- What COND says before the microword: the condition that SEL takes (R119). -/
def Says.selects (e : Fin 16) (w : Microword) (s : State) : Bool :=
  condition (uCond w) s.te[e].flags s.te[e].lc (decide (12 ≤ s.te[e].sb.length + uEntries w)) s.te[e].urgent

/-- Table 4.5, the column Y: `c` is the flag C, `t` the condition of SEL. -/
def Says.tableY (op : Nat) (a b : Word) (c t : Bool) : Word :=
  let one : Word := if c then 1 else 0
  let n := b.toNat % 32
  match op with
  | 1 => a | 2 => b | 3 => a + b | 4 => a + b + one | 5 => a - b | 6 => a - b - one | 7 => b - a
  | 8 => a &&& b | 9 => a ||| b | 10 => a ^^^ b | 11 => a &&& ~~~ b | 12 => ~~~ a | 13 => - a
  | 14 => a <<< n | 15 => a >>> n | 16 => a.sshiftRight n | 17 => a.rotateLeft n | 18 => a.rotateRight n
  | 19 => a - b | 20 => a &&& b
  | 21 => if a < b then a else b | 22 => if a < b then b else a
  | 23 => if a.slt b then a else b | 24 => if a.slt b then b else a
  | 25 => a * b
  | 26 => ((a.setWidth 64 * b.setWidth 64) >>> 32).setWidth 32
  | 27 => ((a.signExtend 64 * b.signExtend 64) >>> 32).setWidth 32
  | 28 => if a = 0 then 32 else BitVec.ofNat 32 (31 - a.toNat.log2)
  | 29 => BitVec.ofNat 32 ((List.range 32).countP fun i => a.getLsbD i)
  | 30 => (a >>> n) &&& BitVec.ofNat 32 (2 ^ (b.toNat / 32 % 32 + 1) - 1)
  | 31 => if t then a else b
  | _ => 0

/-- Table 4.5, the flag C: none where it is not updated. -/
def Says.tableC (op : Nat) (a b : Word) (c : Bool) : Option Bool :=
  let k := if c then 1 else 0
  let n := b.toNat % 32
  match op with
  | 3 => some (decide (2 ^ 32 ≤ a.toNat + b.toNat)) | 4 => some (decide (2 ^ 32 ≤ a.toNat + b.toNat + k))
  | 5 => some (decide (a.toNat < b.toNat)) | 6 => some (decide (a.toNat < b.toNat + k))
  | 7 => some (decide (b.toNat < a.toNat)) | 13 => some (decide (0 < a.toNat)) | 19 => some (decide (a.toNat < b.toNat))
  | 14 => if n = 0 then none else some (a.getLsbD (32 - n))
  | 15 => if n = 0 then none else some (a.getLsbD (n - 1))
  | 16 => if n = 0 then none else some (a.getLsbD (n - 1))
  | 17 => if n = 0 then none else some ((a.rotateLeft n).getLsbD 0)
  | 18 => if n = 0 then none else some ((a.rotateRight n).getLsbD 31)
  | _ => none

/-- Table 4.5, the flag V: the signed result lies outside the word. -/
def Says.tableV (op : Nat) (a b : Word) (c : Bool) : Option Bool :=
  let k : Int := if c then 1 else 0
  let out (i : Int) : Bool := decide (i < -2 ^ 31 ∨ 2 ^ 31 ≤ i)
  match op with
  | 3 => some (out (a.toInt + b.toInt)) | 4 => some (out (a.toInt + b.toInt + k))
  | 5 => some (out (a.toInt - b.toInt)) | 6 => some (out (a.toInt - b.toInt - k))
  | 7 => some (out (b.toInt - a.toInt)) | 13 => some (out (- a.toInt)) | 19 => some (out (a.toInt - b.toInt))
  | _ => none

/-- Y of the microword `w`, from its operands. -/
def Says.yOf (e : Fin 16) (w : Microword) (s : State) : Word :=
  tableY (uAlu w) (source s e w (uSa w)) (source s e w (uSb w)) (s.te[e].flags.getLsbD 2) (selects e w s)

/-- The ALU rows with their codes. -/
def Says.aluRows : List ((Fin 16 → Instr) × Nat) :=
  [(.aluNop, 0), (.aluPassa, 1), (.aluPassb, 2), (.aluAdd, 3), (.aluAdc, 4), (.aluSub, 5), (.aluSbc, 6), (.aluRsb, 7),
   (.aluAnd, 8), (.aluOr, 9), (.aluXor, 10), (.aluAndn, 11), (.aluNot, 12), (.aluNeg, 13), (.aluShl, 14), (.aluShr, 15),
   (.aluSar, 16), (.aluRol, 17), (.aluRor, 18), (.aluCmp, 19), (.aluTst, 20), (.aluMinu, 21), (.aluMaxu, 22),
   (.aluMins, 23), (.aluMaxs, 24), (.aluMul, 25), (.aluMulhu, 26), (.aluMulhs, 27), (.aluClz, 28), (.aluPopc, 29),
   (.aluExt, 30), (.aluSel, 31)]

/-- The ALU operations, in a microword without a memory operation (with one, Y is an address and neither
registers nor flags take it, R126): Y of Table 4.5 goes to DST unless the operation writes nothing, the flags
are those of the table, or Y where DST is FLAGS; P, I and G stay (R113, R118, R119). Nothing outside the engine moves.
It rests on the model's own reading in logs 16 and 70. -/
def Obligations.AluComputes : Prop :=
  ∀ (e : Fin 16) (w : Microword) (s : State), runsWord e w (yOf e w s) s → uMem w = 0 →
    ∀ r ∈ aluRows, uAlu w = r.2 → Ends (r.1 e) s fun x =>
      let a := source s e w (uSa w)
      let b := source s e w (uSb w)
      let y := yOf e w s
      let c := s.te[e].flags.getLsbD 2
      let writes := r.2 ≠ 0 ∧ r.2 ≠ 19 ∧ r.2 ≠ 20
      (∀ j : Fin 16, x.te[e].g[j] = if writes ∧ uDst w = j.val then y else s.te[e].g[j]) ∧
      (uSeq w ≠ 5 → x.te[e].lc = if writes ∧ uDst w = 16 then y.setWidth 16 else s.te[e].lc) ∧
      (writes ∧ uDst w = 17 → ∀ i, i < 8 → x.te[e].flags.getLsbD i = (decide (i ≠ 7) && y.getLsbD i)) ∧
      (¬ (writes ∧ uDst w = 17) →
        x.te[e].flags.getLsbD 0 = (if r.2 = 0 then s.te[e].flags.getLsbD 0 else decide (y = 0)) ∧
        x.te[e].flags.getLsbD 1 = (if r.2 = 0 then s.te[e].flags.getLsbD 1 else y.getLsbD 31) ∧
        x.te[e].flags.getLsbD 2 = (tableC r.2 a b c).getD c ∧
        x.te[e].flags.getLsbD 3 = (tableV r.2 a b c).getD (s.te[e].flags.getLsbD 3) ∧
        ∀ i, 4 ≤ i → i < 8 → x.te[e].flags.getLsbD i = s.te[e].flags.getLsbD i) ∧
      x.te[e].busy = s.te[e].busy + 1 ∧ OthersKept e s.te x.te ∧ OnlyIn [.te] s x

/-- A microword asked for before the engine's first free cycle executes in that one (R95, R113); `y` is the device in it. -/
def Says.MicrowordWaits : Prop :=
  ∀ (e : Fin 16) (s y : State), s.tb.running = true → s.te[e].executes = true → s.tb.clk ≤ s.te[e].free →
    y = runClk s.te[e].free s → y.te[e] = s.te[e] →
    y.tb.clk = s.te[e].free ∧ ∀ r ∈ aluRows, exec (r.1 e) s = exec (r.1 e) y

/-- A microword that does not execute: one that stalls spends the cycle and changes nothing else (Table 4.2); one whose side effects
do not fit, or whose Cistern access a bank does not admit, is a fault: the routine is abandoned and discarded, its registers
return to the snapshot, TE_STAT.SBFULL or AFAULT is set and FDISC counts (R94, R100, R129, R135). -/
def Says.MicrowordStops : Prop :=
  ∀ (e : Fin 16) (w : Microword) (q : Entry) (s : State), s.te[e].executes = true → s.te[e].runningEntry = some q →
    s.te[e].free ≤ s.tb.clk → inHousekeeping s = false → s.te[e].preempting s.tb.clk = none →
    s.te[e].fetch s.te[e].pc = (w, parityBits w) → ∀ r ∈ aluRows, uAlu w = r.2 →
    let fits := s.te[e].sb.length + uEntries w ≤ 16
    let admitted := 1 ≤ uMem w → uMem w ≤ 4 → fld (yOf e w s) 31 24 = 0 ∧
      admits (s.cis.banks[bankOf (fld (yOf e w s) 23 3)]).own e (decide (uMem w ≠ 1)) = true
    let faults (bits : BitVec 9) : Prop := Ends (r.1 e) s fun x =>
      x.te[e].ready = s.te[e].ready.filter (fun v => decide (v.seq ≠ q.seq)) ∧
      x.te[e].g = s.te[e].snap.g ∧ x.te[e].lc = s.te[e].snap.lc ∧ x.te[e].flags = s.te[e].snap.flags ∧
      x.te[e].sb = [] ∧ x.te[e].dq = s.te[e].dq ∧ x.te[e].stat = s.te[e].stat ||| bits ∧ x.te[e].state = .run ∧
      x.te[e].fdisc.toNat = min 255 (s.te[e].fdisc.toNat + 1) ∧ x.te[e].busy = s.te[e].busy + 1 ∧
      OthersKept e s.te x.te ∧ OnlyIn [.te] s x
    (stallsOperands s.tb.clk w s.te[e] = true ∨ (stallsCommit w s.te[e] = true ∧ fits ∧ admitted) → Ends (r.1 e) s fun x =>
      x.te = s.te.set e { s.te[e] with busy := s.te[e].busy + 1, free := s.tb.clk + 1, mulDst := none } ∧ OnlyIn [.te] s x) ∧
    (stallsOperands s.tb.clk w s.te[e] = false → ¬ fits → faults 4) ∧
    (stallsOperands s.tb.clk w s.te[e] = false → fits → ¬ admitted → faults 8)

/-- The conditions of Table 4.4 that FLAGS and LC decide; a reserved code is never true. -/
def Says.ConditionsOfTable : Prop :=
  ∀ (f lc : BitVec 16) (h u : Bool),
    let z := f.getLsbD 0; let n := f.getLsbD 1; let c := f.getLsbD 2; let v := f.getLsbD 3
    ([0, 1, 2, 3, 4, 5, 6, 7, 8, 9, 10, 11, 12, 13, 14, 15, 24, 25, 26, 27, 28, 29, 30, 31].map fun k => condition k f lc h u) =
      [true, z, !z, c, !c, n, !n, v, !v, !c && !z, c || z, n == v, n != v, !z && n == v, z || n != v, decide (lc = 0),
       f.getLsbD 4, f.getLsbD 5, f.getLsbD 6, h, u, false, false, false] ∧
    ∀ j, j < 8 → condition (16 + j) f lc h u = f.getLsbD (8 + j)

/-- The operand sources of Table 4.6 (R118, R120 to R122), with a running request `r`. -/
def Says.SourcesOfTable : Prop :=
  ∀ (e : Fin 16) (w : Microword) (r : Entry) (s : State), s.te[e].runningEntry = some r →
    let x := s.te[e]
    let n := 16 * e.val + if uChsel w = 15 ∧ uInd w = true then x.g[15].toNat % 16 else uChsel w
    (∀ j : Fin 16, source s e w j = x.g[j]) ∧
    ([16, 17, 18, 19, 20, 21, 22, 24, 25, 26, 27, 28, 31].map (source s e w)) =
      [x.lc.setWidth 32, x.flags.setWidth 32, (s.tb.now >>> 16).setWidth 32, s.tb.now.setWidth 32 &&& 0xFFFF_FFC0,
       (s.tb.now >>> 32).setWidth 32, r.arg, r.deadline, 0, 0xFFFF_FFFF, (w >>> 32).setWidth 32, x.opd.setWidth 32,
       (x.opd >>> 32).setWidth 32, 0] ∧
    fld (source s e w 29) 13 8 = r.num.toNat ∧ fld (source s e w 29) 3 0 = e.val ∧
    source s e w 30 = BitVec.ofNat 32 x.sb.length ∧
    (∀ c : Fin 256, c.val = n → source s e w 23 = s.ch[c].statusWord)

/-- The sources and conditions of a microword.
It rests on the model's own reading in log 16. -/
def Obligations.SourcesAndConditions : Prop :=
  ConditionsOfTable ∧ SourcesOfTable


/-- The next microword: NEXT, GOTO, BRT and BRF by COND on the flags and LC as this microword leaves them, DISP by Y, LOOP by LC (R113,
R116), in a microword whose YIELD does not suspend it. -/
def Says.SequencerBranches : Prop :=
  ∀ (e : Fin 16) (w : Microword) (s : State), runsWord e w (yOf e w s) s →
    (uYield w = true → s.te[e].urgent = true → 4 ≤ s.te[e].slots) →
    let x := s.te[e]
    let after := microAlu w (alu (uAlu w) (source s e w (uSa w)) (source s e w (uSb w)) (bit x.flags 2) (selects e w s)) x
    let taken := condition (uCond w) after.flags after.lc (decide (12 ≤ x.sb.length + uEntries w)) x.urgent
    let leads (c : Instr) (pc : BitVec 11) : Prop := Ends c s fun t =>
      t.te[e].pc = pc ∧ t.te[e].state = .run ∧ OthersKept e s.te t.te ∧ OnlyIn [.te, .cis, .well] s t
    (uSeq w = 0 → leads (.seqNext e) (x.pc + 1)) ∧
    (uSeq w = 1 → leads (.seqGoto e) (uTgt w)) ∧
    (uSeq w = 2 → leads (.seqBrt e) (if taken then uTgt w else x.pc + 1)) ∧
    (uSeq w = 3 → leads (.seqBrf e) (if taken then x.pc + 1 else uTgt w)) ∧
    (uSeq w = 4 → leads (.seqDisp e) (uTgt w + BitVec.ofNat 11 ((yOf e w s).toNat % 16))) ∧
    (uSeq w = 5 → leads (.seqLoop e) (if after.lc = 0 then x.pc + 1 else uTgt w) ∧
      Ends (.seqLoop e) s fun t => t.te[e].lc = if after.lc = 0 then 0 else after.lc - 1)

/-- The microwords that end a run: all commit; WAITF suspends the request in a context slot to the next frame with the later deadline
and the resume point pc + 1; EXIT and HALT retire it, and HALT halts the engine (R89, R91, R116). A retired doorbell request pulses
source 496 of every target whose masks name its engine and doorbell (R321). -/
def Says.SequencerEnds : Prop :=
  ∀ (e : Fin 16) (w : Microword) (r : Entry) (s : State), runsWord e w (yOf e w s) s →
    (uYield w = true → s.te[e].urgent = true → 4 ≤ s.te[e].slots) → s.te[e].runningEntry = some r →
    (∀ q ∈ s.te[e].ready, q.seq = r.seq → q = r) →
    let f : Word := (s.tb.now >>> 16).setWidth 32 + 1
    let acked (x : State) : Prop := ∀ h : Fin 32, 40 ≤ r.num.toNat → r.num.toNat < 48 →
      s.ic.tgt[h].dback.getLsbD (16 + e.val) = true → s.ic.tgt[h].dback.getLsbD (r.num.toNat - 40) = true →
      x.ic.tgt[h].priv[0] = s.ic.tgt[h].priv[0].input true ∧ (h, 0) ∈ x.ic.privFalls
    (uSeq w = 6 → Ends (.seqWaitf e) s fun x =>
      (∃ q ∈ x.te[e].ready, q.seq = r.seq ∧ q.num = r.num ∧ q.arg = r.arg ∧ q.running = false ∧ q.slot = true ∧ q.waitf = some f ∧
        q.deadline = (if (r.deadline - f).toInt < 0 then f else r.deadline) ∧
        q.ctx = some ⟨x.te[e].g, x.te[e].lc, x.te[e].flags, s.te[e].pc + 1⟩) ∧
      x.te[e].ready.length = s.te[e].ready.length ∧ x.te[e].sb = [] ∧ x.te[e].state = .run ∧ OthersKept e s.te x.te ∧
      OnlyIn [.te, .cis, .well] s x) ∧
    (uSeq w = 7 → Ends (.seqExit e) s fun x =>
      x.te[e].ready = s.te[e].ready.filter (fun q => decide (q.seq ≠ r.seq)) ∧ x.te[e].sb = [] ∧ x.te[e].state = .run ∧
      acked x ∧ OthersKept e s.te x.te ∧ OnlyIn [.te, .cis, .well] s x) ∧
    (uSeq w = 8 → Ends (.seqHalt e) s fun x =>
      x.te[e].ready = s.te[e].ready.filter (fun q => decide (q.seq ≠ r.seq)) ∧ x.te[e].sb = [] ∧ x.te[e].state = .halted ∧
      x.te[e].ownHalt = some s.tb.clk ∧ acked x ∧ OthersKept e s.te x.te ∧ OnlyIn [.te, .cis, .well] s x)

/-- The sequencer codes.
It rests on the model's own reading in logs 16, 31 and 70. -/
def Obligations.SequencerCodes : Prop :=
  MicrowordWaits ∧ MicrowordStops ∧ SequencerBranches ∧ SequencerEnds


/-- The channel reads with their codes and the values of Table 4.7. -/
def Says.chopReads : List ((Fin 16 → Instr) × Nat × (State → Fin 256 → BitVec 64)) :=
  [(.chopRdCfg, 0x01, fun s n => s.ch[n].cfg.setWidth 64), (.chopRdCnt, 0x02, fun s n => s.ch[n].cnt.setWidth 64),
   (.chopRdTop, 0x03, fun s n => s.ch[n].top.setWidth 64), (.chopRdCmp, 0x04, fun s n => s.ch[n].cmp.setWidth 64),
   (.chopRdPre, 0x05, fun s n => s.ch[n].pre.setWidth 64), (.chopRdCap, 0x06, fun s n => s.ch[n].cap.setWidth 64),
   (.chopRdWidth, 0x07, fun s n => s.ch[n].width.setWidth 64), (.chopRdPer, 0x08, fun s n => s.ch[n].per.setWidth 64),
   (.chopRdFilt, 0x09, fun s n => s.ch[n].filt.setWidth 64), (.chopRdIe, 0x0A, fun s n => s.ch[n].ie.setWidth 64),
   (.chopRdTgt, 0x0B, fun s n => s.ch[n].tgt), (.chopRdCapt, 0x0C, fun s n => s.ch[n].capt),
   (.chopRdCnt64, 0x0D, fun s n => s.ch[2 * (n.val / 2) + 1].cnt ++ s.ch[2 * (n.val / 2)].cnt),
   (.chopRdCap64, 0x0E, fun s n => s.ch[2 * (n.val / 2) + 1].cap ++ s.ch[2 * (n.val / 2)].cap),
   (.chopRdCmd, 0x0F, fun s n => s.ch[n].cmdWord.setWidth 64)]

/-- A channel read loads OPD with the committed state of the selected channel (R121 to R124), unless a tracker read of
the same microword replaces it. Only RD_CMD puts an entry into the store buffer. -/
def Says.ChannelReadsLoad : Prop :=
  ∀ (e : Fin 16) (w : Microword) (n : Fin 256) (s : State), runsWord e w (yOf e w s) s → uTk w = 0 ∨ 16 ≤ uTk w →
    n.val = 16 * e.val + (if uChsel w = 15 ∧ uInd w = true then s.te[e].g[15].toNat % 16 else uChsel w) →
    ∀ r ∈ chopReads, uChop w = r.2.1 → Ends (r.1 e) s fun x =>
      x.te[e].opd = r.2.2 s n ∧ OthersKept e s.te x.te ∧ OnlyIn [.te, .cis, .well] s x

/-- The channel operations that are side effects, with their codes (Table 4.7). -/
def Says.chopEffects : List ((Fin 16 → Instr) × Nat) :=
  [(.chopRdCmd, 0x0F), (.chopWrCfg, 0x10), (.chopWrCnt, 0x11), (.chopWrTop, 0x12), (.chopWrCmp, 0x13), (.chopWrPre, 0x14),
   (.chopWrWidth, 0x15), (.chopWrFilt, 0x16), (.chopWrIe, 0x17), (.chopWrTgt, 0x18), (.chopClrStatus, 0x19),
   (.chopWrWcode, 0x1A), (.chopStart, 0x20), (.chopStop, 0x21), (.chopArm, 0x22), (.chopDisarm, 0x23), (.chopReload, 0x24),
   (.chopTgtArm, 0x25)]

/-- The side effects that a microword adds are those of `l`, in order: they follow the store buffer's; a microword that commits moves all
to the drain queue, any other leaves the drain queue as it is (R96, R97, R135). -/
def Says.addsEffects (e : Fin 16) (w : Microword) (l : List SideEffect) (s x : State) : Prop :=
  x.te[e].dq = (if uCommits w then s.te[e].dq ++ s.te[e].sb ++ l else s.te[e].dq) ∧
  x.te[e].sb = (if uCommits w then [] else s.te[e].sb ++ l)

/-- A channel write or command enters the store buffer, first of its microword, with its operands; no channel moves before
the entry is delivered (R96, R123, R135). -/
def Says.ChannelWritesBuffered : Prop :=
  ∀ (e : Fin 16) (w : Microword) (n : Fin 256) (s : State), runsWord e w (yOf e w s) s →
    n.val = 16 * e.val + (if uChsel w = 15 ∧ uInd w = true then s.te[e].g[15].toNat % 16 else uChsel w) →
    ∀ r ∈ chopEffects, uChop w = r.2 → Ends (r.1 e) s fun x =>
      (∃ l, l.length + 1 = uEntries w ∧
        addsEffects e w (.chan n r.2 (source s e w (uSa w)) (source s e w (uSb w)) :: l) s x) ∧
      OthersKept e s.te x.te ∧ OnlyIn [.te, .cis, .well] s x

/-- The channel operations of a microword.
It rests on the model's own reading in log 16. -/
def Obligations.ChannelOperations : Prop :=
  ChannelReadsLoad ∧ ChannelWritesBuffered


/-- The data pair of a microword: 0 where DST is 16 or above (R126). -/
def Says.pairData (e : Fin 16) (w : Microword) (s : State) : BitVec 64 :=
  if h : uDst w < 16 then
    s.te[e].g[uDst w / 2 * 2 + 1]'(by omega) ++ s.te[e].g[uDst w / 2 * 2]'(by omega) else 0

/-- The data pair holds `v` after the microword, and every other general register is as it was; with DST of 16 or
above none moves. -/
def Says.pairTakes (e : Fin 16) (w : Microword) (v : BitVec 64) (s x : State) : Prop :=
  ∀ j : Fin 16, x.te[e].g[j] =
    if uDst w < 16 ∧ j.val / 2 = uDst w / 2 then (if j.val % 2 = 0 then v.setWidth 32 else (v >>> 32).setWidth 32) else s.te[e].g[j]

/-- The Cistern operations at the word Y[23:3]: LD waits at the engine's port with a place for its value, or takes the newest own value
at once; ST, ADD and SWAP enter the store buffer with the data pair, and ADD and SWAP commit (R97, R98, R126, R127). -/
def Says.CisternOperations : Prop :=
  ∀ (e : Fin 16) (w : Microword) (s : State), runsWord e w (yOf e w s) s →
    let word := (yOf e w s).toNat / 8 % 2 ^ 21
    let frameOk (x : State) : Prop := OthersKept e s.te x.te ∧ OnlyIn [.te, .cis, .well] s x
    (uMem w = 1 → s.te[e].ownValue word = none → Ends (.memLd e) s fun x =>
      x.cis = { s.cis with waiting := s.cis.waiting ++ [⟨e, word, .read, .engine s.te[e].nextId⟩] } ∧
      (∀ j : Fin 16, x.te[e].g[j] = s.te[e].g[j]) ∧
      (uSeq w < 6 → ∃ v ∈ x.te[e].pend, v.id = s.te[e].nextId ∧ v.dst = uPair w ∧ v.load = true ∧ v.arrived = none ∧
        v.owner = s.te[e].runSeq) ∧ frameOk x) ∧
    (uMem w = 1 → ∀ v, s.te[e].ownValue word = some (.inl v) → Ends (.memLd e) s fun x =>
      pairTakes e w v s x ∧ x.cis = s.cis ∧ frameOk x) ∧
    (uMem w = 2 → Ends (.memSt e) s fun x =>
      (∃ l q, l.length = (if 15 ≤ uChop w then 1 else 0) ∧ addsEffects e w (l ++ .st word (pairData e w s) :: q) s x) ∧
      x.cis = s.cis ∧ frameOk x) ∧
    (uMem w = 3 → Ends (.memAdd e) s fun x =>
      (∃ l q, l.length = (if 15 ≤ uChop w then 1 else 0) ∧
        x.te[e].dq = s.te[e].dq ++ s.te[e].sb ++ l ++ .add word (pairData e w s) s.te[e].nextId :: q) ∧ x.te[e].sb = [] ∧
      (uSeq w < 6 → ∃ v ∈ x.te[e].pend, v.id = s.te[e].nextId ∧ v.dst = uPair w ∧ v.kept = true) ∧ x.cis = s.cis ∧ frameOk x) ∧
    (uMem w = 4 → Ends (.memSwap e) s fun x =>
      (∃ l q, l.length = (if 15 ≤ uChop w then 1 else 0) ∧
        x.te[e].dq = s.te[e].dq ++ s.te[e].sb ++ l ++ .swap word (pairData e w s) s.te[e].nextId :: q) ∧ x.te[e].sb = [] ∧
      (uSeq w < 6 → ∃ v ∈ x.te[e].pend, v.id = s.te[e].nextId ∧ v.dst = uPair w ∧ v.kept = true) ∧ x.cis = s.cis ∧ frameOk x)

/-- The well operations on well Y[5:0], which the engine reads or writes: POP and PEEK take the oldest item that the engine sees, with the flag of
its tag, or the idle item with I; a POP's removal, and PUSH, enter the store buffer; CNT takes the count (R98, R126 to R128). -/
def Says.WellOperations : Prop :=
  ∀ (e : Fin 16) (w : Microword) (k : Fin 64) (s : State), runsWord e w (yOf e w s) s → (yOf e w s).toNat % 64 = k.val →
    let reader := s.well[k].en = true ∧ fld s.well[k].cfg 23 18 = 0x10 + e.val
    let flag (tag : BitVec 2) (x : State) : Prop := ∀ i : Fin 3, x.te[e].flags.getLsbD (4 + i.val) =
      (s.te[e].flags.getLsbD (4 + i.val) || decide (tag.toNat + i.val = 3))
    let frameOk (x : State) : Prop := OthersKept e s.te x.te ∧ OnlyIn [.te, .well] s x
    (uMem w = 5 → reader → ∀ i l, seenItems e k s = i :: l → Ends (.memPop e) s fun x =>
      pairTakes e w i.data s x ∧ flag i.readTag x ∧
      (∃ l q, l.length = (if 15 ≤ uChop w then 1 else 0) ∧
        addsEffects e w (l ++ .pop k (decide (i.readTag ≠ 2)) :: q) s x) ∧ frameOk x) ∧
    (uMem w = 5 → reader → seenItems e k s = [] → Ends (.memPop e) s fun x =>
      pairTakes e w s.well[k].idle s x ∧ flag 2 x ∧
      (∃ l q, l.length = (if 15 ≤ uChop w then 1 else 0) ∧ addsEffects e w (l ++ .pop k false :: q) s x) ∧
      x.well = s.well ∧ frameOk x) ∧
    (uMem w = 7 → reader → ∀ i l, seenItems e k s = i :: l → Ends (.memPeek e) s fun x =>
      pairTakes e w i.data s x ∧ flag i.readTag x ∧ (i.ok = true → x.well = s.well) ∧ frameOk x) ∧
    (uMem w = 6 → Ends (.memPush e) s fun x =>
      (∃ l q, l.length = (if 15 ≤ uChop w then 1 else 0) ∧ addsEffects e w (l ++ .push k (pairData e w s) :: q) s x) ∧
      x.well = s.well ∧ frameOk x) ∧
    (uMem w = 8 → Ends (.memCnt e) s fun x =>
      pairTakes e w (BitVec.ofNat 64 (s.well[k].count s.tb.clk)) s x ∧ x.well = s.well ∧ frameOk x)

/-- The Cistern and well operations of a microword.
It rests on the model's own reading in logs 16 and 31. -/
def Obligations.MemoryOperations : Prop :=
  CisternOperations ∧ WellOperations


/-- The FLG bits: COMMIT empties the store buffer into the drain queue and takes the snapshot with the resume point pc + 1; SIGNAL adds its entry,
last of its microword; SETF and CLRF set, clear or toggle the selected S flags; YIELD commits, and suspends the routine where an eligible entry
precedes it and a context slot is free (R97, R99, R131 to R135). -/
def Says.FlagOperations : Prop :=
  ∀ (e : Fin 16) (w : Microword) (r : Entry) (s : State), runsWord e w (yOf e w s) s → s.te[e].runningEntry = some r →
    let frameOk (x : State) : Prop := OthersKept e s.te x.te ∧ OnlyIn [.te, .cis, .well] s x
    let s0 := if uMem w = 0 ∧ uDst w = 17 ∧ uAlu w ≠ 0 ∧ uAlu w ≠ 19 ∧ uAlu w ≠ 20 then (yOf e w s).setWidth 16 else s.te[e].flags
    let soft (c : Instr) (f : Bool → Bool) : Prop := Ends c s fun x =>
      (∀ i, i < 8 → x.te[e].flags.getLsbD (8 + i) = if w.getLsbD i then f (s0.getLsbD (8 + i)) else s0.getLsbD (8 + i)) ∧ frameOk x
    (uCommit w = true → Ends (.flgCommit e) s fun x =>
      x.te[e].sb = [] ∧ (∃ l, l.length = uEntries w ∧ x.te[e].dq = s.te[e].dq ++ s.te[e].sb ++ l) ∧
      x.te[e].snap.g = x.te[e].g ∧ x.te[e].snap.flags = x.te[e].flags ∧ x.te[e].snap.pc = s.te[e].pc + 1 ∧ frameOk x) ∧
    (uSignal w = true → Ends (.flgSignal e) s fun x =>
      (∃ l a, l.length + 1 = uEntries w ∧ addsEffects e w
        (l ++ [.signal (Fin.ofNat 16 (w.toNat / 2 ^ 20 % 16)) (w.toNat / 2 ^ 16 % 8) a]) s x ∧
        a = ((source s e w (uSa w)) <<< 8) ||| BitVec.ofNat 32 e.val) ∧ frameOk x) ∧
    (uSetf w = true → uClrf w = false → soft (.flgSetf e) (fun _ => true)) ∧
    (uSetf w = false → uClrf w = true → soft (.flgClrf e) (fun _ => false)) ∧
    (uSetf w = true → uClrf w = true → soft (.flgSetf e) (fun b => !b) ∧ soft (.flgClrf e) (fun b => !b)) ∧
    (uYield w = true → Ends (.flgYield e) s fun x =>
      x.te[e].sb = [] ∧ (∃ l, x.te[e].dq = s.te[e].dq ++ s.te[e].sb ++ l) ∧
      (s.te[e].urgent = true → s.te[e].slots < 4 → ∃ q ∈ x.te[e].ready, q.seq = r.seq ∧ q.running = false ∧ q.slot = true ∧
        q.waitf = none ∧ q.deadline = r.deadline ∧ ∃ c, q.ctx = some c ∧ c.pc = s.te[e].pc + 1) ∧
      (s.te[e].urgent = false ∨ 4 ≤ s.te[e].slots → uSeq w = 0 → x.te[e].runningEntry = some r ∧ x.te[e].pc = s.te[e].pc + 1) ∧
      frameOk x)

/-- The tracker reads with their codes and the values of Table 4.10; `a` is operand A. -/
def Says.trackerReads : List ((Fin 16 → Instr) × Nat × (State → Trk → Word → BitVec 64)) :=
  [(.tkRdAngle, 1, fun s x _ => x.speed ++ x.published s.tb.now), (.tkRdTooth, 2, fun _ x _ => x.toothAt),
   (.tkRdState, 3, fun _ x _ => x.stateWord.setWidth 64), (.tkRdPhase, 4, fun _ x _ => x.prate ++ x.phase),
   (.tkA2t, 5, fun _ x a => x.a2t a),
   (.tkRdEvent, 6, fun _ x a => (x.entry (a.toNat % 1024)).descriptor ++ (x.entry (a.toNat % 1024)).angle)]

/-- The tracker operations: a read loads OPD at once; every other one enters the store buffer with its operands, and the tracker
does not move before the entry is delivered (R96, R121, R136). -/
def Says.TrackerOperations : Prop :=
  ∀ (e : Fin 16) (w : Microword) (s : State), runsWord e w (yOf e w s) s →
    let frameOk (x : State) : Prop := OthersKept e s.te x.te ∧ OnlyIn [.te, .cis, .well] s x
    (∀ r ∈ trackerReads, uTk w = r.2.1 → Ends (r.1 e) s fun x =>
      x.te[e].opd = r.2.2 s (s.wt[uTrk w]) (source s e w (uSa w)) ∧ frameOk x) ∧
    (∀ r ∈ [(Instr.tkEvPlace e, 0x10), (.tkEvCancel e, 0x11), (.tkEvMove e, 0x12), (.tkReseek e, 0x18)], uTk w = r.2 →
      Ends r.1 s fun x =>
        (∃ l q n, q.length = (if uSignal w then 1 else 0) ∧ addsEffects e w (l ++ .tracker (uTrk w) r.2
          (source s e w (uSa w)) (source s e w (uSb w)) (w.setWidth 24) n :: q) s x ∧
          n.val = 16 * e.val + (if w.toNat / 2 ^ 20 % 16 = 15 ∧ uInd w = true then s.te[e].g[15].toNat % 16
            else w.toNat / 2 ^ 20 % 16)) ∧ frameOk x)

/-- The flag operations and the tracker operations of a microword.
It rests on the model's own reading in log 16. -/
def Obligations.FlagAndTrackerOperations : Prop :=
  FlagOperations ∧ TrackerOperations


/-! Wheel inputs, trackers, angle events. -/

/-- A write of WIN_CFG: discarded while a tracker that is not STOPPED reads the input; else it is left to the next cycle, the last of
several in its cycle. There it is stored with `FRAC` held to 8 to 56 and a decay time of at least 1 frame; a change of mode or of bit 29
restarts the input with its signal low and the threshold of its new fields, and any other write leaves the threshold in force to the
next tooth (R147, Table 5.22). -/
def Says.WheelInputWritten : Prop :=
  ∀ (p : Port) (i : Fin 8) (v : Word) (s : State), Safety.safeServed s →
    (hostOk p s = true → (∃ t : Fin 4, s.wt[t].st ≠ .stopped ∧ bit s.wt[t].cfg 30 = false ∧ fld s.wt[t].cfg 26 24 = i.val) →
      Does (.winCfgWrite p i v) s fun t => OnlyIn [] s t) ∧
    (hostOk p s = true → (∀ t : Fin 4, s.wt[t].st = .stopped ∨ bit s.wt[t].cfg 30 = true ∨ fld s.wt[t].cfg 26 24 ≠ i.val) →
      Does (.winCfgWrite p i v) s fun t =>
        t.later = (s.later.filter fun a => decide (a ≠ .winCfg i v)) ++ [.winCfg i v] ∧ OnlyIn [.later] s t) ∧
    (s.tb.running = true → s.later = [.winCfg i v] →
      let t := advance 1 s
      fld t.win[i].cfg 27 22 = min 56 (max 8 (fld v 27 22)) ∧ fld t.win[i].cfg 7 0 = max 1 (fld v 7 0) ∧
      fld t.win[i].cfg 31 29 = fld v 31 29 ∧ fld t.win[i].cfg 21 8 = fld v 21 8 ∧ bit t.win[i].cfg 28 = false ∧
      (fld v 31 29 ≠ fld s.win[i].cfg 31 29 → t.win[i].level = false ∧ t.win[i].armed = false ∧
        t.win[i].peak = t.win[i].floor ∧
        (fld v 31 30 = 2 → t.win[i].thr = fld v 21 12) ∧
        (fld v 31 30 = 1 → t.win[i].thr =
          max (fld v 21 12) (fld t.win[i].cfg 27 22 * t.win[i].peak.toNat / 64)) ∧
        (∀ u : Fin 4, bit s.wt[u].cfg 30 = false → fld s.wt[u].cfg 26 24 = i.val → t.wt[u].level = false)) ∧
      (fld v 31 29 = fld s.win[i].cfg 31 29 → t.win[i] = { s.win[i] with cfg := t.win[i].cfg } ∧ t.wt = s.wt) ∧
      OthersKept i s.win t.win ∧ OnlyIn [.tb, .later, .win, .wt] s t)

/-- The frames of an ADAPTIVE input without a zero crossing pass: the peak hold loses a sixteenth of itself, not
below the hold that gives the least threshold, and the threshold follows (R145). `y` is the device at their end. -/
def Says.PeakDecays : Prop :=
  ∀ (i : Fin 8) (s y : State), s.tb.running = true → fld s.win[i].cfg 31 30 = 1 →
    y = runTo ((s.win[i].since + BitVec.ofNat 48 (fld s.win[i].cfg 7 0)).setWidth 64 <<< 16) s → y.win = s.win →
    Ends (.peakDecay i) s fun x =>
      (s.win[i].floor ≤ s.win[i].peak →
        x.win[i].peak.toNat = max s.win[i].floor.toNat (s.win[i].peak.toNat - s.win[i].peak.toNat / 16)) ∧
      (s.win[i].peak < s.win[i].floor → x.win[i].peak = s.win[i].peak) ∧
      x.win[i].thr = max (fld s.win[i].cfg 21 12) (fld s.win[i].cfg 27 22 * x.win[i].peak.toNat / 64) ∧
      x.win[i].since = s.win[i].since + BitVec.ofNat 48 (fld s.win[i].cfg 7 0) ∧ x.win[i].level = s.win[i].level ∧
      x.win[i].cfg = s.win[i].cfg ∧ OthersKept i s.win x.win ∧ OnlyIn [.win] y x

/-- The wheel inputs.
It rests on the model's own reading in logs 2, 82, 83 and 84. -/
def Obligations.WheelInputs : Prop :=
  WheelInputWritten ∧ PeakDecays


/-- What a wheel input takes of an edge that a tracker hears, where the tracker's filter passes nothing on: its signal, its arming and, in
ADAPTIVE, the peak hold with the threshold for the next tooth (R143, R144, R146). An input that is OFF, a tracker that follows and the
inputs in REPLAY hear nothing (R143, R168, R440). -/
def Says.InputTakesEdge : Prop :=
  ∀ (t : Fin 4) (stamp : Stamp) (peak : BitVec 10) (s : State),
    let i := s.wt[t].wsel
    let w := s.win[i]
    let hears := live s = true ∧ bit s.wt[t].cfg 30 = false ∧ fld w.cfg 31 30 ≠ 3
    (¬ hears → Ends (.leadingEdgeJudge t stamp peak) s (fun x => x = s) ∧ Ends (.trailingEdgeClassify t stamp) s fun x => x = s) ∧
    (hears → s.wt[t].level = true → Ends (.leadingEdgeJudge t stamp peak) s fun x =>
      x.win[i] = { w with
        level := true, wait := false, armed := false, leadAt := some stamp, peak := x.win[i].peak, since := x.win[i].since, thr := x.win[i].thr } ∧
      (fld w.cfg 31 30 = 1 → x.win[i].peak = peak ∧ x.win[i].since = frameOf stamp ∧
        x.win[i].thr = max (fld w.cfg 21 12) (fld w.cfg 27 22 * peak.toNat / 64)) ∧
      (fld w.cfg 31 30 ≠ 1 → x.win[i].peak = w.peak ∧ x.win[i].since = w.since) ∧
      (fld w.cfg 31 30 = 2 → x.win[i].thr = fld w.cfg 21 12) ∧ OthersKept i s.win x.win ∧ OnlyIn [.win] s x) ∧
    (hears → s.wt[t].level = false → Ends (.trailingEdgeClassify t stamp) s fun x =>
      x.win[i] = { w with level := false, armed := decide (fld w.cfg 31 30 = 1 ∨ fld w.cfg 31 30 = 2) } ∧
      OthersKept i s.win x.win ∧ OnlyIn [.win] s x)

/-- The device in the cycle in which a rising tooth signal with its transition at `stamp` is judged: the input takes it, the filter
qualifies it with the tracker's level and its record, and the cycle after that is the judgement's (R144, R146, R164, R236). -/
def Says.judgedIn (t : Fin 4) (stamp : Stamp) (peak : BitVec 10) (s : State) : State :=
  let x := s.wt[t]
  let q := runTo (qualifies stamp x.fn x.fpsc x.filtFrom) (modWin x.wsel (WheelIn.lead stamp peak) s)
  let r := modWt t (fun x => { x with level := true, filtFrom := none }) (recordWheel t true (stampOf stamp x.filtFrom) q)
  runClk (r.tb.clk + 1) r

/-- A real leading edge is judged, `y` being the device then, by its distance d from the previous edge and the expected interval
e, with HI and LO in 64ths (R151, R152): closer than 128 cycles, or below LO, it is noise and changes nothing but the noise counter
and flag; within the window it is the next tooth, which is published, with a large residual, in the cycle after (R149, R154, R164); the
first edge of a seek is its origin, and the second, at an interval in range, sets the predictor and is shown in the cycle after (Table 5.5, R164). The statement takes no commit due, a regular tooth that is not tooth 0, no SETREV waiting, and a
period in range. -/
def Says.LeadingEdgeJudged : Prop :=
  ∀ (t : Fin 4) (stamp : Stamp) (peak : BitVec 10) (s y : State), s.tb.running = true → live s = true →
    bit s.wt[t].cfg 30 = false → fld (s.win[s.wt[t].wsel]).cfg 31 30 ≠ 3 → s.wt[t].level = false →
    y = judgedIn t stamp peak s →
    (runTo (qualifies stamp s.wt[t].fn s.wt[t].fpsc s.wt[t].filtFrom)
      (modWin s.wt[t].wsel (WheelIn.lead stamp peak) s)).wt[t].st ≠ .stopped →
    (∀ v ∈ y.wt[t].table, v.st ≠ .issued) →
    let x := y.wt[t]
    let at_ := stampOf stamp s.wt[t].filtFrom
    let d (prev : Stamp) : Nat := (at_ - prev).toNat
    (∀ prev, x.st = .synced → x.prev = some prev → x.expect = .regular →
      (d prev < 8192 ∨ d prev * 2 ^ 22 < fld x.win 7 0 * x.e → Ends (.leadingEdgeJudge t stamp peak) s fun z =>
        z.wt = y.wt.set t { x with noise := z.wt[t].noise, stat := x.stat ||| 8 } ∧
        z.wt[t].noise.toNat = min 255 (x.noise.toNat + 1) ∧ OnlyIn [.wt, .rcd] y z) ∧
      (8192 ≤ d prev → fld x.win 7 0 * x.e ≤ d prev * 2 ^ 22 → d prev * 2 ^ 22 < fld x.win 15 8 * x.e →
        y.later = [] → y.dom.safeNow = false → y.tb.running = true →
        x.tooth.toNat + 1 < x.n → x.setrev = none → (x.learn (at_ - x.toothAt).toNat).1.range = none →
        Ends (.leadingEdgeJudge t stamp peak) s fun z =>
          z.tb.clk = y.tb.clk + 1 ∧
          z.wt[t].tooth = x.tooth + 1 ∧ z.wt[t].toothAt = at_ ∧ z.wt[t].prev = some at_ ∧ z.wt[t].st = .synced ∧
          z.wt[t].valid = true ∧ z.wt[t].missrun = 0 ∧ z.wt[t].teeth = x.teeth + 1 ∧ z.wt[t].baseT = at_ ∧
          z.wt[t].e = (x.learn (at_ - x.toothAt).toNat).1.e ∧ z.wt[t].baseSynth = false ∧ z.wt[t].noise = x.noise ∧
          ((x.learn (at_ - x.toothAt).toNat).2 = true → bit z.wt[t].stat 6 = true) ∧
          OthersKept t y.wt z.wt ∧ OnlyIn [.tb, .ch, .te, .wt, .rcd] y z)) ∧
    (x.st = .seeking → x.prev = none → Ends (.leadingEdgeJudge t stamp peak) s fun z =>
      z.wt[t].prev = some at_ ∧ z.wt[t].good = 0 ∧ z.wt[t].st = .seeking ∧ z.wt[t].valid = x.valid ∧
      OthersKept t y.wt z.wt ∧ OnlyIn [.wt] y z) ∧
    (∀ prev, x.st = .seeking → x.prev = some prev → x.good = 0 → 12800 ≤ d prev → d prev < 2 ^ 32 →
      y.later = [] → y.dom.safeNow = false → y.tb.running = true → Ends (.leadingEdgeJudge t stamp peak) s fun z =>
        z.tb.clk = y.tb.clk + 1 ∧ z.wt[t].prev = some at_ ∧ z.wt[t].good = 1 ∧ z.wt[t].st = .seeking ∧
        z.wt[t].e = d prev * 65536 ∧ z.wt[t].p = d prev * 65536 ∧ z.wt[t].a = 0 ∧ z.wt[t].lvl = fld x.pred 10 8 ∧
        z.wt[t].toothAt = at_ ∧ z.wt[t].teeth = x.teeth + 1 ∧ z.wt[t].valid = x.valid ∧
        OthersKept t y.wt z.wt ∧ OnlyIn [.tb, .wt] y z)

/-- A trailing edge of a WIDTH wheel, in its qualification cycle, classifies the tooth that waits for it: class 1 where its width is
`WSPLIT` 64ths of the predicted interval or more (R150, R236). Of another wheel it moves the level alone. `y` is the device then. -/
def Says.TrailingEdgeClassifies : Prop :=
  ∀ (t : Fin 4) (stamp : Stamp) (s y : State), s.tb.running = true → live s = true → bit s.wt[t].cfg 30 = false →
    fld (s.win[s.wt[t].wsel]).cfg 31 30 ≠ 3 → s.wt[t].level = true →
    y = runTo (qualifies stamp s.wt[t].fn s.wt[t].fpsc s.wt[t].filtFrom) (modWin s.wt[t].wsel WheelIn.trail s) →
    let v := y.wt[t]
    Ends (.trailingEdgeClassify t stamp) s fun x =>
      x.wt[t].level = false ∧ x.wt[t].tooth = v.tooth ∧ x.wt[t].prev = v.prev ∧ x.wt[t].st = v.st ∧
      (fld v.cfg 28 27 = 2 → ∀ l, v.waitCls = some l →
        x.wt[t].waitCls = none ∧ x.wt[t].clsKnown.getLsbD 0 = true ∧
        (x.wt[t].cls.getLsbD 0 = true ↔
          fld v.ref 13 8 * v.e ≤ (stampOf stamp s.wt[t].filtFrom - l).toNat * 2 ^ 22)) ∧
      (fld v.cfg 28 27 ≠ 2 → x.wt[t].cls = v.cls ∧ x.wt[t].waitCls = v.waitCls) ∧
      (∀ i : Fin 8, x.win[i] = { y.win[i] with noted := x.win[i].noted }) ∧
      OthersKept t y.wt x.wt ∧ OnlyIn [.win, .wt, .rcd] y x

/-- A window closes without an edge, in the cycle that the state `y` is in: in SYNCED a synthetic tooth one period after the
previous edge takes its place and the tracker is in HOLDOVER, below the limit of missed teeth; at the limit the tracker is LOST with
cause 2, and that tooth is shown as well; both are published in the cycle after; in SEEKING the seek begins anew (R153, R154, R155, R160,
R161, R164). The statement takes no commit due, a regular tooth that is not tooth 0, no SETREV waiting, and a period in range. -/
def Says.WindowCloses : Prop :=
  ∀ (t : Fin 4) (prev : Stamp) (s y : State), s.tb.running = true → bit s.wt[t].cfg 30 = false → s.wt[t].prev = some prev →
    s.wt[t].expect = .regular → y = runTo (s.wt[t].closeAt prev) s → y.wt[t] = s.wt[t] →
    (∀ v ∈ s.wt[t].table, v.st ≠ .issued) → y.later = [] → y.dom.safeNow = false → y.tb.running = true →
    let x := s.wt[t]
    let stamp := prev + BitVec.ofNat 64 (x.e / 65536)
    (x.st = .synced → x.tooth.toNat + 1 < x.n → x.setrev = none → x.missrun + 1 < fld x.limits 7 0 → x.coast.range = none →
      Ends (.windowClose t) s fun z =>
        z.tb.clk = y.tb.clk + 1 ∧
        z.wt[t].st = .holdover ∧ z.wt[t].tooth = x.tooth + 1 ∧ z.wt[t].prev = some stamp ∧
        z.wt[t].toothAt = stamp ∧ z.wt[t].baseT = stamp ∧ z.wt[t].missrun = x.missrun + 1 ∧
        z.wt[t].synth.toNat = min 255 (x.synth.toNat + 1) ∧ z.wt[t].baseSynth = true ∧ z.wt[t].valid = true ∧
        bit z.wt[t].stat 1 = true ∧ bit z.wt[t].stat 4 = true ∧
        OthersKept t y.wt z.wt ∧ OnlyIn [.tb, .ch, .te, .wt, .rcd] y z) ∧
    (x.st = .synced ∨ x.st = .holdover → x.tooth.toNat + 1 < x.n → x.setrev = none → fld x.limits 7 0 ≤ x.missrun + 1 →
      Ends (.windowClose t) s fun z =>
        z.wt[t].st = .lost ∧ z.wt[t].cause = 2 ∧ z.wt[t].valid = false ∧ bit z.wt[t].stat 2 = true ∧
        z.wt[t].tooth = x.tooth + 1 ∧ z.wt[t].toothAt = stamp ∧ z.wt[t].baseT = x.baseT ∧
        z.wt[t].losts.toNat = min 255 (x.losts.toNat + 1) ∧
        (y.dom.state = .run ∨ y.dom.state = .hold → bit z.pins.fault 3 = true)) ∧
    (x.st = .seeking → 0 < x.good → Ends (.windowClose t) s fun z =>
      z.wt[t].prev = none ∧ z.wt[t].good = 0 ∧ z.wt[t].st = .seeking ∧ OthersKept t y.wt z.wt ∧ OnlyIn [.wt] y z)

/-- The edges of a wheel at its tracker.
It rests on the model's own reading in logs 57, 58, 63, 85, 86, 87 and 88. -/
def Obligations.WheelEdges : Prop :=
  InputTakesEdge ∧ LeadingEdgeJudged ∧ TrailingEdgeClassifies ∧ WindowCloses


/-- A LOST tracker with AUTOSEEK returns to SEEKING, with the cause of the loss kept, at the first frame boundary after it was lost:
the one of this frame, or the next; nothing is expected and VALID is 0 (R160, R161). `y` is the device at that boundary. -/
def Says.AutoseekReturns : Prop :=
  ∀ (t : Fin 4) (s y : State), s.tb.running = true → s.wt[t].st = .lost → bit s.wt[t].cfg 29 = true →
    let here : Prop := (s.tb.frameDue = true ∨ frameCycle s = 0) ∧ s.wt[t].lostAt < s.tb.clk - frameCycle s
    (here ∧ y = s) ∨ (¬ here ∧ y = runClk (s.tb.clk + (1024 - frameCycle s)) s ∧ y.wt[t] = s.wt[t]) →
    Ends (.autoseekReturn t) s fun x =>
      x.wt[t].st = .seeking ∧ x.wt[t].cause = s.wt[t].cause ∧ x.wt[t].valid = false ∧ x.wt[t].prev = none ∧ x.wt[t].good = 0 ∧
      x.wt[t].missrun = 0 ∧ (¬ here → frameCycle x = 0) ∧ OthersKept t y.wt x.wt ∧ OnlyIn [.te, .wt, .job] y x

/-- The tracker commands in the states that allow them (Table 5.8): `START` and `RESEEK` begin a seek with cause 1, `STOP` stops,
`SETREV` keeps the revolution for the next tooth that takes it. VALID falls with all but `SETREV`; STATUS is OK and its source
is the host (R148, R160, R171, R172). `START` of a tracker that is not STOPPED, the others in STOPPED, and `SETREV` of a tracker
that follows, or with events waiting, are refused; `START` with an invalid configuration reports ARG_INVALID (R16, R148). -/
def Says.TrackerCommands : Prop :=
  ∀ (p : Port) (t : Fin 4) (s : State), hostOk p s = true →
    let ok (y : State) : Prop := y.wt[t].cmd = { s.wt[t].cmd with status := .ok } ∧ y.wt[t].srch = true
    let seeks (y : State) : Prop :=
      y.wt[t].st = .seeking ∧ y.wt[t].cause = 1 ∧ y.wt[t].valid = false ∧ y.wt[t].prev = none ∧ y.wt[t].good = 0
    (s.wt[t].st = .stopped → (if bit s.wt[t].cfg 30 then s.link.tvalid = true else trkConfigOk s.wt[t] s = true) →
      Ends (.wtStart p t) s fun y => seeks y ∧ ok y ∧ OthersKept t s.wt y.wt ∧ OnlyIn [.te, .wt, .job] s y) ∧
    (s.wt[t].st ≠ .stopped → Ends (.wtReseek p t) s fun y =>
      seeks y ∧ ok y ∧ OthersKept t s.wt y.wt ∧ OnlyIn [.ch, .te, .wt, .pin, .pins, .job, .rcd] s y) ∧
    (s.wt[t].st ≠ .stopped → Ends (.wtStop p t) s fun y =>
      y.wt[t].st = .stopped ∧ y.wt[t].valid = false ∧ ok y ∧ OthersKept t s.wt y.wt ∧
      OnlyIn [.ch, .te, .wt, .pin, .pins, .job, .rcd] s y) ∧
    (s.wt[t].st = .synced ∨ s.wt[t].st = .holdover → bit s.wt[t].cfg 30 = false →
      (∀ v ∈ s.wt[t].table, v.st ≠ .waiting ∧ v.st ≠ .issued) → Ends (.wtSetrev p t) s fun y =>
        y.wt = s.wt.set t { s.wt[t] with
          setrev := some s.wt[t].rev, srch := true, cmd := { s.wt[t].cmd with status := .ok } } ∧ OnlyIn [.wt] s y) ∧
    (let No (c : Instr) : Prop := Ends c s fun y =>
        y.wt = s.wt.set t { s.wt[t] with srch := true, cmd := refused s.wt[t].cmd } ∧
        (bit s.wt[t].ie 16 = true → Pulsed 448 s y) ∧ OnlyIn [.wt] s y
     (s.wt[t].st ≠ .stopped ∨ (bit s.wt[t].cfg 30 = true ∧ s.link.tvalid = false) →
       bit s.wt[t].cfg 30 = true ∨ trkConfigOk s.wt[t] s = true → No (.wtStart p t)) ∧
     (s.wt[t].st = .stopped → No (.wtReseek p t) ∧ No (.wtStop p t)) ∧
     ((s.wt[t].st ≠ .synced ∧ s.wt[t].st ≠ .holdover) ∨ bit s.wt[t].cfg 30 = true ∨
       (∃ v ∈ s.wt[t].table, v.st = .waiting ∨ v.st = .issued) → No (.wtSetrev p t)) ∧
     (bit s.wt[t].cfg 30 = false → trkConfigOk s.wt[t] s = false → Ends (.wtStart p t) s fun y =>
       y.wt = s.wt.set t { s.wt[t] with srch := true, cmd := { s.wt[t].cmd with status := .argInvalid } } ∧
       OnlyIn [.wt] s y))

/-- The tracker's commands and its return from LOST.
It rests on the model's own reading in logs 7 and 85. -/
def Obligations.TrackerStates : Prop :=
  AutoseekReturns ∧ TrackerCommands


/-- The issue step of a valid tracker: its first event in angle order that waits for a free channel, less than eight
teeth ahead, whose time lies LEAD or more and at most RUN_F frames ahead, is ISSUED with that time, and the compare of its
channel, an ANGLE_EVENT channel that runs, takes it as its target, armed (R180, R181); LEAD and RUN_F are those in force (R194). In a
cycle of a discard or a squash no event is issued (R190). The statement takes a target that is not yet in the compare's horizon. -/
def Says.EventIssued : Prop :=
  ∀ (t : Fin 4) (i : Nat) (s : State), s.wt[t].valid = true → s.wt[t].nextEvent = some i →
    (s.wt[t].evBar = some s.tb.clk → Ends (.eventIssue t) s fun y => y = s) ∧ (s.wt[t].evBar ≠ some s.tb.clk →
    let x := s.wt[t]
    let v := x.entry i
    let target := x.timeOf v.angle
    (v.angle - toA32 x.baseA).toInt * x.n < 2 ^ 27 → (fld x.evNow 31 24 * 64 : Nat) ≤ dist target s.tb.now →
    dist target s.tb.now ≤ (fld x.evNow 23 19 * 65536 : Nat) → later (coarse target - 256) s.tb.now = true →
    (v.action < 4 → s.ch[v.channel].run = true ∧ s.ch[v.channel].mode = 7) →
    Ends (.eventIssue t) s fun y =>
      (y.wt[t].entry i).st = .issued ∧ (y.wt[t].entry i).target = target ∧ (y.wt[t].entry i).angle = v.angle ∧
      (∀ j, j ≠ i → y.wt[t].entry j = x.entry j) ∧
      (v.action < 4 → y.ch[v.channel].tgt = target ∧ y.ch[v.channel].armed = true ∧
        y.ch[v.channel].event = some ⟨t, i, v.act, 0, v.wcode⟩ ∧ OthersKept v.channel s.ch y.ch) ∧
      (4 ≤ v.action → y.ch = s.ch) ∧ OthersKept t s.wt y.wt ∧ OnlyIn [.ch, .wt] s y)

/-- An ISSUED event commits LEAD cycles before its target, or at once where they are fewer: its width is fixed, in time as it is or by the
times of the angle it spans, of the prediction in force at the start of the cycle (R183, R184). The LEAD of an EV_CFG that waits decides
from the next cycle on (R194). `y` is the device then. -/
def Says.EventCommits : Prop :=
  ∀ (t : Fin 4) (i : Fin 1024) (s u y : State), s.tb.running = true → (s.wt[t].entry i).st = .issued →
    u = (if -(64 * fld s.wt[t].evNow 31 24 : Nat) ≤ dist s.tb.now (coarse (s.wt[t].entry i).target) ∨ s.wt[t].evNow = s.wt[t].evcfg then s
      else runClk (s.tb.clk + 1) s) →
    y = runTo (coarse (s.wt[t].entry i).target - BitVec.ofNat 64 (64 * fld u.wt[t].evNow 31 24)) u →
    y.wt[t].entry i = s.wt[t].entry i →
    let x := y.wt[t]
    let q := x.atStart y.tb.clk
    let v := x.entry i
    Ends (.eventCommit t i) s fun z =>
      (z.wt[t].entry i).st = .committed ∧ (z.wt[t].entry i).target = v.target ∧
      (z.wt[t].entry i).fixed = (if v.unit then q.timeOf (v.angle + v.width.setWidth 32) - q.timeOf v.angle
        else v.width.setWidth 64) ∧
      (∀ j, j ≠ i.val → z.wt[t].entry j = x.entry j) ∧ OthersKept t y.wt z.wt ∧ OnlyIn [.ch, .wt] y z

/-- Angle events: issue and commit.
It rests on the model's own reading in logs 2, 57, 80 and 81. -/
def Obligations.AngleEvents : Prop :=
  EventIssued ∧ EventCommits


/-- A COMMITTED event without a channel comes to its time, and its entry is left to be FREE from the next cycle (`NextCycleActs`):
`CONVERT` asks the converter that its channel field names, with the tracker, the tag and the angle; `NOTICE` posts the notice 0x10 to
the engine that placed it (R184, R193, R350). `y` is the device in the cycle of its target. -/
def Says.ActionsWithoutChannel : Prop :=
  ∀ (t : Fin 4) (i : Fin 1024) (s y : State), s.tb.running = true → (s.wt[t].entry i).st = .committed →
    y = runTo (s.wt[t].entry i).target s → y.wt[t] = s.wt[t] →
    let v := s.wt[t].entry i
    (v.action = 4 → ∀ c : Fin 2, c.val = v.chan.toNat % 2 → y.sc[c].st ≠ .stopped → y.sc[c].injections < 8 →
      Ends (.convertAction t i) s fun x =>
        Later.evFree t i ∈ x.later ∧ x.sc = y.sc.set c { y.sc[c] with queue := y.sc[c].queue ++
          [.inject ⟨3, BitVec.ofNat 4 (fld y.sc[c].trig 3 0), BitVec.ofNat 2 t, v.tag, v.angle, 0⟩] } ∧
        OnlyIn [.later, .sc] y x) ∧
    (v.action = 5 → Ends (.noticeAction t i) s fun x =>
      Later.evFree t i ∈ x.later ∧
      x.te = y.te.set v.engine (y.te[v.engine].post (inHousekeeping y) y.tb.clk ((frame y).setWidth 32)
        (BitVec.ofNat 6 (17 + 2 * t.val)) (pack [(0x10, 24), (v.tag.toNat, 10), (i.val, 0)])) ∧ OnlyIn [.later, .te] y x)

/-- The host's commands on the event table: `FLUSH` discards every uncommitted event, and counts them; `CANCEL` those with the tag of
EV_ARG, uncounted. COMMITTED events stay; STATUS is OK (R188, R191, Table 6.11). The statement takes no commit due in the cycle (R190). -/
def Says.EventTableCommands : Prop :=
  ∀ (p : Port) (t : Fin 4) (s : State), hostOk p s = true →
    (∀ v ∈ s.wt[t].table, v.st = .issued → (fld s.wt[t].evNow 31 24 * 64 : Nat) < dist (coarse v.target) s.tb.now) →
    (Ends (.evCmdFlush p t) s fun y =>
      (∀ i, (y.wt[t].entry i).st = if (s.wt[t].entry i).st = .committed then .committed else .free) ∧
      y.wt[t].evDisc.toNat =
        min 255 (s.wt[t].evDisc.toNat + (s.wt[t].table.filter fun v => decide (v.st = .waiting ∨ v.st = .issued)).length) ∧
      y.wt[t].evcmd = { s.wt[t].evcmd with status := .ok } ∧ OthersKept t s.wt y.wt ∧ OnlyIn [.ch, .te, .wt] s y) ∧
    (Ends (.evCmdCancel p t) s fun y =>
      (∀ i, (y.wt[t].entry i).st =
        if (s.wt[t].entry i).st ≠ .committed ∧ (s.wt[t].entry i).tag = s.wt[t].evarg then .free else (s.wt[t].entry i).st) ∧
      y.wt[t].evDisc = s.wt[t].evDisc ∧ y.wt[t].evcmd = { s.wt[t].evcmd with status := .ok } ∧
      OthersKept t s.wt y.wt ∧ OnlyIn [.ch, .te, .wt] s y)

/-- Actions without a channel, and the commands of the event table.
It rests on the model's own reading in logs 7 and 79. -/
def Obligations.EventActions : Prop :=
  ActionsWithoutChannel ∧ EventTableCommands


/-! Shift engines. -/

/-- What every shift-engine command may touch: engines, their pins and what a change of a pin touches. -/
def Says.sePins : List Part := [.se, .pin, .pins, .rcd, .calm, .dom]

/-- The commands of a shift engine in the states that allow them: `START` clears SR, SCNT, F, TRG and what the last run left, keeps the
queues and runs from SE_ENTRY with its clock restarted (R199, R204, R205); `HALT` keeps PC, SR, the queues and the shifts owed, and SCK is
idle from the next cycle on (R200); `RESUME`
continues, or with CLR or after a change of the program starts at SE_ENTRY (R201); `STOP` empties the queues, lanes and side pins go to 0, and of the pumps only the words
in flight to it are marked to be discarded (R202, R310); `TRIG` sets TRG, or counts a lost trigger (R225). STATUS is OK. From
another state a command is refused, and `START` with JOIN 3 is invalid (R16, R209). -/
def Says.ShiftCommandsAccepted : Prop :=
  ∀ (p : Port) (e : Fin 32) (clr : Bool) (s : State), hostOk p s = true →
    let x := s.se[e]
    let ok (y : State) : Prop := y.se[e].cmd = { x.cmd with status := .ok } ∧ OthersKept e s.se y.se
    (x.st = .stopped → fld x.cfg 18 17 ≠ 3 → Ends (.seStart p e) s fun y =>
      y.se[e].st = .run ∧ y.se[e].pc = x.entry ∧ y.se[e].sr = 0 ∧ y.se[e].scnt = 0 ∧ y.se[e].olv = 0 ∧ y.se[e].ilv = 0 ∧
      y.se[e].f = false ∧ y.se[e].trg = false ∧ y.se[e].rem = 0 ∧ y.se[e].idle = 0 ∧ y.se[e].progchg = false ∧
      y.se[e].lo = 0 ∧ y.se[e].side = 0 ∧ y.se[e].ckrun = true ∧ y.se[e].ph = 0 ∧ y.se[e].phAt = s.tb.clk ∧
      y.se[e].nextAt = s.tb.clk + 1 ∧
      y.se[e].divNow = (if singleEnded e s then max x.clkdiv.toNat 0x400 else x.clkdiv.toNat) ∧
      y.se[e].tx = x.tx ∧ y.se[e].rx = x.rx ∧ y.se[e].prog = x.prog ∧ ok y ∧ OnlyIn (.sys :: sePins) s y) ∧
    (x.st = .run → Ends (.seHalt p e) s fun y =>
      y.se[e].st = .halted ∧ y.se[e].pc = x.pc ∧ y.se[e].sr = x.sr ∧ y.se[e].scnt = x.scnt ∧ y.se[e].rem = x.rem ∧
      y.se[e].idle = x.idle ∧ y.se[e].ckrun = x.ckrun ∧ y.se[e].ph = x.phase s.tb.clk ∧ y.se[e].sckLevel s.tb.clk = x.sckLevel s.tb.clk ∧
      y.se[e].sckLevel (s.tb.clk + 1) = bit x.cfg 11 ∧ y.se[e].tx = x.tx ∧ y.se[e].rx = x.rx ∧ y.se[e].lo = x.lo ∧ y.se[e].side = x.side ∧ ok y ∧ OnlyIn [.se, .pin] s y) ∧
    (x.st = .halted → Ends (.seResume p e clr) s fun y =>
      y.se[e].st = .run ∧ y.se[e].progchg = false ∧ y.se[e].ckrun = x.ckrun ∧ y.se[e].nextAt = s.tb.clk + 1 ∧
      (clr = false ∧ x.progchg = false → y.se[e].pc = x.pc ∧ y.se[e].rem = x.rem ∧ y.se[e].idle = x.idle) ∧
      (clr = true ∨ x.progchg = true → y.se[e].pc = x.entry ∧ y.se[e].rem = 0 ∧ y.se[e].idle = 0) ∧
      (clr = false → y.se[e].sr = x.sr ∧ y.se[e].scnt = x.scnt ∧ y.se[e].tx = x.tx ∧ y.se[e].rx = x.rx ∧ y.se[e].f = x.f) ∧
      (clr = true → y.se[e].sr = 0 ∧ y.se[e].scnt = 0 ∧ y.se[e].tx = [] ∧ y.se[e].rx = [] ∧ y.se[e].f = false ∧
        y.se[e].trg = false) ∧ ok y ∧ (s.sys.pwr = .active → y.later = s.later) ∧ OnlyIn [.se, .later] s y) ∧
    (x.st ≠ .stopped → Ends (.seStop p e) s fun y =>
      y.se[e].st = .stopped ∧ y.se[e].tx = [] ∧ y.se[e].rx = [] ∧ y.se[e].lo = 0 ∧ y.se[e].side = 0 ∧
      y.se[e].sr = x.sr ∧ y.se[e].sckLevel s.tb.clk = bit x.cfg 11 ∧ ok y ∧
      (∀ u : Fin 8, y.pump[u] = { s.pump[u] with stale := y.pump[u].stale }) ∧ OnlyIn (.pump :: sePins) s y) ∧
    (Ends (.seTrig p e) s fun y =>
      y.se[e].trg = true ∧ (x.trg = true → y.se[e].trglost.toNat = min 255 (x.trglost.toNat + 1) ∧ bit y.se[e].stat 6 = true) ∧
      (x.trg = false → y.se[e].trglost = x.trglost ∧ y.se[e].stat = x.stat) ∧ ok y ∧ OnlyIn [.se] s y) ∧
    (let No (c : Instr) : Prop := Ends c s fun y =>
        y.se = s.se.set e { x with cmd := refused x.cmd } ∧ (bit x.ie 16 = true → Pulsed 448 s y) ∧ OnlyIn [.se] s y
     (s.sys.pwr = .active → x.st ≠ .stopped → fld x.cfg 18 17 ≠ 3 → No (.seStart p e)) ∧ (x.st ≠ .run → No (.seHalt p e)) ∧
     (x.st ≠ .halted → No (.seResume p e clr)) ∧ (x.st = .stopped → No (.seStop p e)) ∧
     (s.sys.pwr = .active → fld x.cfg 18 17 = 3 → Ends (.seStart p e) s fun y =>
       y.se = s.se.set e { x with cmd := { x.cmd with status := .argInvalid } } ∧ OnlyIn [.se] s y))

/-- Engine `e` belongs to sync group `g` (Table 7.10). -/
def Says.inGroup (s : State) (g : Fin 8) (e : Fin 32) : Prop := bit s.se[e].cfg 31 = true ∧ fld s.se[e].cfg 30 28 = g.val

/-- The group commands (R203, Table 7.9): `GSTART` starts every member when all are STOPPED with a legal JOIN; `GHALT`, `GRESUME` and `GSTOP` act on the members whose
state allows the command, when one does. Other engines keep everything; STATUS is OK. A group command that no member allows, or `GSTART` of
a group with a member that is not STOPPED, is refused. -/
def Says.GroupCommands : Prop :=
  ∀ (p : Port) (g : Fin 8) (clr : Bool) (s : State), hostOk p s = true → (∃ e, inGroup s g e) →
    let No (c : Instr) : Prop := Ends c s fun y => y.seg = refused s.seg ∧ y.se = s.se ∧ OnlyIn [.seg, .sys] s y
    let ok (y : State) : Prop := y.seg = { s.seg with status := .ok } ∧ (∀ e, ¬ inGroup s g e → y.se[e] = s.se[e])
    ((∀ e, inGroup s g e → s.se[e].st = .stopped ∧ fld s.se[e].cfg 18 17 ≠ 3) → Ends (.gstart p g) s fun y =>
      (∀ e, inGroup s g e → y.se[e].st = .run ∧ y.se[e].pc = s.se[e].entry ∧ y.se[e].sr = 0 ∧ y.se[e].ckrun = true) ∧ ok y ∧ OnlyIn (.seg :: .sys :: sePins) s y) ∧
    ((∃ e, inGroup s g e ∧ s.se[e].st = .run) → Ends (.ghalt p g) s fun y =>
      (∀ e, inGroup s g e → y.se[e].st = (if s.se[e].st = .run then .halted else s.se[e].st) ∧ y.se[e].pc = s.se[e].pc) ∧ ok y ∧ OnlyIn [.seg, .se, .pin] s y) ∧
    ((∃ e, inGroup s g e ∧ s.se[e].st = .halted) → Ends (.gresume p g clr) s fun y =>
      (∀ e, inGroup s g e → y.se[e].st = if s.se[e].st = .halted then .run else s.se[e].st) ∧ ok y ∧
      (s.sys.pwr = .active → y.later = s.later) ∧ OnlyIn [.seg, .se, .later] s y) ∧
    ((∃ e, inGroup s g e ∧ s.se[e].st ≠ .stopped) → Ends (.gstop p g) s fun y =>
      (∀ e, inGroup s g e → y.se[e].st = .stopped) ∧ ok y ∧ OnlyIn (.seg :: .pump :: sePins) s y) ∧
    ((∀ e, inGroup s g e → fld s.se[e].cfg 18 17 ≠ 3) → (∃ e, inGroup s g e ∧ s.se[e].st ≠ .stopped) → No (.gstart p g)) ∧
    ((∀ e, inGroup s g e → s.se[e].st ≠ .run) → No (.ghalt p g)) ∧
    ((∀ e, inGroup s g e → s.se[e].st ≠ .halted) → No (.gresume p g clr)) ∧
    ((∀ e, inGroup s g e → s.se[e].st = .stopped) → No (.gstop p g))

/-- The commands of a shift engine and of a group.
It rests on the model's own reading in logs 7, 9 and 36. -/
def Obligations.ShiftCommands : Prop :=
  ShiftCommandsAccepted ∧ GroupCommands


/-- Register writes and the queues (R198, R205, R210, R213, R217): CLKDIV is at least 0x100 and is not in force before a restart; SR is written
outside RUN and refused in RUN; SE_IE, SE_CMPV, SE_CMPM and SE_SIG, and the SE_WRAP of a running engine, are left to the next cycle
(`NextCycleActs`); a word enters a TX queue with room and is dropped by a full one
(an entry that the engine frees in the same cycle is room from the next one);
a read of SE_RXQ removes the oldest word, or returns 0 with a flag.
It rests on the model's own reading in log 8. -/
def Obligations.ShiftRegistersAndQueues : Prop :=
  ∀ (p : Port) (e : Fin 32) (v : Word) (s : State), Safety.safeServed s → hostOk p s = true →
    let x := s.se[e]
    let depth (own : Nat) : Nat := if fld x.cfg 18 17 = 0 then 4 else if fld x.cfg 18 17 = own then 8 else 0
    let leads (c : Instr) (y : Shift) : Prop := Does c s fun t => t.se = s.se.set e y ∧ OnlyIn [.se] s t
    leads (.seRegisterWrite p e 0x08 v) { x with clkdiv := BitVec.ofNat 24 (max 0x100 (v.toNat % 2 ^ 24)) } ∧
    (∀ off ∈ [0x20, 0x2C, 0x30, 0x3C], Does (.seRegisterWrite p e off v) s fun t =>
      t.later = (s.later.filter fun a => decide (a ≠ .seReg e off v)) ++ [.seReg e off v] ∧ OnlyIn [.later] s t) ∧
    (x.st ≠ .run → leads (.seRegisterWrite p e 0x24 v) { x with sr := v }) ∧
    (x.st = .run → Does (.seRegisterWrite p e 0x24 v) s fun t =>
      t.se = s.se.set e { x with cmd := ⟨.stateRefused, t.se[e].cmd.refusals⟩ } ∧
      t.se[e].cmd.refusals.toNat = min 255 (x.cmd.refusals.toNat + 1) ∧ OnlyIn [.se] s t) ∧
    (x.st = .run → Does (.seWrapWrite p e v) s fun t =>
      t.later = (s.later.filter fun a => decide (a ≠ .seReg e 0x0C v)) ++ [.seReg e 0x0C v] ∧ OnlyIn [.later] s t) ∧
    (x.st ≠ .run → leads (.seWrapWrite p e v) { x with
      wrapLo := BitVec.ofNat 5 (fld v 4 0), wrapHi := BitVec.ofNat 5 (fld v 12 8), heldWrap := none }) ∧
    (x.tx.length + x.txFreedIn s.tb.clk < depth 1 → leads (.seTxqWrite p e v) { x with
      tx := x.tx ++ [v], txAt := s.tb.clk, txFresh := x.txFreshIn s.tb.clk + 1, txFreed := x.txFreedIn s.tb.clk }) ∧
    (depth 1 ≤ x.tx.length + x.txFreedIn s.tb.clk → leads (.seTxqWrite p e v) { x with
      stat := x.stat ||| 16, htxdrop := BitVec.ofNat 8 (min 255 (x.htxdrop.toNat + 1)) }) ∧
    (∀ w r, x.rx = w :: r → 0 < depth 2 → Does (.seRxqRead p e) s fun t =>
      t.out = s.out ++ [.readData p w] ∧ t.se = s.se.set e { x with rx := r } ∧ OnlyIn [.se, .out] s t) ∧
    (x.rx = [] ∨ depth 2 = 0 → Does (.seRxqRead p e) s fun t =>
      t.out = s.out ++ [.readData p 0] ∧ t.se = s.se.set e { x with stat := x.stat ||| 32 } ∧ OnlyIn [.se, .out] s t)

/-- The address that follows the present one (R216, R217). -/
def Says.followingPc (x : Shift) : BitVec 5 :=
  if x.pc = x.wrapHi then (match x.heldWrap with | some (lo, _) => lo | none => x.wrapLo) else x.pc + 1

/-- The instruction completes in cycle `clk` with its idle ticks owed; the next one does not issue before the cycle after (R215). -/
def Says.completes (clk : Nat) (x y : Shift) (d : Nat) (pc : BitVec 5) : Prop :=
  y.pc = pc ∧ y.nextAt = clk + 1 ∧ y.rem = 0 ∧ y.idle = d ∧ y.wait = (if d = 0 then .none else .idle) ∧ y.st = x.st

/-- One shift of a shift instruction at its tick (R204, R207, R208): SR shifts left by W with the input lanes below or zeros; output lanes take the
leading slice; SCNT, OLV and ILV count; an autofill finds its word first; the last shift completes the instruction. The
engine's clock runs, no stalled autodrain precedes it and none follows. `y` is the device in the cycle of the tick. -/
def Says.ShiftTakesPlace : Prop :=
  ∀ (e : Fin 32) (li : BitVec 8) (out inp : Bool) (s y : State), s.sys.pwr = .active → s.tb.running = true → s.se[e].st = .run →
    s.se[e].ckrun = true → s.tb.clk ≤ s.se[e].nextTick → y = runClk s.se[e].nextTick s → y.se[e] = s.se[e] →
    s.se[e].wait = .shift out inp → s.se[e].drainOwed = none → (inp = true → bit s.se[e].cfg 14 = false) →
    let x := s.se[e]
    let w := fld x.cfg 2 0 + 1
    let fills := out && bit x.cfg 16 && decide (x.olv < w)
    (fills = true → x.txSeen y.tb.clk ≠ []) →
    let sr := if fills then x.tx.headD 0 else x.sr
    let olv := if fills then 32 else x.olv
    Ends (.shift e li) s fun t =>
      t.se[e].sr = ((sr <<< w) ||| if inp then (laneIn e li y).setWidth 32 &&& BitVec.ofNat 32 (2 ^ w - 1) else 0) ∧
      t.se[e].scnt = x.scnt + 1 ∧ t.se[e].olv = (if out then olv - w else x.olv) ∧
      t.se[e].ilv = (if inp then min 32 (x.ilv + w) else x.ilv) ∧
      (∀ j : Fin 8, bit t.se[e].lo j = if out = true ∧ j.val < w then bit sr (32 - w + j.val) else bit x.lo j) ∧
      t.se[e].tx = (if fills then x.tx.drop 1 else x.tx) ∧ t.se[e].rx = x.rx ∧
      (1 < x.rem → t.se[e].rem = x.rem - 1 ∧ t.se[e].pc = x.pc ∧ t.se[e].wait = .shift out inp) ∧
      (x.rem = 1 → completes y.tb.clk x t.se[e] x.idle (followingPc x)) ∧
      OthersKept e y.se t.se ∧ OnlyIn sePins y t

/-- The other ticks of a running clock: an idle tick, which falls after the cycle in which the instruction completed, is one less owed,
and the next instruction issues after the last (R215); a tick in that cycle, or in any other wait, moves the clock alone (R204, R206). `y` is
the device in the cycle of the tick, which takes the phase past the divider. -/
def Says.TicksPass : Prop :=
  ∀ (e : Fin 32) (s y : State), s.sys.pwr = .active → s.tb.running = true → s.se[e].st = .run → s.se[e].ckrun = true →
    s.tb.clk ≤ s.se[e].nextTick → y = runClk s.se[e].nextTick s → y.se[e] = s.se[e] →
    let ticked (t : State) : Prop := t.tb.clk = s.se[e].nextTick ∧ t.se[e].phAt = s.se[e].nextTick ∧
      t.se[e].ph = s.se[e].ph + 256 * (s.se[e].nextTick - s.se[e].phAt) - s.se[e].divNow ∧
      OthersKept e y.se t.se ∧ OnlyIn sePins y t
    (s.se[e].wait = .idle → s.se[e].nextAt ≤ s.se[e].nextTick → Ends (.idleTick e) s fun t =>
      t.se[e].idle = s.se[e].idle - 1 ∧ t.se[e].wait = (if s.se[e].idle ≤ 1 then .none else .idle) ∧ t.se[e].pc = s.se[e].pc ∧
      t.se[e].sr = s.se[e].sr ∧ t.se[e].scnt = s.se[e].scnt ∧ ticked t) ∧
    ((s.se[e].wait = .idle ∧ s.se[e].nextTick < s.se[e].nextAt) ∨ s.se[e].wait = .none ∨ s.se[e].wait = .fill ∨ s.se[e].wait = .drain →
      Ends (.shiftClockTick e) s fun t =>
      t.se[e].wait = s.se[e].wait ∧ t.se[e].pc = s.se[e].pc ∧ t.se[e].sr = s.se[e].sr ∧ t.se[e].scnt = s.se[e].scnt ∧
      t.se[e].rem = s.se[e].rem ∧ t.se[e].idle = s.se[e].idle ∧ ticked t)

/-- Shifts and ticks.
It rests on the model's own reading in logs 2 and 58. -/
def Obligations.Shifting : Prop :=
  ShiftTakesPlace ∧ TicksPass


/-- The instruction at the engine's PC is `op`, `a`, `b`, `d`, in RUN, with nothing to wait for (R214). -/
def Says.holdsInstr (x : Shift) (op a b d : Nat) : Prop :=
  x.st = .run ∧ x.wait = .none ∧ x.prog[x.pc.toNat] = BitVec.ofNat 16 (4096 * op + 256 * a + 16 * b + d) ∧ a < 16 ∧ b < 16 ∧ d < 16

/-- It issues in cycle `clk` (R215). -/
def Says.atInstr (clk : Nat) (x : Shift) (op a b d : Nat) : Prop := holdsInstr x op a b d ∧ x.nextAt ≤ clk

/-- An instruction asked for before the cycle in which it can issue issues in that one (R215); so a reserved code (R218). `y` is the
device in it. -/
def Says.ShiftInstructionsWait : Prop :=
  ∀ (e : Fin 32) (li : BitVec 8) (si : BitVec 4) (op a b d : Nat) (s y : State), s.sys.pwr = .active → y.sys.pwr = .active → s.tb.running = true →
    holdsInstr s.se[e] op a b d → op < 16 → s.tb.clk ≤ s.se[e].nextAt → y = runClk s.se[e].nextAt s → y.se[e] = s.se[e] →
    y.tb.clk = s.se[e].nextAt ∧
    (legal op a b = true → ∀ r ∈ [(Instr.seNop e, 0), (.seSho e, 1), (.seShi e, 2), (.seShx e, 3), (.sePut e, 4), (.seAwait e li si, 6),
      (.seFill e, 7), (.seDrain e, 8), (.seCmp e, 9), (.seBrc e li, 10), (.seSig e, 11), (.seMov e li si, 12)],
      op = r.2 → exec r.1 s = exec r.1 y) ∧
    (op = 5 → b = 0 → ∀ r ∈ [(Instr.seClkHold e, 0), (.seClkRun e, 1), (.seClkRestart e, 2), (.seClkRestartBarrier e, 3)],
      a = r.2 → exec r.1 s = exec r.1 y) ∧
    (legal op a b = false → exec (.illop e) s = exec (.illop e) y)

/-- Shift instructions issue with their shifts and idle ticks owed; they shift at the ticks that follow (R215, Table 7.4).
SHO makes outputs of the engine's bidirectional lanes, and SHI inputs (R232). -/
def Says.ShiftInstructionsIssue : Prop :=
  ∀ (e : Fin 32) (a d : Nat) (s : State), s.sys.pwr = .active →
    ∀ r ∈ [(Instr.seSho e, 1, true, false), (.seShi e, 2, false, true), (.seShx e, 3, true, true)],
      atInstr s.tb.clk s.se[e] r.2.1 a 0 d → Ends r.1 s fun t =>
        t.se = s.se.set e { s.se[e] with
          rem := a + 1, idle := d, wait := .shift r.2.2.1 r.2.2.2
          drives := match r.2.1 with | 1 => true | 2 => false | _ => s.se[e].drives } ∧
        OnlyIn [.se, .pin, .pins, .rcd] s t

/-- The instructions that complete in their issue cycle (Table 7.4): NOP, CMP, MOV, SIG, BRC, the clock controls HOLD, RUN and RESTART, and PUT (R219, R220,
R222 to R224). Other engines keep everything. -/
def Says.ShiftInstructionsComplete : Prop :=
  ∀ (e : Fin 32) (a b d : Nat) (li : BitVec 8) (si : BitVec 4) (s : State), s.sys.pwr = .active →
    let x := s.se[e]
    let pass (c : Instr) (f : Shift → Prop) (l : List Part) : Prop := Ends c s fun t =>
      completes s.tb.clk x t.se[e] d (followingPc x) ∧ f t.se[e] ∧ OthersKept e s.se t.se ∧ OnlyIn l s t
    let hit (k : Nat) : Bool := if k = 1 then decide (x.sr &&& x.cmpm = x.cmpv &&& x.cmpm) else decide (x.scnt = x.cmpv.setWidth 16)
    (atInstr s.tb.clk x 0 0 0 d → pass (.seNop e) (fun y => y.sr = x.sr ∧ y.f = x.f) [.se]) ∧
    (atInstr s.tb.clk x 9 a 0 d → a ≤ 1 → pass (.seCmp e) (fun y => y.f = hit a ∧ y.sr = x.sr) [.se]) ∧
    (atInstr s.tb.clk x 12 0 b d → b ≤ 5 → pass (.seMov e li si) (fun y =>
      y.sr = (match b with | 0 => 0 | 1 => 0xFFFF_FFFF | 2 => x.sr | 3 => x.scnt.setWidth 32 | 4 => x.cmpv | _ => x.sr.reverse) ∧
      y.olv = x.olv ∧ y.ilv = x.ilv) sePins) ∧
    (atInstr s.tb.clk x 12 1 2 d → pass (.seMov e li si) (fun y => y.scnt = x.sr.setWidth 16 ∧ y.sr = x.sr) sePins) ∧
    (atInstr s.tb.clk x 12 2 2 d → pass (.seMov e li si) (fun y => y.cmpv = x.sr ∧ y.sr = x.sr) sePins) ∧
    (atInstr s.tb.clk x 11 a b d → a ≤ 7 → b ≤ 3 → pass (.seSig e) (fun y =>
      y.stat = if 2 ≤ b then x.stat ||| 4 else x.stat) [.se, .te]) ∧
    (atInstr s.tb.clk x 5 0 0 d → pass (.seClkHold e) (fun y => y.ckrun = false ∧ y.ph = x.phase s.tb.clk) [.se]) ∧
    (atInstr s.tb.clk x 5 1 0 d → pass (.seClkRun e) (fun y => y.ckrun = true ∧ y.ph = x.ph) [.se]) ∧
    (atInstr s.tb.clk x 5 2 0 d → pass (.seClkRestart e) (fun y => y.ckrun = true ∧ y.ph = 0 ∧ y.phAt = s.tb.clk) [.se, .pin]) ∧
    (atInstr s.tb.clk x 4 0 b d → pass (.sePut e) (fun y =>
      (∀ i : Fin 4, bit y.side i = if bit x.cfg (7 + i.val) then decide (b / 2 ^ i.val % 2 = 1) else bit x.side i) ∧ y.lo = x.lo)
      sePins) ∧
    (atInstr s.tb.clk x 4 1 b d → pass (.sePut e) (fun y =>
      (∀ j : Fin 8, bit y.lo j = if j.val < 4 ∧ j.val ≤ fld x.cfg 2 0 then decide (b / 2 ^ j.val % 2 = 1) else bit x.lo j) ∧
      y.side = x.side) sePins) ∧
    (atInstr s.tb.clk x 10 a b d →
      let taken := match a / 2 with
        | 0 => true | 1 => x.f | 2 => !x.f | 3 => (x.txSeen s.tb.clk).isEmpty | 4 => !x.rxRoom
        | 5 => bit (laneIn e li s) 0 | 6 => !bit (laneIn e li s) 0 | _ => x.trg
      Ends (.seBrc e li) s fun t =>
        completes s.tb.clk x t.se[e] d (if taken then BitVec.ofNat 5 (16 * (a % 2) + b) else followingPc x) ∧
        t.se[e].trg = x.trg ∧ OthersKept e s.se t.se ∧ OnlyIn [.se] s t)

/-- The shift-engine instructions.
It rests on the model's own reading in logs 16 and 58. -/
def Obligations.ShiftInstructions : Prop :=
  ShiftInstructionsIssue ∧ ShiftInstructionsComplete


/-- FILL and DRAIN: with a word that the engine sees (R210), or room, or in the non-blocking form, they complete at once (an underrun or an overrun
sets its flag); a blocking one that finds none waits, and completes when there is one (R211, R212). -/
def Says.FillAndDrain : Prop :=
  ∀ (e : Fin 32) (a d : Nat) (w : Word) (r : List Word) (s : State), s.sys.pwr = .active →
    let x := s.se[e]
    let leads (c : Instr) (f : Shift → Prop) : Prop := Ends c s fun t =>
      completes s.tb.clk x t.se[e] d (followingPc x) ∧ f t.se[e] ∧ OthersKept e s.se t.se ∧ OnlyIn [.se] s t
    let waits (c : Instr) (k : ShWait) : Prop := Ends c s fun t => t.se = s.se.set e { x with wait := k } ∧ OnlyIn [.se] s t
    (atInstr s.tb.clk x 7 a 0 d → a ≤ 1 →
      (x.txSeen s.tb.clk = w :: r → leads (.seFill e) fun y => y.sr = w ∧ y.tx = x.tx.drop 1 ∧ y.olv = 32 ∧ y.stat = x.stat) ∧
      (x.txSeen s.tb.clk = [] → a = 1 → leads (.seFill e) fun y => y.sr = x.sr ∧ y.olv = 32 ∧ y.stat = x.stat ||| 1) ∧
      (x.txSeen s.tb.clk = [] → a = 0 → waits (.seFill e) .fill)) ∧
    (atInstr s.tb.clk x 8 a 0 d → a ≤ 1 →
      (x.rxRoom = true → leads (.seDrain e) fun y => y.rx = x.rx ++ [x.sr] ∧ y.ilv = 0 ∧ y.sr = x.sr ∧ y.stat = x.stat) ∧
      (x.rxRoom = false → a = 1 → leads (.seDrain e) fun y => y.rx = x.rx ∧ y.ilv = 0 ∧ y.stat = x.stat ||| 2) ∧
      (x.rxRoom = false → a = 0 → waits (.seDrain e) .drain)) ∧
    (x.st = .run → x.d = d →
      (x.wait = .fill → x.txSeen s.tb.clk = w :: r → leads (.fillComplete e) fun y =>
        y.sr = w ∧ y.tx = x.tx.drop 1 ∧ y.olv = 32) ∧
      (x.wait = .drain → x.drainOwed = none → x.rxRoom = true → leads (.drainComplete e) fun y =>
        y.rx = x.rx ++ [x.sr] ∧ y.ilv = 0 ∧ y.sr = x.sr))

/-- AWAIT and the barrier: an AWAIT whose condition holds completes in its issue cycle, any other waits and completes when it holds; kind 2
sets F, kind 4 clears TRG, but for a setting in the same cycle (R221, R225). A barrier instruction of an engine in no group completes at once, of a member it waits, and the
group's barrier releases every waiting member when none is halted and every running one waits at it (R226). -/
def Says.AwaitAndBarrier : Prop :=
  ∀ (e : Fin 32) (b d : Nat) (li : BitVec 8) (si : BitVec 4) (g : Fin 8) (s : State), s.sys.pwr = .active →
    let x := s.se[e]
    let done (f : Shift → Prop) (t : State) : Prop :=
      completes s.tb.clk x t.se[e] d (followingPc x) ∧ f t.se[e] ∧ OthersKept e s.se t.se ∧ OnlyIn [.se, .pin] s t
    let waits (c : Instr) (k : ShWait) : Prop := Ends c s fun t => t.se = s.se.set e { x with wait := k } ∧ OnlyIn [.se] s t
    (atInstr s.tb.clk x 6 4 0 d →
      (x.trg = true → Ends (.seAwait e li si) s (done fun y => y.trg = decide (x.trgAt = some s.tb.clk) ∧ y.f = x.f)) ∧
      (x.trg = false → waits (.seAwait e li si) (.await s.tb.clk))) ∧
    (atInstr s.tb.clk x 6 2 0 d → (x.scnt = x.cmpv.setWidth 16 → Ends (.seAwait e li si) s (done fun y => y.f = true ∧ y.trg = x.trg))) ∧
    (atInstr s.tb.clk x 6 0 b d → bit (laneIn e li s) (b % 8) = decide (8 ≤ b) → Ends (.seAwait e li si) s (done fun y => y.f = x.f)) ∧
    (x.st = .run → x.d = d → x.a = 4 → x.trg = true → (∃ c, x.wait = .await c) →
      Ends (.awaitComplete e li si) s (done fun y => y.trg = decide (x.trgAt = some s.tb.clk))) ∧
    (atInstr s.tb.clk x 6 3 0 d → (bit x.cfg 31 = true → waits (.seAwait e li si) (.barrier false)) ∧
      (bit x.cfg 31 = false → Ends (.seAwait e li si) s (done fun _ => True))) ∧
    (atInstr s.tb.clk x 5 3 0 d → (bit x.cfg 31 = true → waits (.seClkRestartBarrier e) (.barrier true)) ∧
      (bit x.cfg 31 = false → Ends (.seClkRestartBarrier e) s (done fun y => y.ckrun = true ∧ y.ph = 0))) ∧
    ((∃ m r, inGroup s g m ∧ s.se[m].st = .run ∧ s.se[m].wait = .barrier r) →
      (∀ m, inGroup s g m → s.se[m].st = .stopped ∨ (s.se[m].st = .run ∧ ∃ r, s.se[m].wait = .barrier r)) →
      Ends (.barrierRelease g) s fun t =>
        (∀ m, inGroup s g m → s.se[m].st = .run → completes s.tb.clk s.se[m] t.se[m] s.se[m].d (followingPc s.se[m])) ∧
        (∀ m, inGroup s g m → s.se[m].st = .run → s.se[m].wait = .barrier true → t.se[m].ckrun = true ∧ t.se[m].ph = 0) ∧
        (∀ m, ¬ inGroup s g m → t.se[m] = s.se[m]) ∧ OnlyIn [.se, .pin] s t)

/-- A reserved code is not executed: the engine is HALTED with PC at it and SE_STAT.ILLOP set; SR, the counts and
both queues are kept (R218). -/
def Says.ReservedCodeHalts : Prop :=
  ∀ (e : Fin 32) (op a b d : Nat) (s : State), s.sys.pwr = .active → atInstr s.tb.clk s.se[e] op a b d → op < 16 →
    13 ≤ op ∨ (op = 0 ∧ (a ≠ 0 ∨ b ≠ 0)) ∨ (1 ≤ op ∧ op ≤ 3 ∧ b ≠ 0) ∨ (op = 4 ∧ 5 ≤ a) ∨ (op = 5 ∧ (4 ≤ a ∨ b ≠ 0)) ∨
      (op = 6 ∧ 7 ≤ a) ∨ (op = 6 ∧ a = 5 ∧ 9 ≤ b) ∨ (7 ≤ op ∧ op ≤ 9 ∧ (2 ≤ a ∨ b ≠ 0)) ∨ (op = 11 ∧ (8 ≤ a ∨ 4 ≤ b)) ∨
      (op = 12 ∧ (4 ≤ a ∨ 7 ≤ b)) →
    Ends (.illop e) s fun t =>
      t.se[e].st = .halted ∧ t.se[e].pc = s.se[e].pc ∧ t.se[e].stat = s.se[e].stat ||| 8 ∧ t.se[e].sr = s.se[e].sr ∧
      t.se[e].scnt = s.se[e].scnt ∧ t.se[e].tx = s.se[e].tx ∧ t.se[e].rx = s.se[e].rx ∧ t.se[e].f = s.se[e].f ∧
      OthersKept e s.se t.se ∧ OnlyIn [.se, .pin] s t

/-- The instructions that wait, and the reserved code.
It rests on the model's own reading in logs 36 and 58. -/
def Obligations.ShiftWaits : Prop :=
  ShiftInstructionsWait ∧ FillAndDrain ∧ AwaitAndBarrier ∧ ReservedCodeHalts


/-! Product lines. -/

/-- The commands of a product line where Table 9.9 accepts them: `ENABLE` and `DISABLE` in CONFIG, `DISABLE` closing every slot and emptying the held
store; `SETMARK` and `REWIND` on the rewind mark; `FLUSH` empties the held store; `SETPSN` outside RUN, HOLD and SAFE. STATUS is OK; anywhere else the command is refused, or its
argument is invalid, and the line is as it was (R16, R259, R273 to R275, R278, R279). What the line left to the end of the cycle, a record whose
intake is complete among it, has acted before the command is judged (R272; `RecordJudged`): `z` is the device so. -/
def Says.LineCommands : Prop :=
  ∀ (p : Port) (t : Fin 4) (s z : State), hostOk p s = true → z = settleLine t s →
    let x := z.job[t]
    let leads (c : Instr) (f : Line → Prop) : Prop := Ends c s fun y =>
      f y.job[t] ∧ y.job[t].cmd = { x.cmd with status := .ok } ∧ y.job[t].cfg = x.cfg ∧ y.job[t].ofs = x.ofs ∧
      y.job[t].wr = x.wr ∧ OthersKept t z.job y.job ∧ OnlyIn [.job] z y
    (z.dom.state = .config → x.en = false → x.enableOk = true → leads (.jobEnable p t) fun y =>
      y.en = true ∧ y.inp = x.inp ∧ y.psnNext = x.psnNext ∧ y.slots = x.slots) ∧
    (z.dom.state = .config → x.en = true → leads (.jobDisable p t) fun y =>
      y.en = false ∧ (∀ k : Fin 64, y.held[k] = none) ∧ (∀ i : Fin 512, y.slots[i].st = .free) ∧ y.inp = x.inp) ∧
    ((x.wr - x.arg.setWidth 16).toNat ≤ x.size → x.rewinding = false → leads (.setmark p t) fun y =>
      y.mark = x.arg.setWidth 16 ∧ y.markv = true ∧ y.inp = x.inp ∧ y.slots = x.slots) ∧
    (x.markv = true → x.rewinding = false → (x.mark = x.inp ∨ x.size < (x.mark - x.inp).toNat) → leads (.rewind p t) fun y =>
      y.inp = x.mark ∧ y.rwEnd = x.inp ∧ y.deltaNow = x.delta ∧ (y.rewinding = true ↔ x.mark ≠ x.inp) ∧ y.slots = x.slots) ∧
    (leads (.jobFlush p t) fun y => (∀ k : Fin 64, y.held[k] = none) ∧ y.inp = x.inp ∧ y.slots = x.slots) ∧
    ((∀ i : Fin 512, x.slots[i].st = .free) → z.dom.state = .config ∨ z.dom.state = .armed → leads (.setpsn p t) fun y =>
      y.psnNext = x.arg ∧ y.inp = x.inp ∧ y.slots = x.slots) ∧
    (let stays (c : Instr) (r : CmdReg) : Prop := Ends c s fun y =>
        y.job[t].cmd = r ∧ y.job[t].en = x.en ∧ y.job[t].slots = x.slots ∧ y.job[t].mark = x.mark ∧ y.job[t].inp = x.inp ∧
        y.job[t].rewinding = x.rewinding ∧ y.job[t].psnNext = x.psnNext ∧ OthersKept t z.job y.job ∧ OnlyIn [.job] z y
     let No (c : Instr) : Prop := stays c (refused x.cmd)
     let invalid (c : Instr) : Prop := stays c { x.cmd with status := .argInvalid }
     (x.enableOk = false → invalid (.jobEnable p t)) ∧
     (x.enableOk = true → x.en = true ∨ z.dom.state ≠ .config → No (.jobEnable p t)) ∧
     (x.en = false ∨ z.dom.state ≠ .config → No (.jobDisable p t)) ∧
     (x.size < (x.wr - x.arg.setWidth 16).toNat → invalid (.setmark p t)) ∧
     ((x.wr - x.arg.setWidth 16).toNat ≤ x.size → x.rewinding = true → No (.setmark p t)) ∧
     (x.markv = false ∨ x.rewinding = true ∨ (1 ≤ (x.mark - x.inp).toNat ∧ (x.mark - x.inp).toNat ≤ x.size) →
       No (.rewind p t)) ∧
     ((∃ i : Fin 512, x.slots[i].st ≠ .free) ∨ z.dom.state = .run ∨ z.dom.state = .hold ∨ z.dom.state = .safe →
       No (.setpsn p t)))

/-- A write of JOB_RING_WR inside the ring moves WR; one that would overtake IN is refused and leaves it. A write of
JOB_VREC_PSN is staged for its port (R262, R267). A record whose intake is complete in the cycle of the write moves IN first (R272): `z` is the device
so. -/
def Says.LineRegisters : Prop :=
  ∀ (p : Port) (t : Fin 4) (v : Word) (s z : State), hostOk p s = true → z = settleLine t s →
    let x := z.job[t]
    let w : BitVec 16 := v.setWidth 16
    ((w - x.wr).toNat ≤ x.size → (w - x.inp).toNat ≤ x.size → Ends (.jobRingWrWrite p t v) s fun y =>
      y.job[t].wr = w ∧ y.job[t].cmd = x.cmd ∧ y.job[t].inp = x.inp ∧
      (y.job[t].markv = true ↔ x.markv = true ∧ (w - x.mark).toNat ≤ x.size) ∧ OthersKept t z.job y.job ∧ OnlyIn [.job] z y) ∧
    (x.size < (w - x.inp).toNat → Ends (.jobRingWrWrite p t v) s fun y =>
      y.job[t].wr = x.wr ∧ y.job[t].cmd.status = .stateRefused ∧
      y.job[t].cmd.refusals.toNat = min 255 (x.cmd.refusals.toNat + 1) ∧ y.job[t].inp = x.inp ∧
      OthersKept t z.job y.job ∧ OnlyIn [.job] z y) ∧
    (Ends (.jobVrecPsnWrite p t v) s fun y =>
      (match p with | .pcie _ => y.job[t].stagePcie | .spi => y.job[t].stageSpi) = v ∧
      (match p with | .pcie _ => y.job[t].stageSpi = s.job[t].stageSpi | .spi => y.job[t].stagePcie = s.job[t].stagePcie) ∧
      y.job[t].slots = s.job[t].slots ∧ OthersKept t s.job y.job ∧ OnlyIn [.job] s y)

/-- The commands and registers of a product line.
It rests on the model's own reading in logs 7 and 29. -/
def Obligations.LineControl : Prop :=
  LineCommands ∧ LineRegisters


/-- The stages of an enabled line, at the slot with the lowest PSN whose stage is due (R258): at the bind stage the slot is BOUND, to its held record or without one, and
that record leaves the store (R265, R266); the print stage marks it, with cause 5 in HOLD; at the decision a product without a cause is passed
and its slot is FREE, with a completion record where the line keeps them (R270); a failed one is REJECTING with its cause, and source 404
+ line pulses (R268); at the gate angle the slot is FREE. A line makes one such action in a cycle: one that follows in the cycle of the last waits for
the next one (R258), and `z` is the device in the action's cycle. The block is clocked (R414). -/
def Says.LineStages : Prop :=
  ∀ (t : Fin 4) (i : Fin 512) (s z : State), s.job[t].en = true → s.sys.pwr = .active →
    z = (if s.job[t].staged = some s.tb.clk then runClk (s.tb.clk + 1) s else s) →
    let x := z.job[t]
    let v := x.slots[i]
    let leads (c : Instr) (f : State → Prop) : Prop := Ends c s fun y =>
      f y ∧ (∀ j : Fin 512, j ≠ i → y.job[t].slots[j] = x.slots[j]) ∧ y.job[t].staged = some z.tb.clk ∧ OthersKept t z.job y.job ∧
      OnlyIn [.job, .well, .te, .wt] z y
    let record := x.held[v.psn.toNat % 64]'(by omega)
    let matched : Prop := ∃ r, record = some r ∧ r.psn = v.psn
    (nextStage t z = some (i, .bind) → leads (.bind t) fun y =>
      y.job[t].slots[i].st = .bound ∧ y.job[t].slots[i].psn = v.psn ∧ y.job[t].slots[i].ang = v.ang ∧
      (matched → y.job[t].slots[i].kind = 0 ∧ y.job[t].held[v.psn.toNat % 64]'(by omega) = none) ∧
      (¬ matched → y.job[t].slots[i].kind = (if bit x.cfg 28 then 1 else 2) ∧ bit y.job[t].slots[i].cause 0 = true ∧
        bit y.job[t].stat 0 = true)) ∧
    (nextStage t z = some (i, .print) → leads (.printStage t) fun y =>
      y.job[t].slots[i] = { v with print := true, cause := if z.dom.state = .hold then v.cause ||| 32 else v.cause }) ∧
    (nextStage t z = some (i, .decision) → v.cause = 0 → v.verdict = 1 → (bit x.cfg 29 = true → v.printed = true) →
      leads (.decision t) fun y => y.job[t].slots[i] = { v with st := .free } ∧
        (bit x.crCfg 31 = true → x.queue.length < 32 → y.job[t].queue = x.queue ++ [⟨v.psn, 4, 0, v.ang⟩])) ∧
    (nextStage t z = some (i, .decision) → v.verdict = 2 → leads (.decision t) fun y =>
      y.job[t].slots[i].st = .rejecting ∧ bit y.job[t].slots[i].cause 2 = true ∧ y.job[t].slots[i].psn = v.psn ∧
      Pulsed (Fin.ofNat 496 (404 + t.val)) z y) ∧
    (nextStage t z = some (i, .gate) → leads (.gateAngle t) fun y => y.job[t].slots[i] = { v with st := .free })

/-- In SAFE a line's slots are closed in the cycle after their opening: each is FREE, and JOB_STAT shows that slots were
closed (R269). `y` is the device in that cycle. -/
def Says.SafeClosesSlots : Prop :=
  ∀ (t : Fin 4) (s y : State), s.tb.running = true → s.dom.state = .safe → s.sys.pwr = .active → y = runClk (s.tb.clk + 1) s →
    Ends (.safeSlotClose t) s fun x =>
      (∀ i : Fin 512, x.job[t].slots[i].st = .free) ∧
      ((∃ i : Fin 512, y.job[t].slots[i].st ≠ .free) → bit x.job[t].stat 12 = true) ∧
      x.job[t].psnNext = y.job[t].psnNext ∧ OthersKept t y.job x.job ∧ OnlyIn [.job] y x

/-- The stages of a product's slot.
It rests on the model's own reading in log 2. -/
def Obligations.LineSlots : Prop :=
  LineStages ∧ SafeClosesSlots


/-- An intake of an enabled line with a record in its ring takes the record at IN, in eight accesses of the host port that their
ways grant (R260, R283). The record is judged at the end of the cycle in which the last word has come, so that a bind of that cycle does not find it
(R263, R272; `RecordJudged`). An intake follows the judgement of the record before it: `z` is the device so. No other access waits at the Cistern, and
nothing is left to the cycles that the accesses take. -/
def Says.IntakeTakesRecord : Prop :=
  ∀ (t : Fin 4) (w : Vector (BitVec 64) 8) (s z : State),
    z = (if s.job[t].taken.isSome then runClk (s.tb.clk + 1) s else s) → z.job[t].taken = none →
    z.job[t].en = true → z.job[t].inp ≠ z.job[t].wr → live z = true →
    z.tb.running = true → z.sys.pwr = .active → z.later = [] → z.dom.safeNow = false → z.cis.waiting = [] → z.cis.turn[25] ≤ z.tb.clk →
    (∀ q ∈ z.cis.returns, q.port ≠ 25) → (∀ (b : Fin 8) (k : Fin 4), z.cis.banks[b].ways[k].free ≤ z.tb.clk) →
    let x := z.job[t]
    let a := (fld x.ring 23 6 * 64 + 64 * (x.inp.toNat % x.size)) / 8
    (∀ i : Fin 8, w[i] = Memory.word z.cis.mem (a + i.val) ∧ clean z (a + i.val) ∧
      bit z.cis.init (bankOf (a + i.val)) = false ∧ fld (z.cis.banks[bankOf (a + i.val)]).own 31 30 ≤ 1) →
    Ends (.intake t) s fun y =>
      y.job[t] = { x with taken := some (w, false) } ∧ Later.line t ∈ y.later ∧ y.cis.mem = z.cis.mem ∧ y.cis.waiting = [] ∧
      OthersKept t z.job y.job ∧ OnlyIn [.tb, .cis, .job, .later, .rcd] z y

/-- A record that has been taken is judged at the end of its cycle: IN moves by one, and a rewind ends where IN has come to its end; a record with a good
check sum, read without poison, that is no older than the bind base and less than 64 ahead of it, whose place in the held store is free,
is held; one with a bad check sum, or read with poison, is counted and not held (R261, R263, R272). -/
def Says.RecordJudged : Prop :=
  ∀ (t : Fin 4) (w : Vector (BitVec 64) 8) (bad : Bool) (s y : State), s.tb.running = true → s.dom.safeNow = false →
    s.later = [.line t] → s.job[t].pinEdge = none → s.job[t].taken = some (w, bad) → y = advance 1 s →
    let x := s.job[t]
    let r := jobRec (if x.rewinding then x.deltaNow else 0) w
    let good : Prop := bad = false ∧ crc16 ((wordBytes w.toList).take 62) = (w[7] >>> 48).setWidth 16
    y.job[t].inp = x.inp + 1 ∧ (y.job[t].rewinding = true ↔ x.rewinding = true ∧ x.inp + 1 ≠ x.rwEnd) ∧
    y.job[t].slots = x.slots ∧ y.job[t].taken = none ∧ OthersKept t s.job y.job ∧ OnlyIn [.tb, .later, .job] s y ∧
    (good → 0 ≤ (r.psn - x.base).toInt → (r.psn - x.base).toInt < 64 → x.held[r.psn.toNat % 64]'(by omega) = none →
      y.job[t].held[r.psn.toNat % 64]'(by omega) = some r) ∧
    (¬ good → bit y.job[t].stat 1 = true ∧ ∀ k : Fin 64, y.job[t].held[k] = x.held[k] ∨ y.job[t].held[k] = none)

/-- A verdict record, or an item of the report well, for a slot in flight that is not decided: FAIL stands, PASS stands where no
verdict stood (R267). A PRINTED item marks the slot. -/
def Says.VerdictsAndReports : Prop :=
  ∀ (p : Port) (t : Fin 4) (i : Fin 512) (s : State),
    let x := s.job[t]
    let v := x.slots[i]
    let psn := (match p with | .pcie _ => x.stagePcie | .spi => x.stageSpi)
    let others (y : State) : Prop := (∀ j : Fin 512, j ≠ i → y.job[t].slots[j] = x.slots[j]) ∧ OthersKept t s.job y.job
    v.st = .opened ∨ v.st = .bound →
    (hostOk p s = true → v.psn = psn → (∀ j : Fin 512, x.slots[j].st ≠ .free → x.slots[j].psn = psn → j = i) →
      (Ends (.verdictRecord p t 3) s fun y =>
        y.job[t].slots[i] = { v with verdict := if v.verdict = 0 then 1 else v.verdict } ∧ others y ∧ OnlyIn [.job, .rcd] s y) ∧
      (Ends (.verdictRecord p t 4) s fun y =>
        y.job[t].slots[i] = { v with verdict := 2 } ∧ others y ∧ OnlyIn [.job, .rcd] s y)) ∧
    (∀ (k : Fin 64) (it : Item) (l : List Item), x.en = true → s.sys.pwr = .active → s.well[k].freedIn s.tb.clk = 0 → bit x.wells 23 = true → fld x.wells 21 16 = k.val →
      s.well[k].en = true → fld s.well[k].cfg 23 18 = 0x28 + t.val → s.well[k].seen s.tb.clk = it :: l → it.ok = true → it.tag = 0 →
      (it.data >>> 32).setWidth 32 = v.psn → fld it.data 24 16 = i.val →
      (fld it.data 31 28 = 1 → Ends (.reportWellItem t) s fun y =>
        y.job[t].slots[i] = { v with printed := true } ∧ y.well[k].items = s.well[k].items.drop 1 ∧ OthersKept k s.well y.well ∧ others y ∧
        OnlyIn [.job, .well] s y) ∧
      (fld it.data 31 28 = 4 → Ends (.reportWellItem t) s fun y =>
        y.job[t].slots[i] = { v with verdict := 2 } ∧ y.well[k].items = s.well[k].items.drop 1 ∧ OthersKept k s.well y.well ∧ others y ∧
        OnlyIn [.job, .well] s y))

/-- The oldest completion record goes to host memory at its place in the ring, 16 bytes at CR_BASE + 16 × CR_WR, with the phase of the pass; CR_WR moves
on modulo the ring; source 497 of the target that CR_CFG names pulses (R270, R280, R321, Table 9.6). -/
def Says.CompletionRecordWritten : Prop :=
  ∀ (t : Fin 4) (c : Completion) (rest : List Completion) (s : State),
    let x := s.job[t]
    let size := 2 ^ (fld x.crCfg 23 20 + 4)
    x.queue = c :: rest → bit x.crCfg 31 = true → (x.crWr.toNat + 1) % size ≠ x.crRd.toNat % size → s.sys.bme = true →
    s.sys.dstate ≠ 3 → s.sys.pwr = .active →
    let h : Fin 32 := Fin.ofNat 32 (fld x.crCfg 28 24)
    Ends (.completionRecord t) s fun y =>
      (∃ bytes : List (Byte × Bool), bytes.length = 16 ∧
        y.out = s.out ++ [.hostWrite (x.crBase + BitVec.ofNat 64 (16 * (x.crWr.toNat % size))) bytes] ∧
        (∀ k : Fin 4, (bytes.map (·.1))[k.val]? = some ((c.psn >>> (8 * k.val)).setWidth 8)) ∧
        (∀ q ∈ bytes, q.2 = false)) ∧
      y.job[t].queue = rest ∧ y.job[t].crWr = BitVec.ofNat 16 ((x.crWr.toNat % size + 1) % size) ∧
      y.job[t].phase = (if x.crWr.toNat % size + 1 = size then !x.phase else x.phase) ∧ y.job[t].slots = x.slots ∧
      y.ic.tgt[h].priv[1] = s.ic.tgt[h].priv[1].input true ∧ (h, 1) ∈ y.ic.privFalls ∧
      OthersKept t s.job y.job ∧ OnlyIn [.job, .out] s y

/-- Records that a product line takes and gives.
It rests on the model's own reading in logs 14 and 34. -/
def Obligations.LineRecords : Prop :=
  IntakeTakesRecord ∧ RecordJudged ∧ VerdictsAndReports ∧ CompletionRecordWritten


/-! The Cistern, wells, pumps. -/

/-- The bytes of the Cistern in canonical form: a byte that is put reads back, every other byte is as before, and the form
is kept (R294; the form is the model's own).
It rests on the model's own reading in log 54. -/
def Obligations.MemoryReadsWhatWasPut : Prop :=
  ∀ (m : List Host.Cell) (a : Nat) (v : Byte), Memory.wf m = true →
    Memory.wf (Memory.put m a v) = true ∧ ∀ b : Nat, Memory.get (Memory.put m a v) b = if b = a then v else Memory.get m b

/-- The Cistern's bytes are in canonical form, and each microcode store lists its words by rising address (the model's own
forms; they make equal memories equal data). -/
def Says.stored (s : State) : Prop :=
  Memory.wf s.cis.mem = true ∧ ∀ e : Fin 16, s.te[e].store.Pairwise (fun x y => x.1 < y.1)

/-- Every step keeps the Cistern's bytes and the microcode stores in their form.
It rests on the model's own reading in logs 54 and 55. -/
def Obligations.StepKeepsStores : Prop := ∀ s t : State, stored s → step s = .next t → stored t

/-- The state after reset has them in their form. -/
def Says.ResetStores : Prop := stored State.reset

/-- The reset state: its values, and both invariants hold in it.
It rests on the model's own reading in logs 4, 13 and 22. -/
def Obligations.ResetState : Prop :=
  ResetHasInv ∧ ResetStores ∧ ResetValues


/-- `a` is the access that its port offers at way `w` of bank `b`, and the bank's owner admits it (R285, Table 10.2). -/
def Says.offered (s : State) (b : Fin 8) (w : Fin 4) (a : Access) : Prop :=
  a.port < 26 ∧ bankOf a.word = b ∧ wayOf a.word = w ∧ admits (s.cis.banks[b]).own a.port a.kind.isWrite = true ∧
  ∃ l r : List Access, s.cis.waiting = l ++ a :: r ∧ ∀ q ∈ l, q.port ≠ a.port

/-- The port of `a` presents it in this cycle: a port whose access was refused presents the next one from the cycle after (R286). -/
def Says.presents (s : State) (a : Access) : Prop := ∀ h : a.port < 27, s.cis.turn[a.port] ≤ s.tb.clk

/-- The place of a port in the order of R284, the first lowest: the engines after the one last granted, the recorder, the
host port, the pumps of the high class and then those of the low one after the one last granted. -/
def Says.turn (s : State) (y : Way) (p : Nat) : Nat :=
  if p < 16 then (p + 15 - y.eng % 16) % 16
  else if p ≤ 25 ∧ 24 ≤ p then p - 8
  else (if bit (s.pump[(p - 16) % 8]'(by omega)).cfg 31 then 18 else 26) + (p - 16 + 7 - y.pump % 8) % 8

/-- A way grants the first of the accesses offered and presented to it, one in a cycle, and an atomic or partial access holds it for two (R283, R284). The access acts on
its word: a read returns it, a write stores it, a partial write stores the bytes enabled, `ADD` and `SWAP` return the old value and store the sum or the new
one (R289); data sets out and is due four cycles later (R283). No other byte changes. A pump's element has moved with the grant of
its write (R308). -/
def Says.WayGrants : Prop :=
  ∀ (b : Fin 8) (w : Fin 4) (a : Access) (l r : List Access) (s : State),
    let y : Way := (s.cis.banks[b]).ways[w]
    let old := Memory.word s.cis.mem a.word
    bit s.cis.init b = false → s.cis.waiting = l ++ a :: r → (∀ q ∈ l, q.port ≠ a.port) → offered s b w a → presents s a →
    (∀ q, offered s b w q → presents s q → q ≠ a → turn s y a.port < turn s y q.port ∧
      ¬ (q.word = a.word ∧ q.kind.isFull = true ∧ a.kind.isFull = true)) →
    y.free ≤ s.tb.clk → clean s a.word → Memory.wf s.cis.mem = true →
    let leads (two : Bool) (back : List Return) (f : State → Prop) : Prop := Ends (.wayGrant b w) s fun x =>
      x.cis = { s.cis with
        mem := x.cis.mem, waiting := l ++ r, returns := s.cis.returns ++ back
        banks := s.cis.banks.set b { s.cis.banks[b] with ways := (s.cis.banks[b]).ways.set w {
          eng := if a.port < 16 then a.port else y.eng
          pump := if 16 ≤ a.port ∧ a.port < 24 then a.port - 16 else y.pump
          free := s.tb.clk + if two then 2 else 1 } } } ∧
      (∀ n : Nat, n / 8 ≠ a.word → Memory.get x.cis.mem n = Memory.get s.cis.mem n) ∧
      (∀ u : Fin 8, if a.kind.isFull = true ∧ 16 + u.val = a.port then x.pump[u].moved = s.pump[u].moved + 8
        else x.pump[u] = s.pump[u]) ∧ f x ∧ OnlyIn [.cis, .pump] s x
    let due (v : BitVec 64) : List Return := [⟨a.port, a.use, v, false, s.tb.clk + 4⟩]
    (a.kind = .read → leads false (due old) fun x => x.cis.mem = s.cis.mem) ∧
    (∀ v, a.kind = .write v false → a.port ≠ 25 ∨ s.cis.inj = 0 → leads false [] fun x => Memory.word x.cis.mem a.word = v) ∧
    (∀ v be, a.kind = .part v be false → leads true [] fun x => ∀ i, i < 8 →
      Memory.get x.cis.mem (8 * a.word + i) =
        if bit be i then (v >>> (8 * i)).setWidth 8 else Memory.get s.cis.mem (8 * a.word + i)) ∧
    (∀ v, a.kind = .add v → leads true (due old) fun x => Memory.word x.cis.mem a.word = old + v) ∧
    (∀ v, a.kind = .swap v → leads true (due old) fun x => Memory.word x.cis.mem a.word = v)

/-- A way that is held, a port whose access was refused, data on its way and an element's next move come in their cycle: asked for before it, they come
about in the first cycle in which they can (R283, R286, R313); `y` is the device in it. -/
def Says.CisternCommandsWait : Prop :=
  ∀ (s y : State), s.tb.running = true →
    (∀ (b : Fin 8) (w : Fin 4), (candidates b w s).isEmpty = false → s.tb.clk ≤ ((s.cis.banks[b]).ways[w]).free →
      (∀ q ∈ candidates b w s, turnOf s q ≤ s.tb.clk + 1) → y = runClk ((s.cis.banks[b]).ways[w]).free s → y.cis = s.cis →
      y.tb.clk = ((s.cis.banks[b]).ways[w]).free ∧ exec (.wayGrant b w) s = exec (.wayGrant b w) y) ∧
    (∀ (b : Fin 8) (w : Fin 4), (candidates b w s).isEmpty = false → ((s.cis.banks[b]).ways[w]).free ≤ s.tb.clk →
      (∀ q ∈ candidates b w s, turnOf s q = s.tb.clk + 1) → y = runClk (s.tb.clk + 1) s → y.cis = s.cis →
      exec (.wayGrant b w) s = exec (.wayGrant b w) y) ∧
    (∀ (port : Fin 27) (a : Access) (l r : List Access), s.cis.waiting = l ++ a :: r → (∀ q ∈ l, q.port ≠ a.port) → a.port = port.val →
      s.tb.clk ≤ s.cis.turn[port] → y = runClk s.cis.turn[port] s → y.cis = s.cis →
      y.tb.clk = s.cis.turn[port] ∧ exec (.accessRefused port) s = exec (.accessRefused port) y) ∧
    (∀ (port : Fin 27) (r : Return) (a b : List Return), s.cis.returns = a ++ r :: b → (∀ q ∈ a, q.port ≠ port.val) →
      r.port = port.val → s.tb.clk ≤ r.due → y = runClk r.due s → y.cis = s.cis →
      y.tb.clk = r.due ∧ exec (.readDataReturn port) s = exec (.readDataReturn port) y) ∧
    (∀ (u : Fin 8) (d : Desc), s.pump[u].state = .run → s.pump[u].desc = some d → s.pump[u].fail = none → s.pump[u].moved < d.len →
      (∀ q ∈ s.cis.waiting, q.port ≠ 16 + u.val) → s.tb.clk ≤ s.pump[u].next → y = runClk s.pump[u].next s →
      y.cis = s.cis → y.pump = s.pump →
      y.tb.clk = s.pump[u].next ∧ exec (.elementMove u) s = exec (.elementMove u) y)

/-- A read of a poisoned word returns the poison, and the bank reports the word with the port that read it: UE in its
status, the address, cause 4 of GUARD_FAULT (R291, R292, R250). -/
def Says.PoisonReported : Prop :=
  ∀ (b : Fin 8) (w : Fin 4) (a : Access) (s : State),
    bit s.cis.init b = false → s.cis.waiting = [a] → offered s b w a → presents s a → a.kind = .read → s.cis.poison.contains a.word = true →
    ((s.cis.banks[b]).ways[w]).free ≤ s.tb.clk →
    Ends (.wayGrant b w) s fun x =>
      x.cis.returns = s.cis.returns ++ [⟨a.port, a.use, Memory.word s.cis.mem a.word, true, s.tb.clk + 4⟩] ∧
      bit (x.cis.banks[b]).bstat 0 = true ∧
      (x.cis.banks[b]).ueaddr = BitVec.ofNat 32 (a.port * 2 ^ 27) ||| BitVec.ofNat 32 (a.word * 8) ∧
      bit x.pins.fault 4 = true ∧ x.cis.mem = s.cis.mem ∧ (∀ c : Fin 8, c ≠ b → x.cis.banks[c] = s.cis.banks[c]) ∧
      OnlyIn [.cis, .pins, .dom, .calm, .rcd] s x

/-- Two full-word writes of one word in one cycle: the lower port's is stored, the other is lost and counted, with its
port and word (R290); a pump that lost it has WLOST, and counts the element as moved (the model's choice, log 68). -/
def Says.LostWriteCounted : Prop :=
  ∀ (b : Fin 8) (w : Fin 4) (p q n : Nat) (u v : BitVec 64) (f g : AccUse) (s : State), p < q →
    bit s.cis.init b = false → s.cis.waiting = [⟨p, n, .write u false, f⟩, ⟨q, n, .write v false, g⟩] →
    offered s b w ⟨p, n, .write u false, f⟩ → offered s b w ⟨q, n, .write v false, g⟩ →
    presents s ⟨p, n, .write u false, f⟩ → presents s ⟨q, n, .write v false, g⟩ → p ≠ 25 ∨ s.cis.inj = 0 →
    ((s.cis.banks[b]).ways[w]).free ≤ s.tb.clk → Memory.wf s.cis.mem = true →
    Ends (.wayGrant b w) s fun x =>
      Memory.word x.cis.mem n = u ∧ (∀ a : Nat, a / 8 ≠ n → Memory.get x.cis.mem a = Memory.get s.cis.mem a) ∧
      x.cis.waiting = [] ∧ bit (x.cis.banks[b]).bstat 3 = true ∧
      (x.cis.banks[b]).wl.toNat = min 255 ((s.cis.banks[b]).wl.toNat + 1) ∧
      (x.cis.banks[b]).wlost = BitVec.ofNat 32 (q * 2 ^ 27) ||| BitVec.ofNat 32 (n * 8) ∧
      (∀ k : Fin 8, 16 + k.val = q → x.pump[k].resWlost = true ∧ bit x.pump[k].stat 1 = true ∧
        x.pump[k].moved = s.pump[k].moved + 8) ∧ OnlyIn [.cis, .pump] s x

/-- Accesses at a way of the Cistern.
It rests on the model's own reading in logs 5, 10 and 68. -/
def Obligations.CisternWays : Prop :=
  WayGrants ∧ PoisonReported ∧ LostWriteCounted


/-- The access that a port offers to a bank whose owner does not admit it is refused: it leaves the port, the bank counts it and keeps its port, direction and word;
an engine sees TE_STAT.AFAULT and gets poisoned data, a pump's descriptor fails, an intake gets an unreadable word, the host port gets
zeros (R260, R286, R287, R312, R468). The port presents its next access in the cycle after. -/
def Says.AccessRefusedAtBank : Prop :=
  ∀ (port : Fin 27) (a : Access) (l r : List Access) (s : State),
    let b := bankOf a.word
    s.cis.waiting = l ++ a :: r → (∀ q ∈ l, q.port ≠ a.port) → a.port = port.val → bit s.cis.init b = false → s.cis.turn[port] ≤ s.tb.clk →
    admits (s.cis.banks[b]).own a.port a.kind.isWrite = false →
    let bank := { s.cis.banks[b] with
      bstat := (s.cis.banks[b]).bstat ||| 4, af := BitVec.ofNat 8 (min 255 ((s.cis.banks[b]).af.toNat + 1))
      afault := BitVec.ofNat 32 (a.port * 2 ^ 27) ||| BitVec.ofNat 32 ((if a.kind.isWrite then 1 else 0) * 2 ^ 26) |||
        BitVec.ofNat 32 (a.word * 8) }
    let back (bad : Bool) : List Return := if a.returns then [⟨a.port, a.use, 0, bad, s.tb.clk + 4⟩] else []
    (∀ e : Fin 16, e.val = a.port → Ends (.accessRefused port) s fun x =>
      x.cis = { s.cis with turn := s.cis.turn.set port (s.tb.clk + 1), waiting := l ++ r, banks := s.cis.banks.set b bank, returns := s.cis.returns ++ back true } ∧
      x.te = s.te.set e { s.te[e] with stat := s.te[e].stat ||| 8 } ∧ OnlyIn [.cis, .te] s x) ∧
    (∀ u : Fin 8, 16 + u.val = a.port → Ends (.accessRefused port) s fun x =>
      x.cis = { s.cis with turn := s.cis.turn.set port (s.tb.clk + 1), waiting := l ++ r, banks := s.cis.banks.set b bank } ∧
      x.pump = s.pump.set u { s.pump[u] with fail := some (s.pump[u].fail.getD 3), asked := false } ∧ OnlyIn [.cis, .pump] s x) ∧
    (∀ t : Fin 4, 24 ≤ a.port → a.use = .job t → Ends (.accessRefused port) s fun x =>
      x.cis = { s.cis with turn := s.cis.turn.set port (s.tb.clk + 1), waiting := l ++ r, banks := s.cis.banks.set b bank, returns := s.cis.returns ++ back true } ∧
      x.job = s.job.set t { s.job[t] with stat := x.job[t].stat } ∧ bit x.job[t].stat 11 = true ∧ OnlyIn [.cis, .job] s x) ∧
    (24 ≤ a.port → (∀ t : Fin 4, a.use ≠ .job t) → Ends (.accessRefused port) s fun x =>
      x.cis = { s.cis with turn := s.cis.turn.set port (s.tb.clk + 1), waiting := l ++ r, banks := s.cis.banks.set b bank, returns := s.cis.returns ++ back false } ∧
      OnlyIn [.cis] s x)

/-- The first data under way to a port reaches it when it is due: an engine's pending value has arrived, a pump
has the word it asked for, a host read is answered with the bytes it asked for (R283, R399). -/
def Says.ReadDataReturns : Prop :=
  ∀ (port : Fin 27) (a b : List Return) (v : BitVec 64) (bad : Bool) (due : Nat) (s : State), (∀ q ∈ a, q.port ≠ port.val) →
    due ≤ s.tb.clk →
    (∀ (e : Fin 16) (id : Nat), e.val = port.val → s.cis.returns = a ++ ⟨port, .engine id, v, bad, due⟩ :: b →
      Ends (.readDataReturn port) s fun x =>
        x.cis = { s.cis with returns := a ++ b } ∧
        x.te = s.te.set e { s.te[e] with
          pend := s.te[e].pend.map fun q => if q.id = id then { q with arrived := some (v, bad) } else q } ∧
        OnlyIn [.cis, .te] s x) ∧
    (∀ u : Fin 8, 16 + u.val = port.val → s.cis.returns = a ++ ⟨port, .pump, v, bad, due⟩ :: b → s.pump[u].asked = true →
      Ends (.readDataReturn port) s fun x =>
        x.cis = { s.cis with returns := a ++ b } ∧
        x.pump = s.pump.set u { s.pump[u] with asked := false, got := some (v, bad) } ∧ OnlyIn [.cis, .pump] s x) ∧
    (∀ (rid : BitVec 16) (lo hi : Nat), lo < hi → hi ≤ 8 → s.cis.returns = a ++ ⟨port, .pcie rid lo hi, v, bad, due⟩ :: b →
      Ends (.readDataReturn port) s fun x =>
        x.cis = { s.cis with returns := a ++ b } ∧
        (∃ l : List (Byte × Bool), x.out = s.out ++ [.memData (.pcie rid) l] ∧ l.length = hi - lo ∧
          ∀ i, i < hi - lo → l[i]? = some ((v >>> (8 * (lo + i))).setWidth 8, bad)) ∧ OnlyIn [.cis, .out] s x)

/-- A handover of a bank: refused during initialisation and while the recorder works on it, and invalid for an engine owner without engines; otherwise the
one named is the bank's owner from the next cycle (`NextCycleActs`); one that names the owner in force changes nothing (R288, R432). -/
def Says.BankHandedOver : Prop :=
  ∀ (p : Port) (b : Fin 8) (v : Word) (s : State), hostOk p s = true →
    let empty : Prop := fld v 31 30 = 2 ∧ fld v 15 0 = 0
    let busy : Prop := bit s.cis.init b = true ∨
      (fld s.rcd.cfg 31 29 = b.val ∧ (s.rcd.state = .record ∨ s.rcd.state = .drain))
    let own := (s.cis.banks[b]).own
    let same : Prop := fld own 31 30 = fld v 31 30 ∧ (fld v 31 30 = 2 → fld own 15 0 = fld v 15 0)
    let leads (r : CmdReg) (f : State → Prop) (l : List Part) : Prop :=
      Ends (.bankHandover p b v) s fun x => x.cis = { s.cis with cmd := r } ∧ f x ∧ OnlyIn (.cis :: l) s x
    (empty → leads { s.cis.cmd with status := .argInvalid } (fun _ => True) []) ∧
    (¬ empty → busy → leads (refused s.cis.cmd) (fun _ => True) []) ∧
    (¬ empty → ¬ busy → same → leads { s.cis.cmd with status := .ok } (fun _ => True) []) ∧
    (¬ empty → ¬ busy → ¬ same → leads { s.cis.cmd with status := .ok } (fun x =>
      ∃ w : Word, fld w 31 30 = fld v 31 30 ∧ (fld v 31 30 = 2 → fld w 15 0 = fld v 15 0) ∧ Later.owner b w ∈ x.later) [.later])

/-- A scrubber visit, at a way at which no other access waits (R284): a correct word is left; a word with one bad symbol is counted and rewritten correct, its data unchanged; the next
word is visited INTV cycles later (R291, R293). -/
def Says.ScrubberVisits : Prop :=
  ∀ (c w : Nat) (s : State), w < 2 ^ 21 → s.cis.scrubAt = some c → s.cis.scrubEn = true → s.cis.init = 0 →
    s.cis.scrubWord = w → c ≤ s.tb.clk → (∀ a, ¬ offered s (bankOf w) (wayOf w) a) → ((s.cis.banks[bankOf w]).ways[wayOf w]).free ≤ s.tb.clk →
    s.cis.poison.contains w = false → Memory.wf s.cis.mem = true →
    let moved (x : State) : Prop :=
      x.cis.scrubWord = (w + 1) % 2 ^ 21 ∧ x.cis.scrubAt = some (s.tb.clk + s.cis.intv.toNat) ∧
      (∀ a : Nat, Memory.get x.cis.mem a = Memory.get s.cis.mem a) ∧ x.cis.poison = s.cis.poison ∧
      x.cis.waiting = s.cis.waiting ∧ (∀ d : Fin 8, d ≠ bankOf w → x.cis.banks[d] = s.cis.banks[d]) ∧ OnlyIn [.cis] s x
    ((∀ q ∈ s.cis.flipped, q.1 ≠ w) → Ends .scrubVisit s fun x =>
      moved x ∧ (x.cis.banks[bankOf w]).ce = (s.cis.banks[bankOf w]).ce ∧ x.cis.flipped = s.cis.flipped ∧
      (x.cis.banks[bankOf w]).bstat = (s.cis.banks[bankOf w]).bstat) ∧
    (∀ (i : Nat) (y : BitVec 16) (l r : List (Nat × BitVec 16)), i < 4 → s.cis.flipped = l ++ (w, y) :: r → (∀ q ∈ l, q.1 ≠ w) →
      fld y (4 * i + 3) (4 * i) ≠ 0 → (∀ j, j < 4 → j ≠ i → fld y (4 * j + 3) (4 * j) = 0) → Ends .scrubVisit s fun x =>
        moved x ∧ (x.cis.banks[bankOf w]).ce.toNat = min 65535 ((s.cis.banks[bankOf w]).ce.toNat + 1) ∧
        (∀ q ∈ x.cis.flipped, q.1 ≠ w) ∧ bit (x.cis.banks[bankOf w]).bstat 1 = true)

/-- Initialisation ends 65,536 cycles after the clock's start: every word is 0 and correct, no bank is in initialisation, READY is 1, and the
enabled link ports leave OFF (R294, R367, R410). `y` is the device in that cycle. -/
def Says.InitialisationEnds : Prop :=
  ∀ s y : State, s.cis.init ≠ 0 → s.tb.running = true → s.tb.clk ≤ 65536 → y = runClk 65536 s →
    Ends .cisternInitDone s fun x =>
      x.tb.clk = 65536 ∧ (∀ a : Nat, Memory.get x.cis.mem a = 0) ∧ x.cis.init = 0 ∧ x.cis.poison = [] ∧ x.cis.flipped = [] ∧
      x.cis.banks = y.cis.banks ∧ x.sys = { y.sys with ready := true } ∧
      (∀ k : Fin 4, x.link.ports[k] = if portEnabled y k = true ∧ y.link.ports[k].state = .off
        then { y.link.ports[k] with state := .down } else y.link.ports[k]) ∧
      OnlyIn [.cis, .sys, .link] y x

/-- Banks of the Cistern: ownership, scrubbing, initialisation.
It rests on the model's own reading in log 2. -/
def Obligations.CisternBanks : Prop :=
  BankHandedOver ∧ ScrubberVisits ∧ InitialisationEnds


/-- The host window: a read or write of `n` bytes makes one access of the host port for each word that it covers, in rising order; a word with every
byte enabled is written whole, another in its enabled bytes only (R281, R283, R399). -/
def Says.HostWindowAccesses : Prop :=
  ∀ (rid : BitVec 16) (addr : Nat) (s : State), hostOk (.pcie rid) s = true →
    (∀ len : Nat, 0 < len → Ends (.bar2Read rid addr len) s fun x =>
      ∃ l : List Access, l.length = (addr + len + 7) / 8 - addr / 8 ∧
        (∀ i, i < l.length → l[i]? = some ⟨25, (addr / 8 + i) % 2 ^ 21, .read,
          .pcie rid (if i = 0 then addr % 8 else 0) (min 8 (addr + len - 8 * (addr / 8 + i)))⟩) ∧
        x.cis = { s.cis with waiting := s.cis.waiting ++ l } ∧ OnlyIn [.cis] s x) ∧
    (∀ bytes : List (Option Byte), bytes ≠ [] → Ends (.bar2Write addr bytes) s fun x =>
      ∃ l : List Access, l.length = (addr + bytes.length + 7) / 8 - addr / 8 ∧
        (∀ i, i < l.length → ∃ (v : BitVec 64) (be : BitVec 8),
          l[i]? = some ⟨25, (addr / 8 + i) % 2 ^ 21, if be = 0xFF then .write v false else .part v be false, .none⟩ ∧
          ∀ j, j < 8 → let n := 8 * (addr / 8 + i) + j
            (n < addr ∨ bytes[n - addr]?.join = none → bit be j = false) ∧
            (∀ u, addr ≤ n → bytes[n - addr]?.join = some u → bit be j = true ∧ (v >>> (8 * j)).setWidth 8 = u)) ∧
        x.cis = { s.cis with waiting := s.cis.waiting ++ l } ∧ OnlyIn [.cis] s x)

/-- The ports of the Cistern: refusals, data that returns, the host window.
It rests on the model's own reading in logs 34 and 56. -/
def Obligations.CisternPorts : Prop :=
  CisternCommandsWait ∧ AccessRefusedAtBank ∧ ReadDataReturns ∧ HostWindowAccesses


/-- The well commands: `ENABLE` of a disabled well with a legal configuration that overlaps no enabled well; `FLUSH` and `DISABLE` of an
enabled one, which empty it, but for what the cycle of a `FLUSH` has itself written (R299). STATUS is OK. `ENABLE` of an enabled well, the
others of a disabled one, are refused, and `ENABLE` with an illegal configuration is invalid (R16, R305, Table 10.4). -/
def Says.WellCommands : Prop :=
  ∀ (p : Port) (k : Fin 64) (s : State), hostOk p s = true →
    let x := s.well[k]
    let base (y : Well) : Nat := 16 * fld y.cfg 10 0
    let depth (y : Well) : Nat := 16 * 2 ^ fld y.cfg 14 12
    let leads (c : Instr) (y : Well) : Prop := Ends c s fun z =>
      z.well = s.well.set k { y with cmd := { x.cmd with status := .ok } } ∧ OnlyIn [.well] s z
    (x.en = false → fld x.cfg 14 12 ≤ 6 → base x + depth x ≤ 32768 →
      (∀ j : Fin 64, s.well[j].en = true → base x + depth x ≤ base s.well[j] ∨ base s.well[j] + depth s.well[j] ≤ base x) →
      (fld x.cfg 31 26 ≤ 2 ∨ 0x10 ≤ fld x.cfg 31 26 ∧ fld x.cfg 31 26 ≤ 0x2B) →
      (fld x.cfg 23 18 ≤ 1 ∨ 0x10 ≤ fld x.cfg 23 18 ∧ fld x.cfg 23 18 ≤ 0x2B) →
      leads (.wellEnable p k) { x with en := true }) ∧
    (x.en = true → Ends (.wellFlush p k) s fun z =>
      z.well[k].items = x.items.drop (x.items.length - x.freshIn s.tb.clk) ∧ z.well[k].gcnt = 0 ∧ z.well[k].en = true ∧
      z.well[k].cfg = x.cfg ∧ z.well[k].stat = x.stat ∧ z.well[k].cmd = { x.cmd with status := .ok } ∧
      OthersKept k s.well z.well ∧ OnlyIn [.well] s z) ∧
    (x.en = true → Ends (.wellDisable p k) s fun z =>
      z.well[k].items = [] ∧ z.well[k].gcnt = 0 ∧ z.well[k].en = false ∧
      z.well[k].cfg = x.cfg ∧ z.well[k].stat = x.stat ∧ z.well[k].cmd = { x.cmd with status := .ok } ∧
      OthersKept k s.well z.well ∧ OnlyIn [.well] s z) ∧
    (let stays (c : Instr) (r : CmdReg) : Prop := Ends c s fun z => z.well = s.well.set k { x with cmd := r } ∧ OnlyIn [.well] s z
     (x.en = true → stays (.wellEnable p k) (refused x.cmd)) ∧
     (x.en = false → stays (.wellFlush p k) (refused x.cmd) ∧ stays (.wellDisable p k) (refused x.cmd)) ∧
     (x.en = false → 6 < fld x.cfg 14 12 ∨ 32768 < base x + depth x ∨
       (∃ j : Fin 64, s.well[j].en = true ∧ base x < base s.well[j] + depth s.well[j] ∧ base s.well[j] < base x + depth x) →
       stays (.wellEnable p k) { x.cmd with status := .argInvalid }))

/-- The host's side of a well: its low half is staged for its port; the write of the high half puts the item in at the end, after a GAP item that
counts the drops since, to be seen from the next cycle, or drops it when there is no room; a host that is not the writer is refused and counted (R297 to R299, R301, R304). -/
def Says.WellPushes : Prop :=
  ∀ (p : Port) (k : Fin 64) (v : Word) (s : State), hostOk p s = true →
    let x := s.well[k]
    let depth := 16 * 2 ^ fld x.cfg 14 12
    let data : BitVec 64 := v ++ (match p with | .pcie _ => x.stagePcie | .spi => x.stageSpi)
    let view (y : Well) : List (BitVec 64 × BitVec 2) := y.items.map fun i => (i.data, i.tag)
    let writer : Prop := x.en = true ∧ fld x.cfg 31 26 = 1
    let used := x.items.length + x.freedIn s.tb.clk
    let full : Prop := (x.gcnt = 0 ∧ depth ≤ used) ∨ (x.gcnt ≠ 0 ∧ depth < used + 2)
    (Ends (.wellPushLoWrite p k v) s fun z =>
      z.well = s.well.set k (match p with | .pcie _ => { x with stagePcie := v } | .spi => { x with stageSpi := v }) ∧
      OnlyIn [.well] s z) ∧
    (writer → ¬ full → Ends (.wellPushHiWrite p k v) s fun z =>
      view z.well[k] = view x ++ (if x.gcnt = 0 then [] else [(x.gcnt.setWidth 64, 1)]) ++ [(data, 0)] ∧
      z.well[k].seen s.tb.clk = x.seen s.tb.clk ∧
      OthersKept k s.well z.well ∧ z.well[k].gcnt = 0 ∧ z.well[k].stat = x.stat ∧ z.well[k].cfg = x.cfg ∧
      OnlyIn [.well, .te, .rcd] s z ∧
      (x.items ≠ [] → OnlyIn [.well] s z)) ∧
    (writer → full → Ends (.wellPushHiWrite p k v) s fun z =>
      z.well = s.well.set k { x with
        gcnt := BitVec.ofNat 32 (min (2 ^ 32 - 1) (x.gcnt.toNat + 1)), drop := BitVec.ofNat 8 (min 255 (x.drop.toNat + 1))
        stat := x.stat ||| 1 } ∧ OnlyIn [.well] s z) ∧
    (¬ writer → Ends (.wellPushHiWrite p k v) s fun z =>
      z.well = s.well.set k { x with
        refused := BitVec.ofNat 8 (min 255 (x.refused.toNat + 1)), stat := x.stat ||| 4 } ∧ OnlyIn [.well] s z)

/-- A host read of the low half removes the oldest item that is seen in its cycle, the first removal of that cycle (R299), and shows its tag; of an empty well it returns the idle item; a host that is
not the reader gets 0, is refused and counted (R298, R300, R302, R304). A PCI Express read keeps the high half for its requester (R71). -/
def Says.WellPops : Prop :=
  ∀ (p : Port) (k : Fin 64) (s : State), Safety.safeServed s → hostOk p s = true → s.well[k].freedIn s.tb.clk = 0 →
    let x := s.well[k]
    let reader : Prop := x.en = true ∧ fld x.cfg 23 18 = 1
    let leads (v : BitVec 64) (f : Well → Prop) : Prop := Does (.wellPopLoRead p k) s fun t =>
      t.out = s.out ++ [.readData p (v.setWidth 32)] ∧ f t.well[k] ∧ t.well[k].cfg = x.cfg ∧ t.well[k].en = x.en ∧
      t.well[k].gcnt = x.gcnt ∧ OthersKept k s.well t.well ∧
      (∀ rid, p = .pcie rid → t.shadows = (⟨rid, .wellPop k, (v >>> 32).setWidth 32, true⟩ ::
        s.shadows.filter fun q => decide (q.rid ≠ rid)).take 8) ∧
      (p = .spi → t.shadows = s.shadows) ∧ OnlyIn [.out, .well, .shadows] s t
    (reader → x.seen s.tb.clk = [] → leads x.idle fun y => y = { x with lastTag := 2 }) ∧
    (reader → ∀ (i : Item) (l : List Item), x.seen s.tb.clk = i :: l →
      (i.ok = true → leads i.data fun y =>
        y.items = x.items.drop 1 ∧ y.lastTag = i.tag ∧ y.parerr = x.parerr ∧ y.stat = x.stat) ∧
      (i.ok = false → leads i.data fun y =>
        y.items = x.items.drop 1 ∧ y.lastTag = 3 ∧ y.parerr.toNat = min 255 (x.parerr.toNat + 1) ∧ y.stat = x.stat ||| 2)) ∧
    (¬ reader → leads 0 fun y => y = { x with
      refused := BitVec.ofNat 8 (min 255 (x.refused.toNat + 1)), stat := x.stat ||| 4 })

/-- Wells.
It rests on the model's own reading in logs 7 and 28. -/
def Obligations.Wells : Prop :=
  WellCommands ∧ WellPushes ∧ WellPops


/-- The pump commands: `START` of a stopped pump with a legal ring size runs it; `STOP` of a running one stops it once its accesses
have ended, of one in ERROR at once; TAIL moves within the ring, else its write is refused; from the other states a command is
refused, and `START` with a size above 10 is invalid (R16, R306, R307). -/
def Says.PumpCommands : Prop :=
  ∀ (p : Port) (u : Fin 8) (v : Word) (s : State), hostOk p s = true →
    let x := s.pump[u]
    let ok := { x.cmd with status := .ok }
    let inside : Prop := ((v.setWidth 16 : BitVec 16) - x.head).toNat ≤ 2 ^ (fld x.ringcfg 3 0 + 2)
    (x.state = .stopped → fld x.ringcfg 3 0 ≤ 10 → Ends (.pumpStart p u) s fun y =>
      y.pump = s.pump.set u { x with state := .run, cmd := ok } ∧ OnlyIn [.pump, .sys] s y) ∧
    (x.state = .run → Ends (.pumpStop p u) s fun y =>
      y.pump = s.pump.set u { x with state := .stopping, cmd := ok } ∧ OnlyIn [.pump] s y) ∧
    (x.state = .error → Ends (.pumpStop p u) s fun y =>
      y.pump = s.pump.set u { x with state := .stopped, cmd := ok } ∧ OnlyIn [.pump] s y) ∧
    (inside → Ends (.pumpTailWrite p u v) s fun y =>
      y.pump = s.pump.set u { x with tail := v.setWidth 16 } ∧ OnlyIn [.pump] s y) ∧
    (¬ inside → Ends (.pumpTailWrite p u v) s fun y =>
      y.pump = s.pump.set u { x with
        cmd := ⟨.stateRefused, BitVec.ofNat 8 (min 255 (x.cmd.refusals.toNat + 1))⟩ } ∧ OnlyIn [.pump] s y) ∧
    (let stays (c : Instr) (r : CmdReg) : Prop := Ends c s fun y => y.pump = s.pump.set u { x with cmd := r } ∧ OnlyIn [.pump] s y
     (s.sys.pwr = .active → 10 < fld x.ringcfg 3 0 → stays (.pumpStart p u) { x.cmd with status := .argInvalid }) ∧
     (s.sys.pwr = .active → fld x.ringcfg 3 0 ≤ 10 → x.state ≠ .stopped → stays (.pumpStart p u) (refused x.cmd)) ∧
     (x.state = .stopped ∨ x.state = .stopping → stays (.pumpStop p u) (refused x.cmd)))

/-- What a pump's own accesses rest on, for a statement about them alone: nothing else waits at the Cistern, no way is held, neither the pump nor its port
has used up this cycle, no bank is in initialisation, and nothing is left to the cycles that they take. -/
def Says.cisternIdle (u : Fin 8) (s : State) : Prop :=
  s.tb.running = true ∧ s.later = [] ∧ s.dom.safeNow = false ∧ s.cis.init = 0 ∧ s.cis.waiting = [] ∧
  (∀ q ∈ s.cis.returns, q.port ≠ 16 + u.val) ∧ s.cis.turn[16 + u.val]'(by omega) ≤ s.tb.clk ∧ s.pump[u].next ≤ s.tb.clk ∧
  ∀ (b : Fin 8) (k : Fin 4), ((s.cis.banks[b]).ways[k]).free ≤ s.tb.clk

/-- A running pump with a descriptor waiting and none in hand takes the one at HEAD (R307, R308): from a ring in the Cistern its three words are read through its ways (R283); from a ring in
host memory 24 bytes are requested, and their arrival puts it in hand. A descriptor of length 0, or with a reserved bit set, ends with an
argument error (R309). -/
def Says.DescriptorTaken : Prop :=
  ∀ (u : Fin 8) (s : State), s.pump[u].state = .run →
    let x := s.pump[u]
    let at_ := x.ring + BitVec.ofNat 64 (32 * (x.head.toNat % 2 ^ (fld x.ringcfg 3 0 + 2)))
    let held (y : State) (d : Desc) : Prop :=
      y.pump[u].desc = some d ∧ y.pump[u].moved = 0 ∧ y.pump[u].state = .run ∧ y.pump[u].head = x.head ∧ y.pump[u].tail = x.tail ∧
      y.pump[u].fetching = false ∧ (d.len = 0 ∨ fld d.d0 8 0 ≠ 0 → y.pump[u].fail = some 2) ∧ OthersKept u s.pump y.pump
    (x.desc = none → x.fetching = false → x.head ≠ x.tail →
      (bit x.ringcfg 31 = true → s.sys.bme = true → s.sys.dstate ≠ 3 → Ends (.descriptorTake u) s fun y =>
        y.out = s.out ++ [.hostReadReq u at_ 24] ∧
        y.pump = s.pump.set u { x with fetching := true, hostOut := [24] } ∧ OnlyIn [.pump, .out] s y) ∧
      (bit x.ringcfg 31 = false →
        let n := at_.toNat % 2 ^ 24 / 8
        cisternIdle u s → n + 2 < 2 ^ 21 →
        (∀ i, i < 3 → clean s (n + i) ∧ admits (s.cis.banks[bankOf (n + i)]).own (16 + u.val) false = true) → at_.toNat % 8 = 0 →
        Ends (.descriptorTake u) s fun y =>
          let w (i : Nat) : BitVec 64 := Memory.word s.cis.mem (n + i)
          held y ⟨(w 0).setWidth 32, ((w 0) >>> 32).toNat, w 1, w 2⟩ ∧ y.cis.mem = s.cis.mem ∧ y.cis.waiting = [] ∧
          OnlyIn [.tb, .cis, .pump] s y)) ∧
    (∀ a b c d e f : Word, x.fetching = true → x.hostOut = [24] → x.hostBuf = [] → x.fail = none →
      Ends (.hostReadCompletion u (.data [(a, false), (b, false), (c, false), (d, false), (e, false), (f, false)])) s fun y =>
        held y ⟨a, b.toNat, d ++ c, f ++ e⟩ ∧ OnlyIn [.pump] s y)

/-- The state of a pump that works on descriptor `d` and can move an element in this cycle: it waits for no access of its own. -/
def Says.working (s : State) (u : Fin 8) (d : Desc) (src dst : Nat) : Prop :=
  s.pump[u].state = .run ∧ s.pump[u].desc = some d ∧ s.pump[u].fail = none ∧ s.pump[u].half = none ∧
  s.pump[u].asked = false ∧ s.pump[u].next ≤ s.tb.clk ∧
  s.pump[u].moved < d.len ∧ bit d.d0 30 = false ∧ fld d.d0 28 26 = src ∧ fld d.d0 25 23 = dst ∧
  (∀ q ∈ s.cis.waiting, q.port ≠ 16 + u.val)

/-- One element moves, one in a cycle (R310, R311, R313): of a source in the Cistern the read is issued first, and with its data the
element goes on: to the Cistern as a write offered to its way, or to the shift engine whose turn it is, the low half first, where it
is discarded, counted as moved and marked if the engine was stopped since (R202); from a well to host memory, the oldest item
removed and its eight bytes written. Host data is requested first. With its source empty a pump waits. -/
def Says.ElementMoves : Prop :=
  ∀ (u : Fin 8) (d : Desc) (s : State),
    let x := s.pump[u]
    let n := (d.saddr.toNat % 2 ^ 24 + x.taken) / 8
    let clk := s.tb.clk
    (∀ dst, dst ≤ 3 → working s u d 0 dst → x.got = none → bit s.cis.init (bankOf n) = false → Ends (.elementMove u) s fun y =>
      y.cis = { s.cis with waiting := s.cis.waiting ++ [⟨16 + u, n % 2 ^ 21, .read, .pump⟩] } ∧
      y.pump = s.pump.set u { x with asked := true, taken := x.taken + 8, wait := false, next := clk + 1 } ∧ OnlyIn [.cis, .pump] s y) ∧
    (∀ v bad, working s u d 0 0 → x.got = some (v, bad) → Ends (.elementMove u) s fun y =>
      y.cis = { s.cis with waiting := s.cis.waiting ++ [⟨16 + u, (d.daddr.toNat % 2 ^ 24 + x.moved) / 8 % 2 ^ 21, .write v bad, .pump⟩] } ∧
      y.pump = s.pump.set u { x with got := none, wait := false, next := clk + 1 } ∧ OnlyIn [.cis, .pump] s y) ∧
    (∀ (k : Fin 64), fld d.d0 22 17 = k.val → working s u d 2 1 → s.well[k].en = true → fld s.well[k].cfg 23 18 = 0x20 + u.val →
      s.sys.bme = true → s.sys.dstate ≠ 3 → s.well[k].freedIn clk = 0 →
      (∀ (i : Item) (l : List Item), s.well[k].seen clk = i :: l → i.ok = true → i.tag = 0 → Ends (.elementMove u) s fun y =>
        y.well[k].items = s.well[k].items.drop 1 ∧ OthersKept k s.well y.well ∧
        (∃ bytes : List (Byte × Bool), y.out = s.out ++ [.hostWrite (d.daddr + BitVec.ofNat 64 x.moved) bytes] ∧
          bytes.length = 8 ∧ ∀ j, j < 8 → bytes[j]? = some ((i.data >>> (8 * j)).setWidth 8, false)) ∧
        y.pump = s.pump.set u { x with
          moved := x.moved + 8, offset := (x.offset + 8) % d.len, wait := false, next := clk + 1 } ∧
        OnlyIn [.well, .out, .pump] s y) ∧
      (s.well[k].seen clk = [] → Ends (.elementMove u) s fun y =>
        y.pump = s.pump.set u { x with wait := true } ∧ OnlyIn [.pump] s y)) ∧
    (∀ (e : Fin 32) (v : BitVec 64) (bad : Bool), fld d.d0 16 11 + x.moved / 4 % (fld d.d0 10 9 + 1) = e.val →
      working s u d 0 3 → x.got = some (v, bad) →
      let moves (y : State) : Prop :=
        y.pump[u].half = some ((v >>> 32).setWidth 32, bad) ∧ y.pump[u].got = none ∧ y.pump[u].moved = x.moved + 4 ∧
        y.pump[u].next = clk + 1 ∧ OthersKept u s.pump y.pump ∧ OnlyIn [.se, .pump] s y
      (x.stale.contains x.moved = false → s.se[e].txRoom clk = true → Ends (.elementMove u) s fun y =>
        y.se[e].tx = s.se[e].tx ++ [v.setWidth 32] ∧ y.se[e].rx = s.se[e].rx ∧ y.se[e].sr = s.se[e].sr ∧
        OthersKept e s.se y.se ∧ moves y) ∧
      (x.stale.contains x.moved = true → Ends (.elementMove u) s fun y =>
        y.se = s.se ∧ y.pump[u].resDisc = true ∧ moves y) ∧
      (x.stale.contains x.moved = false → s.se[e].txRoom clk = false → Ends (.elementMove u) s fun y =>
        y.pump = s.pump.set u { x with wait := true } ∧ OnlyIn [.pump] s y)) ∧
    (working s u d 1 0 → x.hostAsked = 0 → x.hostOut = [] → x.hostBuf = [] → s.sys.bme = true → s.sys.dstate ≠ 3 →
      d.len ≤ 512 → d.len ≤ 128 * 2 ^ s.sys.fn.maxRead.toNat → Ends (.elementMove u) s fun y =>
        y.out = s.out ++ [.hostReadReq u d.saddr d.len] ∧
        y.pump = s.pump.set u { x with hostAsked := d.len, hostOut := [d.len], wait := true } ∧ OnlyIn [.out, .pump] s y)

/-- The result of a descriptor (Table 10.6): its code, and the bytes moved. -/
def Says.isResult (w : Word) (code moved : Nat) : Prop := bit w 31 = true ∧ fld w 30 28 = code ∧ fld w 23 0 = moved % 2 ^ 24

/-- A descriptor ends (R312): its result is written to the ring, HEAD moves on and DONE counts; an error sets ERR, counts, and puts the pump in
ERROR unless it is to go on. A stopping pump whose element is done writes back its descriptor as STOPPED, or with the error that came
first, and stops, LASTCODE showing STOPPED; without Bus Master Enable it writes nothing and leaves HEAD (R306). Host data
joins what waits to be moved; an error of a host read ends the descriptor (R313). -/
def Says.DescriptorEnds : Prop :=
  ∀ (u : Fin 8) (d : Desc) (s : State),
    let x := s.pump[u]
    let at_ := x.ring + BitVec.ofNat 64 (32 * (x.head.toNat % 2 ^ (fld x.ringcfg 3 0 + 2))) + 0x18
    let inHost : Prop := bit x.ringcfg 31 = true ∧ s.sys.bme = true ∧ s.sys.dstate ≠ 3 ∧ (∀ q ∈ s.cis.waiting, q.port ≠ 16 + u.val)
    let wrote (y : State) (code : Nat) : Prop := ∃ (w : Word) (bytes : List (Byte × Bool)), isResult w code x.moved ∧
      y.out = s.out ++ [.hostWrite at_ bytes] ∧ bytes.length = 4 ∧
      ∀ j, j < 4 → bytes[j]? = some ((w >>> (8 * j)).setWidth 8, false)
    let over_ (y : State) (code : BitVec 3) : Prop :=
      y.pump[u].desc = none ∧ y.pump[u].head = x.head + 1 ∧ y.pump[u].lastCode = code ∧ y.pump[u].tail = x.tail ∧
      (bit d.d0 31 = true → bit y.pump[u].stat 0 = true) ∧ OthersKept u s.pump y.pump
    (x.desc = some d → x.state = .run → x.hostOut = [] →
      (x.fail = none → bit d.d0 30 = false → d.len ≤ x.moved → inHost → Ends (.descriptorEnd u) s fun y =>
        wrote y 0 ∧ over_ y 0 ∧ y.pump[u].done.toNat = min 255 (x.done.toNat + 1) ∧ y.pump[u].state = .run ∧ OnlyIn [.pump, .out] s y) ∧
      (x.fail = none → bit d.d0 30 = false → d.len ≤ x.moved → bit x.ringcfg 31 = false → cisternIdle u s →
        let n := at_.toNat % 2 ^ 24 / 8
        clean s n → admits (s.cis.banks[bankOf n]).own (16 + u.val) true = true → Memory.wf s.cis.mem = true →
        Ends (.descriptorEnd u) s fun y =>
          (∃ w : Word, isResult w 0 x.moved ∧ ∀ a : Nat, Memory.get y.cis.mem a =
            if 8 * n ≤ a ∧ a < 8 * n + 4 then (w >>> (8 * (a - 8 * n))).setWidth 8 else Memory.get s.cis.mem a) ∧
          y.cis = { s.cis with mem := y.cis.mem, banks := y.cis.banks } ∧ over_ y 0 ∧ y.pump[u].done.toNat = min 255 (x.done.toNat + 1) ∧
          OnlyIn [.pump, .cis] s y) ∧
      (∀ code : BitVec 3, 2 ≤ code.toNat → x.fail = some code → inHost → Ends (.descriptorEnd u) s fun y =>
        wrote y code.toNat ∧ over_ y code ∧ y.pump[u].err.toNat = min 255 (x.err.toNat + 1) ∧ bit y.pump[u].stat 3 = true ∧
        y.pump[u].state = (if bit x.cfg 30 then .run else .error) ∧ OnlyIn [.pump, .out] s y)) ∧
    (x.state = .stopping → x.hostOut = [] → x.asked = false → x.got = none → x.half = none →
      (x.desc = some d → x.fail = none → inHost → Ends (.stoppingEnd u) s fun y =>
        wrote y 1 ∧ over_ y 1 ∧ y.pump[u].state = .stopped ∧ OnlyIn [.pump, .out] s y) ∧
      (∀ code : BitVec 3, 2 ≤ code.toNat → x.desc = some d → x.fail = some code → inHost → Ends (.stoppingEnd u) s fun y =>
        wrote y code.toNat ∧ over_ y 1 ∧ y.pump[u].err.toNat = min 255 (x.err.toNat + 1) ∧ bit y.pump[u].stat 3 = true ∧
        y.pump[u].state = .stopped ∧ OnlyIn [.pump, .out] s y) ∧
      (x.desc = some d → bit x.ringcfg 31 = true → s.sys.bme = false → (∀ q ∈ s.cis.waiting, q.port ≠ 16 + u.val) →
        Ends (.stoppingEnd u) s fun y =>
          y.pump[u].state = .stopped ∧ y.pump[u].desc = none ∧ y.pump[u].head = x.head ∧ y.pump[u].lastCode = 1 ∧
          OthersKept u s.pump y.pump ∧ OnlyIn [.pump] s y) ∧
      (x.desc = none → (∀ q ∈ s.cis.waiting, q.port ≠ 16 + u.val) → Ends (.stoppingEnd u) s fun y =>
        y.pump[u].state = .stopped ∧ y.pump[u].head = x.head ∧ y.pump[u].lastCode = 1 ∧ OthersKept u s.pump y.pump ∧
        OnlyIn [.pump] s y)) ∧
    (∀ (n : Nat) (rest : List Nat) (l : List (Word × Bool)), x.state = .run → x.fetching = false → x.fail = none → x.hostOut = n :: rest →
      (n = 4 * l.length → Ends (.hostReadCompletion u (.data l)) s fun y =>
        y.pump = s.pump.set u { x with hostOut := rest, hostBuf := x.hostBuf ++ l } ∧ OnlyIn [.pump] s y) ∧
      (Ends (.hostReadCompletion u .error) s fun y =>
        y.pump = s.pump.set u { x with hostOut := rest, fail := some 4 } ∧ OnlyIn [.pump] s y))

/-- Pumps.
It rests on the model's own reading in logs 9, 32, 33, 34 and 68. -/
def Obligations.Pumps : Prop :=
  PumpCommands ∧ DescriptorTaken ∧ ElementMoves ∧ DescriptorEnds


/-! The interrupt controller. -/

/-- Source `n` of target `h` may be claimed in class `fast` (R328): routed there, enabled with a priority, pending and not
active, its priority above the threshold and, in STACKED, above that of the source on top of the stack. -/
def Says.claimable (s : State) (h : Fin 32) (fast : Bool) (n : Nat) : Prop :=
  let x := icSrc s h n
  let c := if fast then s.ic.tgt[h].fast else s.ic.tgt[h].normal
  n < 512 ∧ (496 ≤ n ∨ fld x.cfg 20 16 = h.val) ∧ bit x.cfg 30 = fast ∧ bit x.cfg 31 = true ∧ fld x.cfg 3 0 ≠ 0 ∧
  x.active = false ∧ (if fld x.cfg 29 28 = 0 then x.live else x.pend) = true ∧ c.thr.toNat < fld x.cfg 3 0 ∧
  ∀ top, s.ic.flat = false → c.stack.head? = some top → fld (icSrc s h top).cfg 3 0 < fld x.cfg 3 0

/-- The sources but `n` of target `h`, and the other targets, are unchanged. -/
def Says.otherSources (h : Fin 32) (n : Nat) (s t : State) : Prop :=
  (∀ k : Fin 496, k.val ≠ n → t.ic.src[k] = s.ic.src[k]) ∧
  (∀ j : Fin 16, 496 + j.val ≠ n → (t.ic.tgt[h]).priv[j] = (s.ic.tgt[h]).priv[j]) ∧
  OthersKept h s.ic.tgt t.ic.tgt ∧ t.ic = { s.ic with src := t.ic.src, tgt := t.ic.tgt }

/-- Target `h` with its class `fast` changed, its private sources as in `t`. -/
def Says.classIs (h : Fin 32) (fast : Bool) (s t : State) (f : IcClass → IcClass) : Prop :=
  t.ic.tgt[h] = { s.ic.tgt[h] with
    priv := t.ic.tgt[h].priv
    normal := if fast then s.ic.tgt[h].normal else f s.ic.tgt[h].normal
    fast := if fast then f s.ic.tgt[h].fast else s.ic.tgt[h].fast }

/-- A claim read returns the claimable source of the highest priority, the lowest number among equals, which becomes active and loses its
pending memory, and in STACKED goes on top of the stack (R328). With none it returns 0 and nothing moves; with a full stack it
returns 0 and sets DEEP. -/
def Says.ClaimTakesWinner : Prop :=
  ∀ (p : Port) (h : Fin 32) (fast : Bool) (s : State), hostOk p s = true →
    let c := if fast then s.ic.tgt[h].fast else s.ic.tgt[h].normal
    (∀ n, s.ic.flat = true ∨ c.stack.length < 8 → claimable s h fast n →
      (∀ m, claimable s h fast m → m ≠ n → fld (icSrc s h m).cfg 3 0 < fld (icSrc s h n).cfg 3 0 ∨
        (fld (icSrc s h m).cfg 3 0 = fld (icSrc s h n).cfg 3 0 ∧ n < m)) →
      Ends (.icClaimRead p h fast) s fun x =>
        x.out = s.out ++ [.readData p (BitVec.ofNat 32 (2 ^ 31 + n))] ∧
        icSrc x h n = { icSrc s h n with active := true, pend := false } ∧ otherSources h n s x ∧
        classIs h fast s x (fun k => if s.ic.flat then k else { k with stack := n :: k.stack }) ∧ OnlyIn [.ic, .out] s x) ∧
    (s.ic.flat = true ∨ c.stack.length < 8 → (∀ n, ¬ claimable s h fast n) → Ends (.icClaimRead p h fast) s fun x =>
      x.out = s.out ++ [.readData p 0] ∧ x.ic = s.ic ∧ OnlyIn [.out] s x) ∧
    (s.ic.flat = false → 8 ≤ c.stack.length → Ends (.icClaimRead p h fast) s fun x =>
      x.out = s.out ++ [.readData p 0] ∧
      x.ic = { s.ic with tgt := s.ic.tgt.set h { s.ic.tgt[h] with deep := true } } ∧ OnlyIn [.ic, .out] s x)

/-- A completion of an active source of its target and class makes it inactive; in STACKED it must be on top of the stack, which loses it
(R329). Another one counts as stray, or sets ORDER. A source still pending counts one event (R330, R332). UNWIND makes every active
source of a FLAT target and class inactive, is refused where none is active, and in STACKED is invalid beyond target 3 (R336). -/
def Says.CompletionRetires : Prop :=
  ∀ (p : Port) (h : Fin 32) (fast : Bool) (v : Word) (s : State), hostOk p s = true →
    let n := fld v 8 0
    let c := if fast then s.ic.tgt[h].fast else s.ic.tgt[h].normal
    let mine (m : Nat) : Prop := (496 ≤ m ∨ fld (icSrc s h m).cfg 20 16 = h.val) ∧ bit (icSrc s h m).cfg 30 = fast ∧
      (icSrc s h m).active = true
    let still : Prop := (if fld (icSrc s h n).cfg 29 28 = 0 then (icSrc s h n).live else (icSrc s h n).pend) = true ∧
      bit (icSrc s h n).cfg 31 = true ∧ fld (icSrc s h n).cfg 3 0 ≠ 0 ∧ n ≠ 498
    (mine n → s.ic.flat = true ∨ c.stack.head? = some n → Ends (.icCompleteWrite p h fast v) s fun x =>
      icSrc x h n = { icSrc s h n with active := false } ∧ otherSources h n s x ∧ OnlyIn [.ic] s x ∧
      (¬ still → classIs h fast s x fun k => if s.ic.flat then k else { k with stack := k.stack.drop 1 }) ∧
      (still → classIs h fast s x fun k => { k with
        stack := if s.ic.flat then k.stack else k.stack.drop 1, cur := BitVec.ofNat 8 (min 255 (k.cur.toNat + 1))
        timer := some (k.timer.getD 0) })) ∧
    (¬ mine n → s.ic.flat = true → Ends (.icCompleteWrite p h fast v) s fun x =>
      x.ic = { s.ic with tgt := s.ic.tgt.set h { s.ic.tgt[h] with
        stray := BitVec.ofNat 8 (min 255 (s.ic.tgt[h].stray.toNat + 1)) } } ∧ OnlyIn [.ic] s x) ∧
    (s.ic.flat = false → c.stack.head? ≠ some n → Ends (.icCompleteWrite p h fast v) s fun x =>
      x.ic = { s.ic with tgt := s.ic.tgt.set h { s.ic.tgt[h] with
        order := true, orderN := BitVec.ofNat 8 (min 255 (s.ic.tgt[h].orderN.toNat + 1)) } } ∧ OnlyIn [.ic] s x) ∧
    (s.ic.flat = true → (∃ m, m < 512 ∧ mine m) → Ends (.unwind p h fast) s fun x =>
      (∀ m, m < 512 → 496 ≤ m ∨ fld (icSrc s h m).cfg 20 16 = h.val → bit (icSrc s h m).cfg 30 = fast →
        icSrc x h m = { icSrc s h m with active := false }) ∧
      (∀ k : Fin 496, fld s.ic.src[k].cfg 20 16 ≠ h.val ∨ bit s.ic.src[k].cfg 30 ≠ fast → x.ic.src[k] = s.ic.src[k]) ∧
      OthersKept h s.ic.tgt x.ic.tgt ∧ x.ic.cmd = { s.ic.cmd with status := .ok } ∧ x.ic.flat = true ∧ OnlyIn [.ic] s x) ∧
    (s.ic.flat = true ∨ h.val ≤ 3 → (∀ m, m < 512 → ¬ mine m) → Ends (.unwind p h fast) s fun x =>
      x.ic.cmd = refused s.ic.cmd ∧ (s.ic.refie = true → Pulsed 448 s x) ∧ IcKept s.ic { x.ic with cmd := s.ic.cmd } ∧ OnlyIn [.ic] s x) ∧
    (s.ic.flat = false → 3 < h.val → Ends (.unwind p h fast) s fun x =>
      x.ic = { s.ic with cmd := { s.ic.cmd with status := .argInvalid } } ∧ OnlyIn [.ic] s x)

/-- Claims (R328) and completions. -/
def Obligations.InterruptClaims : Prop :=
  ClaimTakesWinner ∧ CompletionRetires


/-- The writes of the mode and of a source's configuration (R326, R327): a mode is taken while no source is active, STACKED only when no enabled source
is routed beyond target 3; a source's configuration is taken while it is not active, or keeps its class and target, in STACKED with a target of
0 to 3; its pending memory is cleared when an enabled one is disabled or it is sensed as a level, and the enabling of a disabled one that is
pending counts one event. Otherwise STATUS says why and nothing else moves but the pulse of a refusal (R16). -/
def Says.IcConfigurationWrites : Prop :=
  ∀ (p : Port) (k : Fin 496) (v : Word) (s : State), hostOk p s = true →
    let x := s.ic.src[k]
    let c := v &&& 0xF01F_000F
    let active : Prop := (∃ j : Fin 496, s.ic.src[j].active = true) ∨ ∃ (h : Fin 32) (j : Fin 16), ((s.ic.tgt[h]).priv[j]).active = true
    let far : Prop := bit v 31 = false ∧ ∃ j : Fin 496, bit s.ic.src[j].cfg 31 = true ∧ 3 < fld s.ic.src[j].cfg 20 16
    let No (c : Instr) : Prop := Ends c s fun y =>
      y.ic.cmd = refused s.ic.cmd ∧ (s.ic.refie = true → Pulsed 448 s y) ∧ IcKept s.ic { y.ic with cmd := s.ic.cmd } ∧ OnlyIn [.ic] s y
    let moves : Prop := bit x.cfg 30 ≠ bit v 30 ∨ fld x.cfg 20 16 ≠ fld v 20 16
    let z : Src := { x with cfg := c, pend := x.pend && (!bit x.cfg 31 || bit v 31) && decide (fld v 29 28 ≠ 0) }
    let t : Fin 32 := Fin.ofNat 32 (fld v 20 16)
    let counted : Prop := bit x.cfg 31 = false ∧ bit v 31 = true ∧ fld v 3 0 ≠ 0 ∧ (if fld v 29 28 = 0 then z.live else z.pend) = true
    (far → Ends (.icModeWrite p v) s fun y =>
      y.ic = { s.ic with cmd := { s.ic.cmd with status := .argInvalid } } ∧ OnlyIn [.ic] s y) ∧
    (¬ far → active → No (.icModeWrite p v)) ∧
    (¬ far → ¬ active → Ends (.icModeWrite p v) s fun y =>
      y.ic = { s.ic with flat := bit v 31, refie := bit v 0, cmd := { s.ic.cmd with status := .ok } } ∧ OnlyIn [.ic] s y) ∧
    (s.ic.flat = false → 3 < fld v 20 16 → Ends (.sourceConfigWrite p (.shared k) v) s fun y =>
      y.ic = { s.ic with cmd := { s.ic.cmd with status := .argInvalid } } ∧ OnlyIn [.ic] s y) ∧
    (s.ic.flat = true ∨ fld v 20 16 ≤ 3 → x.active = true → moves → No (.sourceConfigWrite p (.shared k) v)) ∧
    (s.ic.flat = true ∨ fld v 20 16 ≤ 3 → x.active = false ∨ ¬ moves → Ends (.sourceConfigWrite p (.shared k) v) s fun y =>
      (counted → y.ic = { s.ic with
        src := s.ic.src.set k z, tgt := s.ic.tgt.set t (s.ic.tgt[t].countOne (bit v 30)), cmd := { s.ic.cmd with status := .ok } }) ∧
      (¬ counted → y.ic = { s.ic with src := s.ic.src.set k z, cmd := { s.ic.cmd with status := .ok } }) ∧ OnlyIn [.ic] s y) ∧
    (∀ (h : Fin 32) (j : Fin 16), ((s.ic.tgt[h]).priv[j]).active = false → Ends (.sourceConfigWrite p (.priv h j) v) s fun y =>
      fld ((y.ic.tgt[h]).priv[j]).cfg 31 28 = fld v 31 28 ∧ fld ((y.ic.tgt[h]).priv[j]).cfg 3 0 = fld v 3 0 ∧
      fld ((y.ic.tgt[h]).priv[j]).cfg 20 16 = h.val ∧ y.ic.src = s.ic.src ∧ y.ic.cmd = { s.ic.cmd with status := .ok } ∧
      OthersKept h s.ic.tgt y.ic.tgt ∧ OnlyIn [.ic] s y)

/-- A hold of Table 11.2 keeps the messages of class `fast` of target `h`, which sleeps or not. -/
def Says.held (s : State) (h : Fin 32) (fast asleep : Bool) : Prop :=
  (fast = false ∧ ∃ n, n < 512 ∧ (496 ≤ n ∨ fld (icSrc s h n).cfg 20 16 = h.val) ∧ bit (icSrc s h n).cfg 30 = true ∧
    (icSrc s h n).active = true) ∨
  s.ic.msixEn = false ∨ s.ic.funcMask = true ∨
  (s.ic.msix[2 * h.val + (if fast then 1 else 0)]'(by have := h.isLt; split <;> omega)).mask = true ∨
  asleep = true ∨ s.sys.bme = false ∨ s.sys.dstate = 3

/-- A class that reaches its limit, or whose timer does, starts its count and timer anew, and its message is due in the next cycle or held; a
threshold by time pulses source 498 of the target (R332, R333). A target asleep with PME enabled signals one PME a sleep, also where a message is held
already (R335, R402); a threshold of the cycle in which SLEEP is written is judged by the old value. The message, in the cycle after the threshold, is its vector's
address and data, and is counted (R333, R334); one that was held goes out when no hold applies. A target that wakes sends what it holds from the next cycle on, and has the
threshold of each class that has counted. The PME repeats 100 ms after the last. `y` is the device in the cycle of the message, or of the repeat. -/
def Says.MessagesGoOut : Prop :=
  ∀ (p : Port) (h : Fin 32) (fast : Bool) (v : Word) (s y : State),
    let t := s.ic.tgt[h]
    let c := if fast then t.fast else t.normal
    let cls (x : State) : IcClass := if fast then x.ic.tgt[h].fast else x.ic.tgt[h].normal
    let asleep := if t.sleptAt = some s.tb.clk then t.slept else t.sleep
    let k : Fin 64 := ⟨2 * h.val + (if fast then 1 else 0), by have := h.isLt; split <;> omega⟩
    let others (s x : State) : Prop := OthersKept h s.ic.tgt x.ic.tgt ∧ x.ic = { s.ic with tgt := x.ic.tgt }
    let wakes (k : IcClass) : IcClass := if t.sleep && !bit v 31 && k.held then { k with ready := s.tb.clk + 1 } else k
    let pmes (s : State) : List OutItem := if s.sys.dlact = true ∧ s.sys.l23 = false then s.out ++ [.pme] else s.out
    let timeUp : Prop := ∃ n, c.timer = some n ∧ c.timeF.toNat ≤ n
    let judged (x : State) : Prop :=
      (c.held = true ∨ c.due = true → classIs h fast s x fun k => { k with cur := 0, timer := none }) ∧
      (c.held = false → c.due = false → held s h fast false → classIs h fast s x fun k => { k with cur := 0, timer := none, held := true, ready := s.tb.clk + 1 }) ∧
      (c.held = false → c.due = false → ¬ held s h fast false → classIs h fast s x fun k => { k with cur := 0, timer := none, due := true, ready := s.tb.clk + 1 })
    (c.limit ≤ c.cur → ¬ timeUp → asleep = false → Ends (.coalescingThreshold h fast) s fun x =>
      judged x ∧ x.ic.tgt[h].priv = t.priv ∧ others s x ∧ OnlyIn [.ic] s x) ∧
    (timeUp → asleep = false → Ends (.coalescingThreshold h fast) s fun x =>
      judged x ∧ (x.ic.tgt[h].priv[2]).live = true ∧ (h, 2) ∈ x.ic.privFalls ∧
      (fld (t.priv[2]).cfg 29 28 = 1 → (t.priv[2]).live = false → (x.ic.tgt[h].priv[2]).pend = true) ∧
      OthersKept h s.ic.tgt x.ic.tgt ∧ x.ic.src = s.ic.src ∧ OnlyIn [.ic] s x) ∧
    (c.limit ≤ c.cur → ¬ timeUp → asleep = true → t.pmen = true → t.pmesent = false → s.sys.pmeEn = true →
      Ends (.coalescingThreshold h fast) s fun x =>
        x.ic.tgt[h].pmesent = true ∧ x.sys = { s.sys with pmeStat := true, pmeAt := some (s.tb.clk + 40000000) } ∧ x.out = pmes s ∧
        cls x = { c with cur := 0, timer := none, held := c.held || !c.due, ready := if c.held ∨ c.due then c.ready else s.tb.clk + 1 } ∧ others s x ∧ OnlyIn [.ic, .sys, .out] s x) ∧
    (c.limit ≤ c.cur → ¬ timeUp → asleep = true → t.pmen = false ∨ t.pmesent = true ∨ s.sys.pmeEn = false →
      Ends (.coalescingThreshold h fast) s fun x =>
        classIs h fast s x (fun k => { k with
          cur := 0, timer := none, held := k.held || !k.due, ready := if k.held ∨ k.due then k.ready else s.tb.clk + 1 }) ∧ others s x ∧ OnlyIn [.ic] s x) ∧
    (s.tb.running = true → c.due = true ∨ c.held = true → y = runClk c.ready s →
      let late : Bool := !c.due && (y.ic.tgt[h]).sleep
      (¬ held y h fast late → Ends (.msixMessage h fast) s fun x =>
        x.out = y.out ++ [.msix k y.ic.msix[k].addr y.ic.msix[k].data] ∧ x.tb.clk = max s.tb.clk c.ready ∧
        cls x = { cls y with due := false, held := false } ∧
        (if fast then x.ic.tgt[h].msgf else x.ic.tgt[h].msgn).toNat =
          min 255 ((if fast then y.ic.tgt[h].msgf else y.ic.tgt[h].msgn).toNat + 1) ∧ others y x ∧ OnlyIn [.ic, .out] y x) ∧
      (held y h fast late → Ends (.msixMessage h fast) s fun x =>
        cls x = { cls y with due := false, held := true } ∧ others y x ∧ OnlyIn [.ic] y x)) ∧
    (hostOk p s = true → t.normal.cur = 0 → t.fast.cur = 0 → Ends (.targetSleepWrite p h v) s fun x =>
      x.ic = { s.ic with tgt := s.ic.tgt.set h { t with
        sleep := bit v 31, pmen := bit v 30, pmesent := t.pmesent && !(t.sleep && !bit v 31)
        sleptAt := some s.tb.clk, slept := asleep, normal := wakes t.normal, fast := wakes t.fast } } ∧ OnlyIn [.ic] s x) ∧
    (hostOk p s = true → t.sleep = true → bit v 31 = false → t.normal.cur ≠ 0 → t.fast.cur = 0 → t.normal.held = false →
      t.normal.due = false → Ends (.targetSleepWrite p h v) s fun x =>
        x.ic.tgt[h].sleep = false ∧ x.ic.tgt[h].pmesent = false ∧ x.ic.tgt[h].normal.cur = 0 ∧ x.ic.tgt[h].normal.timer = none ∧
        (x.ic.tgt[h].normal.due = true ∨ x.ic.tgt[h].normal.held = true) ∧ x.ic.tgt[h].fast = wakes t.fast ∧ others s x ∧ OnlyIn [.ic] s x) ∧
    (∀ n, s.sys.pmeAt = some n → s.sys.pmeStat = true → s.sys.pmeEn = true → s.tb.running = true → s.tb.clk ≤ n → y = runClk n s →
      Ends .pmeRepeat s fun x =>
        x.tb.clk = n ∧ x.sys = { y.sys with pmeAt := some (n + 40000000) } ∧ x.out = pmes y ∧ OnlyIn [.sys, .out] y x)

/-- The interrupt controller's configuration and its messages.
It rests on the model's own reading in logs 6, 8 and 56. -/
def Obligations.InterruptSetup : Prop :=
  IcConfigurationWrites ∧ MessagesGoOut


/-! The slope converters. -/

/-- T_INT as TMODE selects it, lengthened to 400 us under LP (R341 to R343, Table 12.1), and the settling time of the filter (R344). -/
def Says.integration (s : State) (x : Conv) : Nat :=
  let n := match fld x.cfg 25 24 with
    | 0 => x.tint.toNat | 1 => 8000000 | 2 => 6666667
    | _ => if s.scs.valid then s.scs.period.toNat else if bit x.cfg 23 then 6666667 else 8000000
  if bit x.cfg 31 then max n 160000 else n
def Says.settles (s : State) (x : Conv) : Nat :=
  let l (n : Nat) : Nat := if bit x.cfg 31 then max n 160000 else n
  (fld x.filt 31 30 + 1) * integration s x + match fld x.filt 29 27 with
    | 1 => l 8000000 | 2 => l 6666667 | 3 => l 8000000 + l 6666667 | 4 => l (fld x.filt 26 0) | _ => 0

/-- The converter's commands (R346 to R350, R361, Table 12.7): `START` with legal arguments goes to the input of scan entry 0; `STOP` abandons the work, drops and counts the requests that
waits, is ABORTED where it drops a marker under a status of QUEUED, and ends an open plausibility round MISSED where it drops that round's request (Table 12.5); a
self-calibration begins at once when stopped, or with the clock where DOZE has stopped it (R414), and waits its turn when running; the factory calibration is taken from SC_TRIM; an injection joins the queue,
is refused when it is full. A refusal pulses source 448 where REFIE is set (R16). -/
def Says.ConverterCommands : Prop :=
  ∀ (p : Port) (c : Fin 2) (v : Word) (s : State), hostOk p s = true →
    let x := s.sc[c]
    let answers (st : CmdStatus) : CmdReg := { x.cmd with status := st }
    let injects := x.injections
    let arguments : Prop := (fld x.cfg 25 24 = 0 → 40000 ≤ x.tint.toNat ∧ x.tint.toNat ≤ 80000000) ∧ fld x.filt 29 27 ≤ 4 ∧
      (fld x.filt 29 27 = 4 → 40000 ≤ fld x.filt 26 0 ∧ fld x.filt 26 0 ≤ 80000000) ∧
      (bit x.bufCfg 31 = true → x.bufLen.toNat % 16 = 0 ∧ 32 ≤ x.bufLen.toNat)
    (arguments → x.st = .stopped → Ends (.scStart p c) s fun y =>
      y.sc = s.sc.set c { x with
        st := .run, entry := 0, done := 0, work := .scan, input := BitVec.ofNat 4 (fld x.scan[0] 3 0), settled := false
        phase := .switch (s.tb.clk + 4000), cmd := answers .ok } ∧ OnlyIn [.sc, .sys] s y) ∧
    (¬ arguments → Ends (.scStart p c) s fun y => y.sc = s.sc.set c { x with cmd := answers .argInvalid } ∧ OnlyIn [.sc, .sys] s y) ∧
    let asked : Prop := ∃ q, ScItem.inject q ∈ x.queue ∧ q.kind = 4 ∧ s.scs.round = some q.round
    (x.st ≠ .stopped → Ends (.scStop p c) s fun y =>
      y.sc[c].st = .stopped ∧ y.sc[c].phase = .rest ∧ y.sc[c].queue = [] ∧ y.sc[c].results = x.results ∧ y.sc[c].scan = x.scan ∧
      y.sc[c].ofs = x.ofs ∧ y.sc[c].gain = x.gain ∧ y.sc[c].cntInj.toNat = min 255 (x.cntInj.toNat + injects) ∧
      (injects ≠ 0 → bit y.sc[c].stat 4 = true) ∧ (x.work = .cal → bit y.sc[c].stat 3 = true) ∧
      y.sc[c].cmd = answers (if .cal ∈ x.queue ∧ x.cmd.status = .queued then .aborted else .ok) ∧ OthersKept c s.sc y.sc ∧ OnlyIn [.sc, .scs] s y ∧
      (¬ asked → y.scs = s.scs) ∧
      (asked → Pulsed 411 s y ∧
        y.scs = { s.scs with fail := true, cause := 3, round := none, failCnt := BitVec.ofNat 8 (min 255 (s.scs.failCnt.toNat + 1)) })) ∧
    (x.st = .stopped → x.work ≠ .cal → .cal ∉ x.queue → Ends (.selfCalibration p c) s fun y =>
      y.sc = s.sc.set c { x with
        st := .cal, work := .cal, calRaw := [], settled := false, phase := .switch (s.tb.clk + 4000), cmd := answers .ok } ∧
      (s.sys.pwr = .active → OnlyIn [.sc] s y) ∧ (s.sys.pwr ≠ .active → Later.standing ∈ y.later ∧ OnlyIn [.sc, .later] s y)) ∧
    (x.st ≠ .stopped → x.work ≠ .cal → .cal ∉ x.queue → Ends (.selfCalibration p c) s fun y =>
      y.sc = s.sc.set c { x with queue := x.queue ++ [.cal], cmd := answers (if injects = 0 then .ok else .queued) } ∧
      OnlyIn [.sc] s y) ∧
    (x.work ≠ .cal → .cal ∉ x.queue → Ends (.trimCalibration p c) s fun y =>
      y.sc = s.sc.set c { x with ofs := y.sc[c].ofs, gain := y.sc[c].gain, stat := x.stat ||| 4, calv := true, cmd := answers .ok } ∧
      y.sc[c].ofs.toInt = ((Config.factoryTrim c >>> 16).setWidth 16 : BitVec 16).toInt ∧
      y.sc[c].gain.toNat = (0x40_0000 + 4 * ((Config.factoryTrim c).setWidth 16 : BitVec 16).toInt).toNat ∧ OnlyIn [.sc] s y) ∧
    (x.st ≠ .stopped → injects < 8 → Ends (.inject p c) s fun y =>
      y.sc = s.sc.set c { x with queue := x.queue ++ [.inject { kind := 1, input := x.arg }], cmd := answers .ok } ∧ OnlyIn [.sc] s y) ∧
    (x.st = .stopped → Ends (.scBufLenWrite p c v) s fun y =>
      y.sc = s.sc.set c { x with bufLen := BitVec.ofNat 24 (fld v 23 0), wr := 0, rd := 0 } ∧ OnlyIn [.sc] s y) ∧
    (∀ i : Instr, (i ∈ [Instr.selfCalibration p c, .trimCalibration p c] ∧ (x.work = .cal ∨ .cal ∈ x.queue)) ∨
      (i = .inject p c ∧ (x.st = .stopped ∨ 8 ≤ injects)) ∨ (i = .scStart p c ∧ arguments ∧ x.st ≠ .stopped) ∨
      (i = .scStop p c ∧ x.st = .stopped) ∨ (i = .scBufLenWrite p c v ∧ x.st ≠ .stopped) → Ends i s fun y =>
        y.sc = s.sc.set c { x with cmd := refused x.cmd } ∧ (bit x.ie 16 = true → Pulsed 448 s y) ∧ OnlyIn [.sc, .sys] s y)

/-- The filter's output after an integration with input `l`, as a fraction, and the result (R344, R345): the offset taken off, scaled by the gain
over 2^22, truncated toward 0. -/
def Says.filtered (x : Conv) (l : List (Nat × Int)) : Int × Nat :=
  cascade x.stages (newest (x.stages.foldl (· + ·) 0) ((inputRuns x.len l).reverse ++ x.hist))
def Says.scaled (x : Conv) (l : List (Nat × Int)) : Int :=
  let raw := filtered x l
  Int.tdiv ((raw.1 - x.ofs.toInt * raw.2) * (x.gain.toNat : Int)) (raw.2 * 2 ^ 22)

/-- The filter without combs and of order 1 is the mean of its input over the latest integration: the sum over its cycles, over their number (R344). Of the runs
of cycles, newest first, `newest` keeps as many cycles as it is asked for and there are. -/
def Says.FilterMeans : Prop :=
  ∀ (n : Nat) (l : List (Nat × Int)),
    cascade [n] l = (sumOf (newest n l), n) ∧ cyclesOf (newest n l) = min n (cyclesOf l) ∧
    (cyclesOf l ≤ n → sumOf (newest n l) = sumOf l)

/-- An integration of a visit to a scan entry that asks for more records ends at its cycle (R344, R349, R354): settled, it forms a record
of the input, the result, the sequence number and the time, and the next integration begins; an unsettled one
delivers none. Each one's input enters the filter. An overload delivers a record of full scale with OVR, and a dump of 40 us follows (R353). `y` is the
device in that cycle; the block is clocked (R414). -/
def Says.IntegrationDelivers : Prop :=
  ∀ (c : Fin 2) (u : Nat) (l : List (Nat × Int)) (s y : State), s.tb.running = true → s.sys.pwr = .active → s.sc[c].phase = .integrate u → y = runClk u s →
    let z := y.sc[c]
    let now := y.tb.now
    z = s.sc[c] → y.sys.vanaOk = true → y.rcd.state ≠ .replay → z.work = .scan →
    z.done + 1 < fld (z.scan[z.entry.toNat]'z.entry.isLt) 31 24 → z.queue = [] → z.input.toNat = fld (z.scan[z.entry.toNat]'z.entry.isLt) 3 0 →
    let record (x : State) (r : Int) (ovr : Bool) : Prop := ∃ w : ScRecord,
      ((w.w0 >>> 8).setWidth 24 : BitVec 24) = BitVec.ofInt 24 r ∧ fld w.w0 7 4 = z.input.toNat ∧ bit w.w0 3 = ovr ∧
      fld w.w1 31 29 = 0 ∧ fld w.w1 28 28 = c.val ∧ fld w.w1 14 11 = z.entry.toNat ∧ fld w.w1 10 0 = z.seq.toNat ∧
      w.w2 = now.setWidth 32 ∧ w.w3 = (now >>> 32).setWidth 32 ∧
      (x.sc[c].last[z.input.toNat]'z.input.isLt) = w.w0 ∧ x.sc[c].seq = z.seq + 1 ∧ x.sc[c].done = z.done + 1 ∧
      (bit z.bufCfg 31 = false → x.sc[c].results = z.results) ∧
      (bit z.bufCfg 31 = true → z.results.length < 16 → x.sc[c].results = z.results ++ [w]) ∧
      (bit z.bufCfg 31 = true → 16 ≤ z.results.length → x.sc[c].results = z.results ∧ bit x.sc[c].stat 5 = true ∧
        x.sc[c].cntRdrop.toNat = min 255 (z.cntRdrop.toNat + 1))
    let leads (o : Option Bool) (f : State → Prop) : Prop := Ends (.integrationEnd c l o) s fun x =>
      f x ∧ x.sc[c].entry = z.entry ∧ x.sc[c].input = z.input ∧ x.sc[c].cmd = z.cmd ∧ OthersKept c y.sc x.sc ∧
      x.sc[c].hist = newest (z.stages.foldl (· + ·) 0) ((inputRuns z.len l).reverse ++ z.hist) ∧ OnlyIn [.sc, .rcd] y x
    let goesOn (x : State) : Prop := x.sc[c].phase = .integrate (y.tb.clk + integration y z) ∧ x.sc[c].len = integration y z
    (z.settled = true ∨ z.settleAt ≤ y.tb.clk → -(2 ^ 23) ≤ scaled z l → scaled z l < 2 ^ 23 → leads none fun x =>
      record x (scaled z l) false ∧ goesOn x ∧ x.sc[c].cntOvr = z.cntOvr) ∧
    (z.settled = true ∨ z.settleAt ≤ y.tb.clk → 2 ^ 23 ≤ scaled z l → leads none fun x => record x (2 ^ 23 - 1) true ∧ goesOn x) ∧
    (z.settled = true ∨ z.settleAt ≤ y.tb.clk → scaled z l < -(2 ^ 23) → leads none fun x => record x (-(2 ^ 23)) true ∧ goesOn x) ∧
    (z.settled = false → y.tb.clk < z.settleAt → leads none fun x =>
      goesOn x ∧ x.sc[c].done = z.done ∧ x.sc[c].seq = z.seq ∧ x.sc[c].results = z.results ∧ x.sc[c].last = z.last) ∧
    (∀ sign : Bool, leads (some sign) fun x =>
      record x (if sign then 2 ^ 23 - 1 else -(2 ^ 23)) true ∧ x.sc[c].phase = .dump (y.tb.clk + 16000) ∧ bit x.sc[c].stat 0 = true ∧
      x.sc[c].cntOvr.toNat = min 255 (z.cntOvr.toNat + 1))

/-- A switch or a dump ends: the filter restarts empty and an integration begins (R339, R344, R353), as it does at the end of an integration while the
analogue supply is not valid (R420). The sixth integration of a self-calibration gives the offset, the
mean of the first three, and the gain that maps the mean of the others to full scale, which are taken where the gain is in range; else CALFAIL
is set and the coefficients stay (R346). `y` is the device in the cycle of the end. -/
def Says.PhasesEnd : Prop :=
  ∀ (c : Fin 2) (u : Nat) (s y : State), s.tb.running = true → s.sys.pwr = .active → y = runClk u s → y.sc[c] = s.sc[c] →
    let z := y.sc[c]
    let begins (i : Instr) : Prop := Ends i s fun x =>
      OnlyIn [.sc] y x ∧
      x.sc = y.sc.set c { z with
        phase := .integrate (y.tb.clk + integration y z), settleAt := y.tb.clk + settles y z, settled := false
        len := integration y z, hist := [], fb := x.sc[c].fb } ∧
      (x.sc[c].fb = true ↔ fld z.cfg 25 24 = 3 ∧ y.scs.valid = false)
    (z.phase = .switch u → begins (.switchEnd c)) ∧ (z.phase = .dump u → begins (.dumpEnd c)) ∧
    (z.phase = .integrate u → y.sys.vanaOk = false → ∀ l o, begins (.integrationEnd c l o)) ∧
    (∀ (r0 r1 r2 r3 r4 : Int) (n0 n1 n2 n3 n4 : Nat) (l : List (Nat × Int)),
      z.phase = .integrate u → y.sys.vanaOk = true → z.work = .cal → z.st = .cal →
      z.calRaw = [(r4, n4), (r3, n3), (r2, n2), (r1, n1), (r0, n0)] → z.queue = [] → z.cmd.status ≠ .queued →
      let r5 := sumOf (inputRuns z.len l)
      let zero : Int := r0 * n1 * n2 + r1 * n0 * n2 + r2 * n0 * n1
      let high : Int := r3 * n4 * z.len + r4 * n3 * z.len + r5 * n3 * n4
      let ofs := Int.tdiv zero (3 * (n0 * n1 * n2))
      let gain := Int.tdiv (3 * (n3 * n4 * z.len) * (2 ^ 22 * (2 ^ 23 - 1))) (high - 3 * (n3 * n4 * z.len) * ofs)
      Ends (.integrationEnd c l none) s fun x =>
        x.sc[c].st = .stopped ∧ x.sc[c].phase = .rest ∧ x.sc[c].cmd = z.cmd ∧ x.sc[c].results = z.results ∧
        (0x20_0000 ≤ gain → gain ≤ 0x7F_FFFF → x.sc[c].ofs = BitVec.ofInt 24 ofs ∧ x.sc[c].gain = BitVec.ofInt 24 gain ∧
          x.sc[c].calv = true ∧ bit x.sc[c].stat 2 = true) ∧
        (gain < 0x20_0000 ∨ 0x7F_FFFF < gain → x.sc[c].ofs = z.ofs ∧ x.sc[c].gain = z.gain ∧ x.sc[c].calv = z.calv ∧
          bit x.sc[c].stat 3 = true) ∧
        OthersKept c y.sc x.sc ∧ OnlyIn [.sc] y x)

/-- Integrations, switches, dumps and the self-calibration.
It rests on the model's own reading in logs 37 and 57. -/
def Obligations.Conversions : Prop :=
  FilterMeans ∧ IntegrationDelivers ∧ PhasesEnd


/-- The mains measurement: the interval is the CCLK cycles between two rising edges of MAINS_SYNC. Eight valid intervals in a row make VALID and the period
their mean, each later one the mean of the latest eight; one that is not valid breaks the row before VALID and changes no period after it; 50 ms
without a valid one clear VALID and set MAINSLOSS of both converters (R342). `y` is the device in the cycle of the edge, or of the loss. -/
def Says.MainsMeasured : Prop :=
  ∀ (t : Stamp) (s y : State), s.tb.running = true → s.sys.pwr = .active → y.scs = s.scs →
    (∀ e n : Nat, y = runTo t s → s.scs.edge = some e → y.tb.clk = e + n →
      (∀ a b d f g h i : Nat, ∀ l : List Nat, 5714286 ≤ n → n ≤ 10000000 → s.scs.recent = a :: b :: d :: f :: g :: h :: i :: l →
        Ends (.mainsSyncEdge t) s fun x =>
          x.scs = { s.scs with
            valid := true, since := y.tb.clk, recent := [n, a, b, d, f, g, h, i], edge := some y.tb.clk
            period := BitVec.ofNat 27 ((n + a + b + d + f + g + h + i) / 8) } ∧ OnlyIn [.scs] y x) ∧
      (s.scs.recent.length < 7 → s.scs.valid = false → 5714286 ≤ n → n ≤ 10000000 → Ends (.mainsSyncEdge t) s fun x =>
        x.scs = { s.scs with since := y.tb.clk, recent := n :: s.scs.recent, edge := some y.tb.clk } ∧ OnlyIn [.scs] y x) ∧
      (n < 5714286 ∨ 10000000 < n → Ends (.mainsSyncEdge t) s fun x =>
        x.scs = { s.scs with recent := if s.scs.valid then s.scs.recent else [], edge := some y.tb.clk } ∧ OnlyIn [.scs] y x)) ∧
    (s.scs.valid = true → y = runClk (s.scs.since + 20000000) s → Ends .mainsSyncLoss s fun x =>
      x.scs = { s.scs with valid := false, recent := [] } ∧
      (∀ c : Fin 2, x.sc[c] = { y.sc[c] with stat := y.sc[c].stat ||| 2 }) ∧ OnlyIn [.sc, .scs] y x)

/-- A plausibility round begins at a frame boundary that PERIOD divides, each boundary once: both converters take a request for input 15 (R358). A round that a
new one overtakes, one whose request a converter does not take, and one without both records after TMO_F frame boundaries fail as MISSED, with
a pulse of source 411 (R359, Table 12.5). `y` is the device at that boundary. -/
def Says.PlausibilityRounds : Prop :=
  ∀ s y : State, s.tb.running = true → s.sys.pwr = .active →
    let period := fld s.scs.plsCfg 23 0
    let here : Prop := (s.tb.now.toNat / 64) % 1024 = 0 ∧ (s.tb.now.toNat / 65536) % period = 0 ∧ s.scs.began ≠ some s.tb.clk
    let missed (z : ScShared) : ScShared := { z with
      fail := true, cause := 3, round := none, failCnt := BitVec.ofNat 8 (min 255 (z.failCnt.toNat + 1)) }
    (bit s.scs.plsCfg 31 = true → (here → y = s) →
      (¬ here → y = runTo (BitVec.ofNat 64 ((s.tb.now.toNat / 65536 / period + 1) * period * 65536)) s) →
      let take : Prop := ∀ c : Fin 2, y.sc[c].st ≠ .stopped ∧ y.sc[c].injections < 8
      Ends .plausibilityRound s fun x =>
        OnlyIn [.sc, .scs] y x ∧
        (take → ∀ c : Fin 2, x.sc[c] = { y.sc[c] with queue := y.sc[c].queue ++ [.inject { kind := 4, input := 15, round := y.tb.clk }] }) ∧
        (take → y.scs.round = none → x.scs = { y.scs with round := some y.tb.clk, began := some y.tb.clk, r0 := none, r1 := none }) ∧
        (take → y.scs.round.isSome = true → Pulsed 411 y x ∧
          x.scs = { missed y.scs with round := some y.tb.clk, began := some y.tb.clk, r0 := none, r1 := none }) ∧
        (¬ take → y.scs.round = none → Pulsed 411 y x ∧ x.scs = { missed y.scs with began := some y.tb.clk, r0 := none, r1 := none })) ∧
    (∀ b : Nat, s.scs.round = some b → y = runClk ((b / 1024 + fld s.scs.plsTmo 23 0) * 1024) s → y.scs = s.scs →
      Ends .plausibilityTimeout s fun x => x.scs = missed s.scs ∧ Pulsed 411 y x ∧ OnlyIn [.scs] y x)

/-- The second record of the open plausibility round closes it (R359): the difference is kept; it fails when a record has OVR, else when the
difference exceeds the limit, each with a pulse of source 411, and passes otherwise. A record that a round now over has asked for is none of it
(R358). `y` is the device at the end of the integration. -/
def Says.PlausibilityJudged : Prop :=
  ∀ (c : Fin 2) (u : Nat) (l : List (Nat × Int)) (a : Int) (oa : Bool) (q : Injection) (s y : State),
    s.tb.running = true → s.sys.pwr = .active → s.sc[c].phase = .integrate u → y = runClk u s → y.sc[c] = s.sc[c] →
    let z := y.sc[c]
    let d := (scaled z l - a).natAbs
    y.sys.vanaOk = true → y.rcd.state ≠ .replay →
    z.work = .inject q → q.kind = 4 → z.settled = true → -(2 ^ 23) ≤ scaled z l → scaled z l < 2 ^ 23 →
    (y.scs.round = some q.round → (if c.val = 0 then y.scs.r1 else y.scs.r0) = some (a, oa) →
      Ends (.integrationEnd c l none) s fun x =>
        x.scs.diff = BitVec.ofNat 24 (min 0xFF_FFFF d) ∧ x.scs.round = none ∧
        (oa = false → d ≤ fld y.scs.plsLim 23 0 → x.scs.fail = y.scs.fail ∧ x.scs.failCnt = y.scs.failCnt) ∧
        (oa = true ∨ fld y.scs.plsLim 23 0 < d → x.scs.fail = true ∧ x.scs.cause = (if oa then 2 else 1) ∧ Pulsed 411 y x ∧
          x.scs.failCnt.toNat = min 255 (y.scs.failCnt.toNat + 1)) ∧
        OthersKept c y.sc x.sc ∧ OnlyIn [.sc, .scs, .rcd] y x) ∧
    (y.scs.round ≠ some q.round → Ends (.integrationEnd c l none) s fun x =>
      x.scs = y.scs ∧ (x.sc[c].last[z.input.toNat]'z.input.isLt) = (z.record c y.tb.now (scaled z l) false).w0 ∧
      OthersKept c y.sc x.sc ∧ OnlyIn [.sc, .rcd] y x)

/-- The commands of a converter, the mains measurement, plausibility.
It rests on the model's own reading in logs 7, 9, 37, 38 and 91. -/
def Obligations.ConverterControl : Prop :=
  ConverterCommands ∧ MainsMeasured ∧ PlausibilityRounds ∧ PlausibilityJudged


/-! The line link. -/

/-- Ports (Table 13.1): a port enabled in LINK_CFG leaves OFF for DOWN, one disabled goes OFF; training sets take a DOWN port to TRAIN. Training that fails ends in
DOWN; of a `DN` port, in BLOCKED when the partner is no `UP` port, the device is at depth 8, or no version is shared, else in UP with the lower version (R367, R368, R370). A port trains from READY on; before, `UP` alone does while the PLL has not locked, from OFF too, for the device to take its
clock from it (R410, R411). Each change pulses source 420. -/
def Says.PortsTrain : Prop :=
  ∀ (p : Port) (k : Fin 4) (v : Word) (s : State),
    let x := s.link.ports[k]
    let goes (i : Instr) (y : LinkPort) : Prop := Ends i s fun z =>
      z.link = { s.link with ports := s.link.ports.set k y, stat := s.link.stat ||| 16 } ∧ Pulsed 420 s z ∧ OnlyIn [.link] s z
    (hostOk p s = true → (∀ j : Fin 4, s.link.ports[j].state ≠ .up) → Ends (.linkCfgWrite p v) s fun z =>
      (∀ j : Fin 4, z.link.ports[j].state =
        if bit v (if j.val = 0 then 31 else 27 + j.val) then (if s.link.ports[j].state = .off then .down else s.link.ports[j].state) else .off) ∧
      fld z.link.cfg 31 28 = fld v 31 28 ∧
      z.link = { s.link with cfg := z.link.cfg, ports := z.link.ports, stat := z.link.stat } ∧ OnlyIn [.link] s z) ∧
    let trains : Prop := s.sys.ready = true ∨ (k.val = 0 ∧ s.sys.coreOk = true ∧ s.tb.running = false)
    (trains → x.state = .down → goes (.trainingStart k) { x with state := .train }) ∧
    (trains → s.sys.ready = false → x.state = .off → portEnabled s k = true → goes (.trainingStart k) { x with state := .train }) ∧
    (¬ trains → ∀ (g u : Bool) (pv : BitVec 2), ∀ i ∈ [Instr.trainingStart k, .portUp k g u pv], Ends i s fun z => OnlyIn [] s z) ∧
    (trains → x.state = .train →
      (∀ (u : Bool) (pv : BitVec 2), goes (.portUp k false u pv) { x with state := .down }) ∧
      (k.val ≠ 0 →
        (∀ pv : BitVec 2, goes (.portUp k true false pv) { x with state := .blocked, bcause := 3 }) ∧
        (∀ pv : BitVec 2, fld s.link.path 19 16 = 8 → goes (.portUp k true true pv) { x with state := .blocked, bcause := 1 }) ∧
        (fld s.link.path 19 16 ≠ 8 → goes (.portUp k true true 0) { x with state := .blocked, bcause := 2 }) ∧
        (∀ pv : BitVec 2, fld s.link.path 19 16 ≠ 8 → pv ≠ 0 → goes (.portUp k true true pv) { x with
          state := .up, bcause := 0, ver := BitVec.ofNat 2 (min pv.toNat (fld s.link.cfg 27 26)), missed := 0, got := false
          frame := none, r := 0 }))) ∧
    (x.state = .blocked → goes (.partnerSignalLoss k) { x with state := .down, bcause := 0, ver := 0 })

/-- The port `UP` in UP: the device takes its time from the parent, its time is not valid, and it is in OBSERVE (R374, R378, R389); a
transition that it had scheduled stays pending, which is the model's choice (log 72). A port in UP whose
signal is lost, or whose third frame without a link frame ends, goes DOWN (R373): a `DN` port drops and counts the messages queued for it (R391, R392);
at `UP` the device is the root again, and in RUN or HOLD enters SAFE where its mask says so (R369, R374, R250). `y` is the device at the end of that
frame. -/
def Says.PortsJoinAndLeave : Prop :=
  ∀ (k : Fin 4) (pv : BitVec 2) (s y : State),
    let x := s.link.ports[k]
    let goesDown (s : State) (i : Instr) (s' : State) : Prop := Ends i s' fun z =>
      z.link.ports[k] = { x with
        state := .down, bcause := 0, ver := 0, loss := BitVec.ofNat 8 (min 255 (x.loss.toNat + 1)), frame := none, got := false
        missed := 0, r := 0, queue := [], mdrop := BitVec.ofNat 8 (min 255 (x.mdrop.toNat + x.queue.length)) } ∧
      OthersKept k s.link.ports z.link.ports ∧ (x.queue ≠ [] → bit z.link.stat 6 = true) ∧ bit z.link.stat 4 = true ∧
      z.link = { s.link with ports := z.link.ports, stat := z.link.stat } ∧ Pulsed 420 s z ∧ OnlyIn [.link] s z
    (s.sys.ready = true ∨ (s.sys.coreOk = true ∧ s.tb.running = false) → s.link.ports[0].state = .train → pv ≠ 0 → s.rcd.state ≠ .replay → Ends (.portUp 0 true false pv) s fun z =>
      z.link.ports[0].state = .up ∧ z.link.ports[0].ver = BitVec.ofNat 2 (min pv.toNat (fld s.link.cfg 27 26)) ∧
      z.link.tvalid = false ∧ z.link.timef = false ∧ z.link.phase = 0 ∧ z.tb = { s.tb with src := true } ∧ z.dom = { s.dom with observe := true } ∧
      (∀ j : Fin 4, j.val ≠ 0 → z.link.ports[j] = s.link.ports[j]) ∧ OnlyIn [.link, .tb, .dom, .pin, .pins, .rcd] s z) ∧
    (k.val ≠ 0 → x.state = .up → goesDown s (.portLoss k true) s) ∧
    (k.val ≠ 0 → x.state = .up → 2 ≤ x.missed → x.got = false → s.tb.running = true → y = atItsBoundary s → y.link.ports[k] = x →
      goesDown y (.portLoss k false) s) ∧
    (s.link.ports[0].state = .up → Ends (.portLoss 0 true) s fun z =>
      z.link.ports[0].state = .down ∧ z.link.path = 0 ∧ z.link.tvalid = true ∧ z.link.timef = false ∧ z.link.mismatch = false ∧
      bit z.link.stat 0 = true ∧ z.tb = { s.tb with src := false, running := s.tb.running && !s.sys.noref } ∧
      z.dom = (if bit s.dom.mask 5 = true ∧ (s.dom.state = .run ∨ s.dom.state = .hold) then { s.dom with safeNow := true } else s.dom) ∧
      (∀ j : Fin 4, j.val ≠ 0 → z.link.ports[j] = s.link.ports[j]) ∧ OnlyIn [.link, .tb, .dom] s z)

/-- Ports of the line link.
It rests on the model's own reading in logs 13, 42 and 72. -/
def Obligations.LinkPorts : Prop :=
  PortsTrain ∧ PortsJoinAndLeave


/-- A link frame that comes in on a port in UP (R372, R375): one with a bad marker or code, or a bad CRC, is counted and discarded; an accepted one waits to
act in the next frame, and its time marker's stamp less its frame number is kept; of two in one frame the later one acts. In REPLAY it is discarded
whole (R440). -/
def Says.LinkFrameJudged : Prop :=
  ∀ (k : Fin 4) (f : LinkFrame) (s : State), s.link.ports[k].state = .up →
    let x := s.link.ports[k]
    let leads (y : LinkPort) : Prop := Ends (.linkFrameReceive k f) s fun z =>
      z.link = { s.link with ports := s.link.ports.set k y } ∧ OnlyIn [.link] s z
    (s.rcd.state = .replay → Ends (.linkFrameReceive k f) s fun z => OnlyIn [] s z) ∧
    (s.rcd.state ≠ .replay → f.marker = false ∨ f.codeOk = false → leads { x with code := BitVec.ofNat 8 (min 255 (x.code.toNat + 1)) }) ∧
    (s.rcd.state ≠ .replay → f.marker = true → f.codeOk = true → f.crcOk = false → leads { x with crc := BitVec.ofNat 8 (min 255 (x.crc.toNat + 1)) }) ∧
    (s.rcd.state ≠ .replay → f.marker = true → f.codeOk = true → f.crcOk = true → x.frame = none ∨ x.got = true → leads { x with
      got := true, frame := some f, r := ((f.stamp - (f.frame.setWidth 64 <<< 16)).setWidth 48 : BitVec 48).toInt })

/-- The parent's frame acts in cycle 1 or later (R393): the device takes its path (R370), and, where the parent had accepted a frame of it, measures the
offset and the delay of its time and their means over up to 16 frames, and moves its phase toward the parent by at most the rate, 64 or SLEW,
in a frame that asks for no step (R375, R377; log 73); it compares the digests (R387), and heeds the root: what is pending becomes its own, or ends with none pending, and another
state is taken at the next boundary (R388). `y` is the device
in that cycle. -/
def Says.ParentFrameActs : Prop :=
  ∀ (f : LinkFrame) (s y : State), s.tb.running = true →
    y = (if (s.tb.now.toNat / 64) % 1024 = 0 then runClk (s.tb.clk + 1) s else s) → y.link.ports[0] = s.link.ports[0] →
    let x := y.link.ports[0]
    let mean (l : List Int) : Word := BitVec.ofInt 32 (max (-(2 ^ 31)) (min (2 ^ 31 - 1) ((l.foldl (· + ·) 0).tdiv l.length)))
    let agrees : Prop := y.link.digest = f.down.digest ∧ y.link.dverAct = f.down.version
    let heeds : Prop := y.dom.state ≠ .safe ∧ y.dom.safeWait = false ∧ y.dom.observe = false ∧ y.link.obsDue = false ∧ agrees
    x.state = .up → x.frame = some f → x.got = false → s.rcd.state ≠ .replay →
    (∀ t : Fin 4, bit y.wt[t].cfg 30 = false) → f.msgs = [] → fld f.down.path 19 16 ≠ 8 →
    let acts (P : State → Prop) : Prop := Ends (.linkFrameAct 0) s fun z =>
      P z ∧ z.link.path = f.down.path ∧ z.link.rootdig = f.down.digest ∧ z.link.rootver = f.down.version ∧ z.link.rootCtl = f.down ∧
      z.link.tvalid = y.link.tvalid ∧ (z.link.mismatch = true ↔ ¬ agrees) ∧ (¬ agrees → bit z.link.stat 2 = true ∧ z.link.obsDue = true) ∧
      z.link.ports = y.link.ports.set 0 { x with frame := none } ∧
      (¬ heeds → z.dom = y.dom ∧ z.link.takeDue = y.link.takeDue) ∧
      (heeds → f.down.pend = true → ¬ (y.link.rootCtl.pend = true ∧ y.link.rootCtl.pstate = f.down.pstate ∧ y.link.rootCtl.eff = f.down.eff) →
        z.dom = { y.dom with pend := true, pstate := .ofCode f.down.pstate.toNat, eff := f.down.eff }) ∧
      (heeds → f.down.pend = true → y.link.rootCtl.pend = true ∧ y.link.rootCtl.pstate = f.down.pstate ∧ y.link.rootCtl.eff = f.down.eff → z.dom = y.dom) ∧
      (heeds → f.down.pend = false → z.dom = { y.dom with pend := false } ∧ z.link.takeDue =
        if y.dom.state = .ofCode f.down.state.toNat then y.link.takeDue else some (.ofCode f.down.state.toNat)) ∧
      OnlyIn [.link, .dom] y z
    (∀ r2 : Int, f.down.r2 = some r2 →
      let theta := Int.tdiv (x.r - r2 - y.link.hopadj.toInt) 2
      let rate := if y.link.tvalid then fld y.link.tlim 6 0 else 64
      theta.natAbs < 32768 → y.link.tvalid = false ∨ (f.tvalid = true ∧ y.link.badRun < 3) → acts fun z =>
        z.link.thetas = (theta :: y.link.thetas).take 16 ∧ z.link.delays = (Int.tdiv (x.r + r2) 2 :: y.link.delays).take 16 ∧
        z.link.tofs = mean z.link.thetas ∧ z.link.hopdly = mean z.link.delays ∧
        z.link.phase = y.link.phase - theta.sign * (min theta.natAbs rate : Nat)) ∧
    (f.down.r2 = none → y.link.tvalid = false ∨ f.tvalid = true → acts fun z =>
      z.link.thetas = y.link.thetas ∧ z.link.delays = y.link.delays ∧ z.link.tofs = y.link.tofs ∧ z.link.hopdly = y.link.hopdly ∧
      z.link.phase = y.link.phase ∧ z.link.goodRun = 0 ∧ z.link.badRun = 0)

/-- A parent whose time is not valid, or a fourth offset in a row beyond LIMIT, begins TIME_FAULT: the device's time is not valid, and cause 2 of
GUARD_FAULT asks for SAFE where the mask selects it (R378, R379, R250). -/
def Says.TimeFaultBegins : Prop :=
  ∀ (f : LinkFrame) (s : State),
    let x := s.link.ports[0]
    let beyond : Prop := ∃ r2 : Int, f.down.r2 = some r2 ∧
      fld s.link.tlim 31 16 < (Int.tdiv (x.r - r2 - s.link.hopadj.toInt) 2).natAbs ∧ 3 ≤ s.link.badRun
    let small : Prop := ∀ r2 : Int, f.down.r2 = some r2 → (Int.tdiv (x.r - r2 - s.link.hopadj.toInt) 2).natAbs < 32768
    x.state = .up → x.frame = some f → x.got = false → s.rcd.state ≠ .replay → (s.tb.now.toNat / 64) % 1024 ≠ 0 →
    (∀ t : Fin 4, bit s.wt[t].cfg 30 = false) → f.msgs = [] → fld f.down.path 19 16 ≠ 8 → s.link.tvalid = true → small →
    f.tvalid = false ∨ beyond →
    Ends (.linkFrameAct 0) s fun z =>
      z.link.tvalid = false ∧ z.link.timef = true ∧ bit z.link.stat 1 = true ∧ bit z.pins.fault 2 = true ∧
      (bit s.dom.mask 2 = true → z.dom.safeNow = true) ∧ OnlyIn [.link, .dom, .pins, .calm, .rcd] s z

/-- A message that a frame of a child brings for this device joins the receive queue, or is dropped and counted at its port when 16 wait (R394, R395). One for a
device below leaves by the `DN` port of the next hop, any other by `UP`; it is dropped and counted there when the port is not in UP, is of version 1, or holds
8. `SEND` stages a message for the next boundary, `RXPOP` removes the oldest received one; a full or an empty queue refuses them (R16, R395, R397). -/
def Says.LinkMessages : Prop :=
  ∀ (p : Port) (k : Fin 4) (f : LinkFrame) (m : LinkMsg) (s : State),
    let x := s.link.ports[k]
    let ok := { s.link.cmd with status := .ok }
    let link (i : Instr) (l : Link) : Prop := Ends i s fun z => z.link = l ∧ OnlyIn [.link] s z
    let No (i : Instr) : Prop := Ends i s fun z =>
      z.link = { s.link with cmd := refused s.link.cmd } ∧ (bit s.link.ie 16 = true → Pulsed 448 s z) ∧ OnlyIn [.link] s z
    (k.val ≠ 0 → s.link.ports[0].state = .up → x.state = .up → x.ver ≠ 1 → x.frame = some f → x.got = false → s.rcd.state ≠ .replay →
      (s.tb.now.toNat / 64) % 1024 ≠ 0 → f.msgs = [m] → m.bcast = false →
      (m.dst = s.link.path → s.link.rxq.length < 16 → Ends (.linkFrameAct k) s fun z =>
        z.link = { s.link with
          rxq := s.link.rxq ++ [m], stat := s.link.stat ||| 32, ports := s.link.ports.set k { x with frame := none } } ∧
        Pulsed 419 s z ∧ OnlyIn [.link, .rcd] s z) ∧
      (m.dst = s.link.path → 16 ≤ s.link.rxq.length → Ends (.linkFrameAct k) s fun z =>
        z.link = { s.link with
          stat := s.link.stat ||| 64
          ports := s.link.ports.set k { x with frame := none, mdrop := BitVec.ofNat 8 (min 255 (x.mdrop.toNat + 1)) } } ∧
        OnlyIn [.link] s z) ∧
      (∀ j : Fin 4, m.dst ≠ s.link.path → j ≠ k →
        let depth := fld s.link.path 19 16
        let below : Prop := depth < fld m.dst 19 16 ∧ (depth = 0 ∨ fld m.dst (2 * depth - 1) 0 = fld s.link.path (2 * depth - 1) 0)
        let hop := fld m.dst (2 * depth + 1) (2 * depth)
        let q := s.link.ports[j]
        (below ∧ hop < 3 ∧ j.val = hop + 1) ∨ (¬ below ∧ j.val = 0) →
        (q.state = .up → q.ver ≠ 1 → q.queue.length < 8 → Ends (.linkFrameAct k) s fun z =>
          z.link = { s.link with
            ports := (s.link.ports.set k { x with frame := none }).set j { q with queue := q.queue ++ [m] } } ∧ OnlyIn [.link] s z) ∧
        (q.state ≠ .up ∨ q.ver = 1 ∨ 8 ≤ q.queue.length → Ends (.linkFrameAct k) s fun z =>
          z.link = { s.link with
            stat := s.link.stat ||| 64
            ports := (s.link.ports.set k { x with frame := none }).set j { q with mdrop := BitVec.ofNat 8 (min 255 (q.mdrop.toNat + 1)) } } ∧
          OnlyIn [.link] s z))) ∧
    (hostOk p s = true →
      (s.link.txq.length < 8 → link (.linkSend p) { s.link with
        cmd := ok, txq := s.link.txq ++ [{ bcast := bit s.link.txh 31, type := BitVec.ofNat 8 (fld s.link.txh 27 20)
                                           dst := s.link.txh.setWidth 20, src := s.link.path, data := s.link.txd }] }) ∧
      (8 ≤ s.link.txq.length → No (.linkSend p)) ∧
      (s.link.rxq ≠ [] → link (.linkRxpop p) { s.link with cmd := ok, rxq := s.link.rxq.drop 1 }) ∧
      (s.link.rxq = [] → No (.linkRxpop p)))

/-- The link frames leave: a link frame has 640 characters, the marker first, the CRC-32 of characters 1 to 631 at 632 to 635, and four idle ones at the end
(Table 13.2; what its sections hold inside is `Config`'s, log 71). Each port in UP for which one was made sends it, with the first four messages of its queue,
on version 1 none: its queue is dropped and counted; the others keep theirs (R371, R394). -/
def Says.LinkFramesLeave : Prop :=
  (∀ (k : Fin 4) (f : LinkFrame),
    let l := frameCharacters k f
    let octet (c : LinkChar) : Byte := match c with | .data b => b | _ => Config.linkIdle
    let sum := crc32 (((l.drop 1).take 631).map octet)
    l.length = 640 ∧ l.head? = some .marker ∧
    (l.drop 632).take 4 = [.data (sum.setWidth 8), .data ((sum >>> 8).setWidth 8), .data ((sum >>> 16).setWidth 8), .data ((sum >>> 24).setWidth 8)] ∧
    l.drop 636 = List.replicate 4 .idle) ∧
  (∀ (k : Fin 4) (f : LinkFrame) (s : State), s.link.txq = [] → s.link.sending[k] = some f →
    (∀ j : Fin 4, j ≠ k → s.link.sending[j] = none) →
    let q := s.link.ports[k]
    let sends (g : LinkFrame) (p : LinkPort) (stat : BitVec 8) : Prop :=
      (sendFrames s).out = s.out ++ [.link k g (frameCharacters k g)] ∧
      (sendFrames s).link = { s.link with sending := Vector.replicate 4 none, ports := s.link.ports.set k p, stat := stat }
    (q.state = .up → q.ver ≠ 1 → sends { f with msgs := q.queue.take 4 } { q with queue := q.queue.drop 4 } s.link.stat) ∧
    (q.state = .up → q.ver = 1 → sends { f with msgs := [] }
      { q with queue := [], mdrop := BitVec.ofNat 8 (min 255 (q.mdrop.toNat + q.queue.length)) }
      (if q.queue = [] then s.link.stat else s.link.stat ||| 64)) ∧
    (q.state ≠ .up → (sendFrames s).out = s.out ∧ (sendFrames s).link = { s.link with sending := Vector.replicate 4 none }) ∧
    OnlyIn [.out, .link] s (sendFrames s))

/-- `COMMIT` in CONFIG or in OBSERVE makes the staged domain configuration the active one, with its version and the CRC-32 of its 32 words, which the Calm domain keeps a
copy of; in any other state it is refused, with a pulse of source 448 where REFIE is set (R16, R386, R424). -/
def Says.ConfigurationCommitted : Prop :=
  ∀ (p : Port) (s : State), hostOk p s = true →
    let bytes := (s.link.dcfgWheel.toList ++ s.link.dcfgUser.toList).flatMap fun w : Word =>
      [w.setWidth 8, (w >>> 8).setWidth 8, (w >>> 16).setWidth 8, (w >>> 24).setWidth 8]
    (s.dom.state = .config ∨ s.dom.observe = true → Ends (.linkCommit p) s fun z =>
      z.link = { s.link with
        wheelAct := s.link.dcfgWheel, dverAct := s.link.dver, digest := crc32 bytes, cmd := { s.link.cmd with status := .ok } } ∧
      z.calm = (if s.sys.vkeepOk then { s.calm with digest := crc32 bytes, dver := s.link.dver } else s.calm) ∧
      OnlyIn [.link, .calm] s z) ∧
    (s.dom.state ≠ .config → s.dom.observe = false → Ends (.linkCommit p) s fun z =>
      z.link = { s.link with cmd := refused s.link.cmd } ∧ (bit s.link.ie 16 = true → Pulsed 448 s z) ∧ OnlyIn [.link] s z)

/-- Messages, and the domain configuration (R424). -/
def Obligations.LinkDomain : Prop :=
  LinkMessages ∧ ConfigurationCommitted


/-- A step moves TB64 by whole frames at the boundary, and the markers kept with it (R376). OBSERVE ends at the root once its conditions have held for OBS_F
frames, at a boundary without another transition (R389, R23); another device then takes the root's state, and its pending transition unless that state is SAFE (R29, R389; log 76). A follower without data for STALE_F frames is lost (R385). `y` is the device at that
boundary. -/
def Says.LinkTimeAndJoining : Prop :=
  ∀ (n : Int) (t : Fin 4) (s y : State), s.tb.running = true → y = atItsBoundary s → y.link = s.link →
    (s.link.stepDue = some n → Ends .tbStep s fun z =>
      z.tb = { y.tb with now := y.tb.now - BitVec.ofInt 64 (n * 65536), frameDue := true } ∧ z.link.stepDue = none ∧ bit z.link.stat 3 = true ∧
      (∀ k : Fin 4, z.link.ports[k].r = y.link.ports[k].r - n * 65536) ∧ z.dom = y.dom ∧
      (∀ f, y.link.ports[0].frame = some f → z.link.ports[0].frame =
        some { f with down := { f.down with r2 := f.down.r2.map (· + n * 65536) } }) ∧
      OnlyIn [.tb, .dom, .ch, .te, .win, .wt, .pin, .pins, .job, .rcd, .link] y z) ∧
    (s.link.ports[0].state ≠ .up → y.dom.observe = true → s.link.tvalid = true → s.link.mismatch = false → y.dom.state ≠ .safe →
      y.dom.safeWait = false → faultActive y = false → y.rcd.state ≠ .replay → y.dom = s.dom → faultActive s = false →
      s.rcd.state ≠ .replay → y.dom.movedIn ≠ some (frame y) → fld s.link.cfg 15 8 ≤ s.link.obsRun + 1 →
      Ends .observeExit s fun z =>
        z.dom = { y.dom with observe := false } ∧ z.link = { y.link with obsRun := 0 } ∧ OnlyIn [.dom, .link, .pin, .pins, .rcd] y z) ∧
    (let c := y.link.rootCtl
     s.link.ports[0].state = .up → y.dom.observe = true → s.link.tvalid = true → s.link.mismatch = false → y.dom.state ≠ .safe →
      y.dom.safeWait = false → faultActive y = false → y.rcd.state ≠ .replay → y.dom = s.dom → faultActive s = false →
      s.rcd.state ≠ .replay → y.dom.movedIn ≠ some (frame y) → fld s.link.cfg 15 8 ≤ s.link.obsRun + 1 →
      Ends .observeExit s fun z =>
        z.dom.observe = false ∧ z.dom.state = .ofCode c.state.toNat ∧ (z.dom.pend = true ↔ c.pend = true ∧ c.state ≠ 4) ∧
        z.dom.pstate = .ofCode c.pstate.toNat ∧ z.dom.eff = c.eff ∧ z.link = { y.link with obsRun := 0 } ∧ OnlyIn (.link :: stateParts) y z) ∧
    (bit s.wt[t].cfg 30 = true → s.wt[t].st = .synced ∨ s.wt[t].st = .holdover → y.wt = s.wt → s.link.ports[0].state = .up →
      s.link.ports[0].got = false → bit s.link.fed s.link.follow[t].toNat = false → fld s.link.cfg 7 0 ≤ s.link.stale[t] + 1 →
      Ends (.followStale t) s fun z =>
        z.wt[t].st = .lost ∧ z.wt[t].cause = 7 ∧ z.wt[t].losts.toNat = min 255 (s.wt[t].losts.toNat + 1) ∧
        bit z.wt[t].stat 2 = true ∧ z.wt[t].valid = false ∧ OthersKept t y.wt z.wt ∧
        OnlyIn [.dom, .ch, .te, .wt, .pin, .pins, .job, .rcd, .calm] y z)

/-- Link frames, and what they bring: time, TIME_FAULT, steps, joining, staleness.
It rests on the model's own reading in logs 40, 41, 42, 43, 45, 71, 73 and 76. -/
def Obligations.LinkFrames : Prop :=
  LinkFramesLeave ∧ LinkFrameJudged ∧ ParentFrameActs ∧ TimeFaultBegins ∧ LinkTimeAndJoining


/-! Resets, supplies, power states, the PCI Express function. -/

/-- `x` is the device after a core reset of `s`: every register of the core at its reset value, the cause and the straps shown, the Calm domain, the validity of
the supplies and what has left the device kept, every source disabled, at the level that drives it; `pcie` says that the PCI Express endpoint is kept
(R408, R409, Table 14.3). The bands of the line-pin banks are with their supplies. -/
def Says.isReset (s x : State) (cause straps : BitVec 3) (pcie : Bool) : Prop :=
  let keep {α : Type} (a b : α) : α := if pcie then a else b
  OnlyIn [.pending, .free, .out, .calm, .sys, .pins, .ic] State.reset x ∧
  x.pending = s.pending ∧ x.out = s.out ∧ x.calm = { s.calm with faultClk := none } ∧
  x.pins = { State.reset.pins with vioOk := x.pins.vioOk, band := x.pins.band, vlvOk := s.pins.vlvOk } ∧
  x.sys = {
    strap := straps, cause := cause, crshold := bit straps 1, lock := false, ready := false, noref := false
    vanaOk := s.sys.vanaOk, vkeepOk := s.sys.vkeepOk, sleepL23 := false, pwrcmd := {}, pwr := .active, sren := true, stat := 0, ie := 5
    softAt := none, sleepAt := none, wakeSeen := none, spiErr := false, coreOk := true
    dlact := keep s.sys.dlact false, l23 := keep s.sys.l23 false, dstate := keep s.sys.dstate 0, width := keep s.sys.width 0
    speed := keep s.sys.speed 0, bme := keep s.sys.bme false, pmeEn := keep s.sys.pmeEn false, pmeStat := keep s.sys.pmeStat false
    fn := keep s.sys.fn {}, pmeAt := keep (s.sys.pmeAt.map (· - s.tb.clk)) none } ∧
  x.ic = { State.reset.ic with src := x.ic.src, msixEn := keep s.ic.msixEn false, funcMask := keep s.ic.funcMask false } ∧
  (∀ k : Fin 496, x.ic.src[k] = { ({} : Src) with live := x.ic.src[k].live })

/-- The supplies of the line pins are as they were. -/
def Says.banksKept (s x : State) : Prop := x.pins.vioOk = s.pins.vioOk ∧ x.pins.band = s.pins.band

/-- The core resets (R408, R409, Table 14.3): power-on, with cause WAKE after SLEEP, where each valid supply of a line-pin bank names its band (R450); `nRST` low for
1 us or more, while less than 100 ns has no effect, and what lies between has the effect that `Config` says; the return of the rails
after SLEEP; the loss of the only clock (R411); a SOFT reset, which keeps the straps and the endpoint (R413). A core rail that is lost holds the device in reset.
`y` is the device in the cycle of the SOFT reset. -/
def Says.CoreResets : Prop :=
  ∀ (v : BitVec 3) (n : Nat) (vio : Vector (Option VioBand) 8) (s y : State),
    (Ends (.powerOnReset ⟨v, vio⟩) s fun x => isReset s x (if s.sys.pwr = .sleep then 4 else 1) v false ∧
      x.pins.band = vio ∧ ∀ k : Fin 8, bit x.pins.vioOk k.val = vio[k].isSome) ∧
    (s.sys.coreOk = true → 1000 ≤ n ∨ (100 ≤ n ∧ Config.nrstGlitch n = true) → Ends (.nrstReset n v) s fun x =>
      isReset s x 2 v false ∧ banksKept s x) ∧
    (n < 100 ∨ (n < 1000 ∧ Config.nrstGlitch n = false) → Ends (.nrstReset n v) s fun x => OnlyIn [] s x) ∧
    (s.sys.pwr = .sleep → s.sys.sleepAt = none → s.calm.pwren = true → Ends (.wakeStartUp v) s fun x =>
      isReset s x 4 v false ∧ banksKept s x) ∧
    (s.sys.noref = true → Ends (.clockLossReset v) s fun x => isReset s x 5 v false ∧ banksKept s x) ∧
    (s.sys.softAt = some n → s.tb.running = true → y = runClk n s → Ends .softReset s fun x =>
      isReset y x 3 y.sys.strap true ∧ banksKept y x) ∧
    (∀ r : CoreRail, Ends (.coreRailLoss r) s fun x => banksKept s x ∧
      isReset s { x with sys := { x.sys with coreOk := true, pwr := .active, sleepAt := none } } s.sys.cause s.sys.strap false ∧
      x.sys.coreOk = false ∧ x.sys.pwr = s.sys.pwr ∧ x.sys.sleepAt = s.sys.sleepAt)

/-- Start-up (R410 to R412): with the PLL locked CCLK and TB64 run, and NOREF is 0; without it they run from the clock of `UP`, once that port is in UP, with NOREF 1.
RELEASE ends the hold of MODE1, once READY is 1; where nothing is held it changes nothing (R412). `RESET` with its key is accepted outside ARMED, RUN and HOLD, and acts 16 cycles later, or
with one that is under way; otherwise it is refused, and a wrong key is invalid (R413). -/
def Says.StartUp : Prop :=
  ∀ (p : Port) (key : BitVec 8) (s : State),
    let answers (st : CmdStatus) : CmdReg := { s.sys.pwrcmd with status := st }
    let atWork : Prop := s.dom.state = .armed ∨ s.dom.state = .run ∨ s.dom.state = .hold
    (s.sys.coreOk = true → s.tb.running = false → Ends .pllLock s fun x =>
      x.tb = { s.tb with running := true, frameDue := true } ∧ x.sys = { s.sys with noref := false } ∧ OnlyIn [.tb, .sys] s x) ∧
    (s.sys.coreOk = true → s.tb.running = false → s.link.ports[0].state = .up → Ends .norefStart s fun x =>
      x.tb = { s.tb with running := true, frameDue := true } ∧ x.sys = { s.sys with noref := true } ∧ OnlyIn [.tb, .sys] s x) ∧
    (hostOk p s = true → Ends (.sysBootRelease p) s fun x =>
      x.sys = { s.sys with crshold := false } ∧ (s.sys.crshold = false → x.sys = s.sys) ∧ OnlyIn [.sys] s x) ∧
    (s.sys.ready = false → Ends (.sysBootRelease p) s fun x => OnlyIn [] s x) ∧
    (hostOk p s = true →
      (key = 0xC3 → ¬ atWork → Ends (.sysReset p key) s fun x =>
        x.sys = { s.sys with softAt := some (s.sys.softAt.getD (s.tb.clk + 16)), pwrcmd := answers .ok } ∧ OnlyIn [.sys] s x) ∧
      (key = 0xC3 → atWork → Ends (.sysReset p key) s fun x =>
        x.sys = { s.sys with pwrcmd := refused s.sys.pwrcmd } ∧ (bit s.sys.ie 16 = true → Pulsed 448 s x) ∧ OnlyIn [.sys] s x) ∧
      (key ≠ 0xC3 → Ends (.sysReset p key) s fun x => x.sys = { s.sys with pwrcmd := answers .argInvalid } ∧ OnlyIn [.sys] s x))

/-- Core resets, start-up, RELEASE (R412) and RESET.
It rests on the model's own reading in logs 4, 13, 22, 50, 51 and 52. -/
def Obligations.ResetsAndStartUp : Prop :=
  CoreResets ∧ StartUp


/-- The PCI Express function (R398, R400 to R402, R410): before READY, or while it is held, a configuration request is answered with retry; then the registers of
Table 14.1 are read, in the layout of the standard, which is the model's (log 51), and Bus Master Enable, Memory Space Enable, the bases of the windows, the payload
and request sizes, the power state, PME_En, PME_Status, error reporting, Link Control, the error status, masks and severity, and the MSI-X control follow their writes. The data link's activation, of a legal width and
speed, and the entry into D3hot are seen (R415, R401); in D3hot a BAR request is answered with Unsupported Request, which the error status shows and, with no other unmasked error standing, the header log
(R401); what the log holds is a free value. -/
def Says.PcieFunction : Prop :=
  ∀ (b c : Bool) (rid : BitVec 16) (width speed : BitVec 4) (s : State), s.sys.coreOk = true → bit s.sys.strap 0 = false →
    let up : Prop := s.sys.ready = true ∧ s.sys.crshold = false
    let sys (i : Instr) (y : Sys) : Prop := Ends i s fun x => x.sys = y ∧ OnlyIn [.sys] s x
    let fn (r : CfgReq) (y : PciFn) : Prop := sys (.pcieConfigRequest r) { s.sys with fn := y }
    let reads (r : CfgReg) (v : Word) : Prop := Ends (.pcieConfigRequest (.read r)) s fun x => x.out = s.out ++ [.cfgData v] ∧ OnlyIn [.out] s x
    (¬ up → ∀ r : CfgReq, Ends (.pcieConfigRequest r) s fun x => x.out = s.out ++ [.cfgRetry] ∧ OnlyIn [.out] s x) ∧
    (up →
      reads .identity 0x9640_1F3C ∧ reads .revision 0x1180_00B0 ∧ reads (.bar 0) (s.sys.fn.bar0.setWidth 32 ||| 4) ∧
      reads (.bar 1) ((s.sys.fn.bar0 >>> 32).setWidth 32) ∧ reads (.bar 2) (s.sys.fn.bar2.setWidth 32 ||| 12) ∧
      reads (.bar 3) ((s.sys.fn.bar2 >>> 32).setWidth 32) ∧ reads (.bar 4) 0 ∧ reads (.bar 5) 0 ∧ reads .rom 0 ∧
      reads .aerStatus s.sys.fn.aer ∧
      (∃ w : Word, reads .command w ∧ bit w 2 = s.sys.bme ∧ bit w 1 = s.sys.fn.memOn) ∧
      (∃ w : Word, reads .pmControl w ∧ bit w 15 = s.sys.pmeStat ∧ bit w 8 = s.sys.pmeEn ∧ fld w 1 0 = s.sys.dstate.toNat) ∧
      (∃ w : Word, reads .msixCap w ∧ bit w 31 = s.ic.msixEn ∧ bit w 30 = s.ic.funcMask ∧ fld w 26 16 = 63) ∧
      (∃ w : Word, reads .devControl w ∧ fld w 14 12 = s.sys.fn.maxRead.toNat ∧ bit w 8 = s.sys.fn.extTag ∧
        fld w 7 5 = s.sys.fn.maxPayload.toNat) ∧
      (∃ w : Word, reads .linkStatus w ∧ fld w 25 20 = s.sys.width.toNat ∧ fld w 19 16 = s.sys.speed.toNat) ∧
      sys (.pcieConfigRequest (.busMaster b)) { s.sys with bme := b } ∧
      fn (.memorySpace b) { s.sys.fn with memOn := b } ∧ fn (.extendedTag b) { s.sys.fn with extTag := b } ∧
      (∀ a : BitVec 64, fn (.bar false a) { s.sys.fn with bar0 := (a >>> 22) <<< 22 } ∧ fn (.bar true a) { s.sys.fn with bar2 := (a >>> 24) <<< 24 }) ∧
      (∀ d : BitVec 3, fn (.payload d) { s.sys.fn with maxPayload := if d.toNat ≤ 1 then d else s.sys.fn.maxPayload } ∧
        fn (.readRequest d) { s.sys.fn with maxRead := if d.toNat ≤ 5 then d else s.sys.fn.maxRead }) ∧
      (∀ m : Word, fn (.clearErrors m) { s.sys.fn with aer := s.sys.fn.aer &&& ~~~ m }) ∧
      (∀ d : BitVec 2, sys (.pcieConfigRequest (.dstate d)) (if d = 0 ∨ d = 3 then { s.sys with dstate := d } else s.sys)) ∧
      sys (.pcieConfigRequest (.pmeEn b)) { s.sys with pmeEn := b, pmeAt := if b then s.sys.pmeAt else none } ∧
      sys (.pcieConfigRequest .clearPmeStatus) { s.sys with pmeStat := false, pmeAt := none } ∧
      (Ends (.pcieConfigRequest (.msixControl b c)) s fun x =>
        x.ic = { s.ic with msixEn := b, funcMask := c } ∧ OnlyIn [.ic] s x)) ∧
    sys .d3hotEntry { s.sys with dstate := 3 } ∧
    (s.sys.ready = true → s.tb.running = true → s.sys.dstate = 3 →
      ∀ i ∈ [Instr.sysBootRelease (.pcie rid), .sysWake (.pcie rid), .linkCommit (.pcie rid), .recStart (.pcie rid)], Ends i s fun x =>
        x.out = s.out ++ [.unsupported rid] ∧ x.sys = { s.sys with fn := { s.sys.fn with
          aer := s.sys.fn.aer ||| 0x10_0000, errs := s.sys.fn.errs + 1
          logged := if bit s.sys.fn.aerMask 20 = false ∧ s.sys.fn.aer &&& ~~~ s.sys.fn.aerMask = 0 then some s.sys.fn.errs else s.sys.fn.logged } } ∧
        OnlyIn [.out, .sys] s x) ∧
    (s.tb.running = true →
      (width = 1 ∨ width = 2 ∨ width = 4 → speed = 1 ∨ speed = 2 ∨ speed = 3 → sys (.dlActive width speed) { s.sys with
        dlact := true, l23 := false, width := width, speed := if bit s.sys.strap 2 then 1 else speed }) ∧
      (¬ (width = 1 ∨ width = 2 ∨ width = 4) ∨ ¬ (speed = 1 ∨ speed = 2 ∨ speed = 3) → sys (.dlActive width speed) s.sys)) ∧
    (up →
      reads .aerMask s.sys.fn.aerMask ∧ reads .aerSeverity s.sys.fn.aerSev ∧ reads .aerCorrectable s.sys.fn.corr ∧
      reads .aerCorrectableMask s.sys.fn.corrMask ∧
      (∃ w : Word, reads .devControl w ∧ fld w 3 0 = s.sys.fn.errEn.toNat) ∧
      (∃ w : Word, reads .linkStatus w ∧ fld w 15 0 = s.sys.fn.linkCtl.toNat) ∧
      (∀ k : Fin 4, s.sys.fn.logged = none → reads (.aerHeader k) 0) ∧
      (∀ (k : Fin 4) (n : Nat), s.sys.fn.logged = some n → reads (.aerHeader k) (Config.requestHeader n k)) ∧
      (∀ v : BitVec 4, fn (.errorReporting v) { s.sys.fn with errEn := v }) ∧
      (∀ v : BitVec 16, fn (.linkControl v) { s.sys.fn with linkCtl := v &&& 0xCB }) ∧
      (∀ v : Word, fn (.errorMask v) { s.sys.fn with aerMask := v &&& 0x17_F030 } ∧
        fn (.errorSeverity v) { s.sys.fn with aerSev := v &&& 0x17_F030 } ∧
        fn (.clearCorrectable v) { s.sys.fn with corr := s.sys.fn.corr &&& ~~~ v } ∧
        fn (.correctableMask v) { s.sys.fn with corrMask := v &&& 0x31C1 }))

/-- The PCI Express function, and the loss of the host.
It rests on the model's own reading in logs 6, 48, 51 and 56. -/
def Obligations.HostFunction : Prop :=
  PcieFunction ∧ HostLossActs


/-- What DOZE and SLEEP ask for (R415): CONFIG, every engine, pump, converter and the recorder at rest, no wake event latched. -/
def Says.restful (s : State) : Prop :=
  s.dom.state = .config ∧ (∀ e : Fin 16, s.te[e].state = .stopped ∨ s.te[e].state = .halted) ∧ (∀ e : Fin 32, s.se[e].st ≠ .run) ∧
  (∀ u : Fin 8, s.pump[u].state = .stopped) ∧ (∀ c : Fin 2, s.sc[c].st = .stopped) ∧ s.rcd.state = .idle ∧
  (s.sys.vkeepOk = true → s.calm.wsrc = 0)

/-- Sleep requests (R414 to R419): DOZE of a device at rest; SLEEP with VKEEP valid and the host link down, which disables the pin matrix as by `DISABLE` and
sets SLEPT, each from the next cycle (Table 14.8; `WakeSources`); refused otherwise; aborted by a wake event seen in the same cycle. L2/L3 Ready makes the request for SLEEP where SLEEPL23 is set. WAKE ends DOZE, and is refused in RUN. -/
def Says.SleepRequests : Prop :=
  ∀ (p : Port) (s : State), hostOk p s = true → s.sys.pwr ≠ .sleep →
    let answers (st : CmdStatus) : CmdReg := { s.sys.pwrcmd with status := st }
    let No (i : Instr) : Prop := Ends i s fun x =>
      x.sys = { s.sys with pwrcmd := refused s.sys.pwrcmd } ∧ (bit s.sys.ie 16 = true → Pulsed 448 s x) ∧ OnlyIn [.sys] s x
    let asleep (x : State) (y : Sys) : Prop :=
      x.sys = { y with pwr := .sleep, sleepAt := some s.tb.clk, pwrcmd := answers .ok } ∧ x.pins = { s.pins with cmdEn := false } ∧
      Later.matrix ∈ x.later ∧ Later.slept ∈ x.later ∧ (∀ a ∈ s.later, a ∈ x.later) ∧ OnlyIn [.sys, .pins, .later] s x
    let wakes : Prop := s.sys.wakeSeen = some s.tb.clk
    let deep : Prop := (s.sys.dlact = false ∨ bit s.sys.strap 0 = true) ∧ s.sys.vkeepOk = true
    (¬ wakes → restful s → Ends (.sysDoze p) s fun x => x.sys = { s.sys with pwr := .doze, pwrcmd := answers .ok } ∧ OnlyIn [.sys] s x) ∧
    (¬ wakes → ¬ restful s → No (.sysDoze p)) ∧
    (¬ wakes → restful s → deep → Ends (.sysSleep p) s fun x => asleep x s.sys) ∧
    (¬ wakes → ¬ (restful s ∧ deep) → No (.sysSleep p)) ∧
    (wakes → ∀ i ∈ [Instr.sysDoze p, .sysSleep p], Ends i s fun x =>
      x.sys = { s.sys with stat := s.sys.stat ||| 16, pwr := .active, pwrcmd := answers .aborted } ∧
      x.calm = (if s.sys.vkeepOk then { s.calm with abort := true } else s.calm) ∧ OnlyIn [.sys, .calm] s x) ∧
    (s.sys.pwr = .doze → Ends (.sysWake p) s fun x =>
      x.sys = { s.sys with pwr := .active, stat := s.sys.stat ||| 2, pwrcmd := answers .ok } ∧ OnlyIn [.sys] s x) ∧
    (s.sys.pwr = .active → No (.sysWake p)) ∧
    (s.sys.coreOk = true → bit s.sys.strap 0 = false → s.sys.dlact = true →
      (s.sys.sleepL23 = false → Ends .l23SleepRequest s fun x =>
        x.sys = { s.sys with l23 := true, dlact := false, width := 0, speed := 0 } ∧ OnlyIn [.sys] s x) ∧
      (s.sys.sleepL23 = true → ¬ wakes → restful s → s.sys.vkeepOk = true → Ends .l23SleepRequest s fun x =>
        asleep x { s.sys with l23 := true, dlact := false, width := 0, speed := 0 }))

/-- Wake sources (R417, R421, R425): the programmed edge of a `WAKE` pin, or the step of the timer into its match, which also pulses source 460, latches its bit and
counts; three cycles later the core sees it, source 452 pulses and DOZE ends. The cycle after the entry into SLEEP sets SLEPT; the Calm domain drives `PWREN` low
64 cycles after that entry, and CCLK stops; once a wake is latched and `PWREN` has been low for 33 periods of the oscillator it is driven high (R418). `y` is the
device three cycles, or 64 cycles, later. -/
def Says.WakeSources : Prop :=
  ∀ (i : Fin 4) (level : Bool) (s y : State), s.sys.vkeepOk = true →
    let latched (k : Nat) (c : Calm) : Calm := { c with
      wsrc := c.wsrc ||| BitVec.ofNat 8 (2 ^ k), wcount := BitVec.ofNat 8 (min 255 (c.wcount.toNat + 1)) }
    let seen (j : Instr) (s' : State) : Prop :=
      (s.tb.running = false → Ends j s fun x => x = s') ∧
      (s.tb.running = true → y = runClk (s.tb.clk + 3) s' → Ends j s fun x => Pulsed 452 y x ∧ OnlyIn [.sys] y x ∧
        x.sys = { y.sys with
          wakeSeen := some y.tb.clk, pwr := if y.sys.pwr = .doze then .active else y.sys.pwr
          stat := if y.sys.pwr = .doze then y.sys.stat ||| 2 else y.sys.stat })
    let mode := fld s.calm.wakecfg (4 * i.val + 1) (4 * i.val)
    let on := bit s.calm.wakecfg (4 * i.val + 2) = true ∧ ((mode = 0 ∧ level = true) ∨ (mode = 1 ∧ level = false) ∨ mode = 2)
    let pin : Calm := { s.calm with wake := s.calm.wake.set i level }
    let matched (c : Calm) : Calm := { c with
      timer := c.wakecmp, lowFor := if c.pwren then c.lowFor else min 33 (c.lowFor + c.toMatch) }
    let r := if s.tb.running then pulse 460 s else s
    (s.calm.wake[i] ≠ level → on → seen (.wakePinEdge i level) { s with calm := latched i.val pin }) ∧
    (s.calm.wake[i] ≠ level → ¬ on → Ends (.wakePinEdge i level) s fun x => x.calm = pin ∧ OnlyIn [.calm] s x) ∧
    (bit s.calm.wakecfg 16 = true → seen .calmTimerMatch { r with calm := latched 4 (matched s.calm) }) ∧
    (bit s.calm.wakecfg 16 = false → Ends .calmTimerMatch s fun x =>
      x.calm = matched s.calm ∧ (s.tb.running = true → Pulsed 460 s x) ∧ OnlyIn [.calm] s x) ∧
    (s.later = [.slept] → s.dom.safeNow = false → s.tb.running = true → y = advance 1 s →
      y.calm = { s.calm with slept := true } ∧ OnlyIn [.calm, .tb, .later] s y) ∧
    (∀ n, s.sys.sleepAt = some n → s.tb.running = true → y = runClk (n + 64) s → Ends .pwrenLow s fun x =>
      x.tb = { y.tb with running := false } ∧ x.calm = { y.calm with pwren := false, lowFor := 0 } ∧
      x.sys = { y.sys with sleepAt := none } ∧ OnlyIn [.calm, .sys, .tb] y x) ∧
    (s.calm.wsrc ≠ 0 → s.calm.pwren = false → 33 - s.calm.lowFor < s.calm.toMatch → Ends .pwrenHigh s fun x =>
      x.calm = { s.calm with pwren := true, lowFor := 33, timer := s.calm.timer + BitVec.ofNat 32 (33 - s.calm.lowFor) } ∧ OnlyIn [.calm] s x) ∧
    (s.calm.wsrc = 0 ∨ s.calm.pwren = true → Ends .pwrenHigh s fun x => OnlyIn [] s x)

/-- In DOZE and SLEEP nothing but what Table 14.7 names is clocked (R414): product lines, shift engines, the slope converters and their mains
and plausibility measurements, and what an engine's drain queue and pending values bring, stand. What a shift engine or a converter has been told meanwhile
begins with the clock: each cycle without one sets the beginning a cycle on (log 91). -/
def Says.BlocksStand : Prop :=
  ∀ s : State, s.sys.pwr ≠ .active →
    (∀ (t : Fin 4) (e : Fin 16) (k : Fin 32) (g : Fin 8) (c : Fin 2) (li : BitVec 8) (si : BitVec 4) (l : List (Nat × Int)) (o : Option Bool) (stamp : Stamp),
      ∀ i ∈ [Instr.bind t, .printStage t, .decision t, .gateAngle t, .safeSlotClose t, .completionRecord t, .drainQueueDelivery e, .pendingValueArrival e,
        .shift k li, .idleTick k, .shiftClockTick k, .awaitComplete k li si, .barrierRelease g, .fillComplete k, .drainComplete k, .illop k,
        .integrationEnd c l o, .dumpEnd c, .switchEnd c, .mainsSyncEdge stamp, .mainsSyncLoss, .plausibilityRound, .plausibilityTimeout],
      Ends i s fun x => x = s) ∧
    (s.later = [.standing] → s.tb.running = true → s.dom.safeNow = false →
      let y := advance 1 s
      (∀ k : Fin 32, y.se[k] = if s.se[k].st = .run then { s.se[k] with phAt := s.tb.clk + 1, nextAt := s.tb.clk + 2 } else s.se[k]) ∧
      (∀ (c : Fin 2) (u : Nat), s.sc[c].phase = .switch u → y.sc[c] = { s.sc[c] with phase := .switch (s.tb.clk + 4001) }) ∧
      (∀ c : Fin 2, (∀ u, s.sc[c].phase ≠ .switch u) → y.sc[c] = s.sc[c]) ∧
      Later.standing ∈ y.later ∧ OnlyIn [.tb, .later, .se, .sc] s y)

/-- The supplies (R420, R421): a change of VANA or VKEEP shows in SYS_SUPPLY and sets SUPPLY; the return of VKEEP resets the Calm domain. -/
def Says.Supplies : Prop :=
  ∀ (ok : Bool) (s : State),
    (s.sys.vanaOk ≠ ok → Ends (.vanaChange ok) s fun x => x.sys = { s.sys with vanaOk := ok, stat := s.sys.stat ||| 4 } ∧ OnlyIn [.sys] s x) ∧
    (s.sys.vkeepOk = true → Ends .vkeepLoss s fun x =>
      x.sys = { s.sys with vkeepOk := false, stat := s.sys.stat ||| 4 } ∧ OnlyIn [.sys] s x) ∧
    (s.sys.vkeepOk = false → Ends .calmPor s fun x =>
      x.sys = { s.sys with vkeepOk := true, stat := s.sys.stat ||| 4 } ∧ x.calm = { State.reset.calm with wake := s.calm.wake } ∧
      OnlyIn [.sys, .calm] s x)

/-- Sleep requests, wake sources, what stands without a clock, supplies.
It rests on the model's own reading in logs 20, 49, 50 and 91. -/
def Obligations.PowerStates : Prop :=
  SleepRequests ∧ WakeSources ∧ BlocksStand ∧ Supplies


/-! The recorder and replay. -/

/-- The recorder's commands (Table 15.2, R437): `START` in IDLE and CONFIG, with its bank handed to it, empties the ring and waits for the boundary; `REPLAY` of a root without children in
CONFIG waits for the next frame; of the two the later one stands, which is the model's choice (log 46). `STOP` of a recording drains it, of a replay ends it;
`FREEZE` of a wrapping one counts down the records after the trigger (R436). Elsewhere they are refused, with a pulse of source 448 where REFIE is set (R16). -/
def Says.RecorderCommands : Prop :=
  ∀ (p : Port) (s : State), hostOk p s = true →
    let r := s.rcd
    let ok := { r.cmd with status := .ok }
    let No (i : Instr) : Prop := Ends i s fun x =>
      x.rcd = { r with cmd := refused r.cmd } ∧ (bit r.ie 16 = true → Pulsed 448 s x) ∧ OnlyIn [.rcd, .sys] s x
    let owned : Prop := fld (s.cis.banks[(Fin.ofNat 8 (fld r.cfg 31 29) : Fin 8)]).own 31 30 = 3
    let alone : Prop := ∀ k : Fin 4, s.link.ports[k].state ≠ .up
    let leads (i : Instr) (y : Recorder) : Prop := Ends i s fun x => x.rcd = y ∧ OnlyIn [.rcd] s x
    (r.state = .idle → s.dom.state = .config → owned → Ends (.recStart p) s fun x =>
      x.rcd = { r with wr := 0, rd := 0, startDue := true, replayDue := none, cmd := ok } ∧ OnlyIn [.rcd, .sys] s x) ∧
    (¬ (r.state = .idle ∧ s.dom.state = .config ∧ owned) → No (.recStart p)) ∧
    (r.state = .idle → s.dom.state = .config → alone → leads (.recReplay p) { r with
      replayDue := some (frameOf s.tb.now + 1), startDue := false, divSeen := false, cmd := ok }) ∧
    (¬ (r.state = .idle ∧ s.dom.state = .config ∧ alone) → No (.recReplay p)) ∧
    (r.state = .record → leads (.recStop p) { r with state := .drain, frozen := false, cmd := ok }) ∧
    (r.state = .replay → Ends (.recStop p) s fun x =>
      x.rcd.state = .idle ∧ x.rcd.replayQ = [] ∧ x.rcd.inject = [] ∧ x.rcd.expect = [] ∧ x.rcd.extra = [] ∧ x.rcd.cmd = ok ∧
      OnlyIn [.rcd, .pin, .pins] s x) ∧
    (r.state = .idle ∨ r.state = .drain → No (.recStop p)) ∧
    (r.state = .record → bit r.cfg 28 = true → r.frozen = false → leads (.recFreeze p) { r with
      frozen := true, stat := r.stat ||| 2, postLeft := r.post.toNat, cmd := ok }) ∧
    (r.state ≠ .record ∨ bit r.cfg 28 = false ∨ r.frozen = true → No (.recFreeze p))

/-- Recording begins at the frame boundary with a TIME record and the frame as its origin (R429). Its records go to the ring as two writes of the recorder's port, one record a cycle,
once those of the one before have left, WR moves on (R432, R433),
and the rise of the level to the watermark is reported (R435). A frozen recording whose records after the trigger are taken drains (R436), and DRAIN
ends with its queue empty and its writes granted, with a pulse of source 442 (R438). The block is clocked where recording begins (R414). `y` is the device at the boundary, or in the cycle of the writes. -/
def Says.RecordingRuns : Prop :=
  ∀ (x : Record) (rest : List Record) (s y : State), s.tb.running = true → y.rcd = s.rcd →
    let r := s.rcd
    let level (r : Recorder) : Nat := (r.wr - r.rd).toNat
    let clear : Prop := ∀ q ∈ s.cis.waiting, q.port ≠ 24
    (r.startDue = true → y = atItsBoundary s → y.sys.pwr = .active → Ends .recordingBegin s fun z =>
      z.rcd.state = .record ∧ z.rcd.startDue = false ∧ z.rcd.frozen = false ∧ z.rcd.origin = frameOf y.tb.now ∧ z.rcd.lossPend = 0 ∧
      (∃ q : Record, z.rcd.queue = [q] ∧ q.type = 1 ∧ q.stamp = y.tb.now.setWidth 48 ∧ q.data = y.tb.now >>> 48) ∧
      z.rcd.wr = r.wr ∧ z.rcd.rd = r.rd ∧ OnlyIn [.rcd] y z) ∧
    (r.queue = x :: rest → r.state = .record ∨ r.state = .drain → bit r.cfg 28 = true ∨ level r ≠ 131072 → clear → y = runClk r.writeAt s →
      Ends .recordWrite s fun z =>
        (∃ a b : BitVec 64, fld a 63 32 = fld x.stamp 31 0 ∧ fld a 15 0 = fld x.stamp 47 32 ∧ fld a 25 16 = x.unit.toNat ∧
          fld a 31 26 = x.type.toNat ∧ b = x.data ∧
          z.cis = { y.cis with waiting := y.cis.waiting ++
            [⟨24, fld r.cfg 31 29 * 2 ^ 18 + 2 * (r.wr.toNat % 131072), .write a false, .none⟩,
             ⟨24, fld r.cfg 31 29 * 2 ^ 18 + 2 * (r.wr.toNat % 131072) + 1, .write b false, .none⟩] }) ∧
        z.rcd.queue = rest ∧ z.rcd.wr = r.wr + 1 ∧ z.rcd.rd = r.rd ∧ z.rcd.state = r.state ∧ z.rcd.writeAt = y.tb.clk + 1 ∧
        (bit r.cfg 28 = false → r.wm ≠ 0 → level r < r.wm.toNat → r.wm.toNat ≤ level z.rcd →
          bit z.rcd.stat 3 = true ∧ z.rcd.cross.toNat = min 255 (r.cross.toNat + 1) ∧ Pulsed 441 y z) ∧
        (bit r.cfg 28 = true ∨ level z.rcd < r.wm.toNat → z.rcd.stat = r.stat ∧ z.rcd.cross = r.cross) ∧ OnlyIn [.cis, .rcd] y z) ∧
    (¬ clear → Ends .recordWrite s fun z => OnlyIn [] s z) ∧
    (r.state = .record → r.frozen = true → r.postLeft = 0 → Ends .postCountDone s fun z =>
      z.rcd = { r with state := .drain, frozen := false } ∧ OnlyIn [.rcd] s z) ∧
    (r.state = .drain → r.queue = [] → clear → Ends .drainEnd s fun z =>
      z.rcd = { r with state := .idle } ∧ Pulsed 442 s z ∧ OnlyIn [.rcd] s z) ∧
    (r.state = .drain → ¬ clear → Ends .drainEnd s fun z => OnlyIn [] s z)

/-- The recorder's commands and a recording.
It rests on the model's own reading in log 46. -/
def Obligations.Recording : Prop :=
  RecorderCommands ∧ RecordingRuns


/-- A divergence of kind `kind` on record `x` at replay time `t`, without DSTOP: it is counted, and the first one is kept with its record and its time (R444). -/
def Says.diverged (r r' : Recorder) (kind : Nat) (x : Record) (t : Stamp) : Prop :=
  bit r'.stat 4 = true ∧ r'.dcnt.toNat = min (2 ^ 32 - 1) (r.dcnt.toNat + 1) ∧ r'.divSeen = true ∧
  (r.divSeen = true → r'.div = r.div) ∧
  (r.divSeen = false → r'.div = #v[BitVec.ofNat 32 (kind * 2 ^ 30) ||| BitVec.ofNat 32 (x.type.toNat * 2 ^ 10) ||| BitVec.ofNat 32 x.unit.toNat,
    x.data.setWidth 32, t.setWidth 32, (t >>> 32).setWidth 32])

/-- An output event of REPLAY is what an expected record says: type, unit, data and the replay time, fine bits included (R443). -/
def Says.matched (q x : Record) (t t' : Stamp) : Prop := q.type = x.type ∧ q.unit = x.unit ∧ q.data = x.data ∧ t = t'

/-- Replay begins at its boundary: the inputs read 0 and times are shifted from the origin (R439, R440). The replay queue takes records, of at most 512, else RPDROP is set (R441); its head goes
to the injection set when it is an input, and one whose cycle has passed is a divergence LATEIN (R442); it goes to the expect set when it is compared, unless the event has
happened already; an output event removes the expected record that it matches, and waits unmatched otherwise (R441 to R443). `y` is the device at the boundary. -/
def Says.ReplayRuns : Prop :=
  ∀ (p : Port) (v : Word) (x : Record) (rest : List Record) (f : BitVec 48) (s y : State),
    let r := s.rcd
    let t : Stamp := (r.replayHi ++ x.stamp : BitVec 64) + r.shift
    let compared : Prop := x.type = 4 ∨ x.type = 5 ∨ x.type = 6 ∨ x.type = 16
    (r.replayDue = some f → s.tb.running = true → y = runTo (f.setWidth 64 <<< 16) s → y.rcd = r → y.sys.pwr = .active → Ends .replayBegin s fun z =>
      z.rcd.state = .replay ∧ z.rcd.replayDue = none ∧ z.rcd.shift = (frameOf y.tb.now - r.origin).setWidth 64 <<< 16 ∧
      (∀ n : Fin 256, z.ch[n] = { y.ch[n] with level := false }) ∧ (∀ k : Fin 4, z.wt[k] = { y.wt[k] with level := false }) ∧
      z.rcd.replayQ = r.replayQ ∧ OnlyIn [.rcd, .ch, .wt, .pin, .pins] y z) ∧
    (hostOk p s = true → r.replayQ.length < 512 → Ends (.recRpqAppend p v) s fun z =>
      (∃ q : Record, z.rcd = { r with replayQ := r.replayQ ++ [q] } ∧ q.type.toNat = fld r.rpq[0] 31 26 ∧
        q.unit.toNat = fld r.rpq[0] 25 16 ∧ q.stamp = (r.rpq[0].setWidth 16 ++ r.rpq[1] : BitVec 48) ∧ q.data = v ++ r.rpq[2]) ∧
      OnlyIn [.rcd] s z) ∧
    (hostOk p s = true → 512 ≤ r.replayQ.length → Ends (.recRpqAppend p v) s fun z =>
      z.rcd = { r with stat := r.stat ||| 64 } ∧ OnlyIn [.rcd] s z) ∧
    (r.state = .replay → r.replayQ = x :: rest →
      (x.type = 1 → Ends .replayQueueMove s fun z =>
        z.rcd = { r with replayQ := rest, replayHi := x.data.setWidth 16 } ∧ OnlyIn [.rcd] s z) ∧
      (x.type = 9 ∨ x.type = 11 ∨ x.type = 15 → r.inject.length < 64 → later (coarse s.tb.now) (coarse t) = false →
        Ends .replayQueueMove s fun z => z.rcd = { r with replayQ := rest, inject := r.inject ++ [(x, t)] } ∧ OnlyIn [.rcd] s z) ∧
      (x.type = 9 ∨ x.type = 11 ∨ x.type = 15 → r.inject.length < 64 → later (coarse s.tb.now) (coarse t) = true → bit r.cfg 27 = false →
        Ends .replayQueueMove s fun z => bit z.rcd.stat 5 = true ∧ diverged r z.rcd 3 x t ∧
          z.rcd.replayQ = rest ∧ z.rcd.inject = r.inject ++ [(x, t)] ∧ OnlyIn [.rcd] s z) ∧
      (x.type = 9 ∨ x.type = 11 ∨ x.type = 15 → 64 ≤ r.inject.length → Ends .replayQueueMove s fun z => OnlyIn [] s z) ∧
      (compared → (∀ q ∈ r.extra, ¬ matched q.1 x q.2.1 t) → r.expect.length < 64 →
        Ends .replayQueueMove s fun z => z.rcd = { r with replayQ := rest, expect := r.expect ++ [(x, t)] } ∧ OnlyIn [.rcd] s z) ∧
      (compared → ∀ (q : Record) (n : Nat) (a b : List (Record × Stamp × Nat)), r.extra = a ++ (q, t, n) :: b → matched q x t t →
        (∀ e ∈ a, ¬ matched e.1 x e.2.1 t) →
        Ends .replayQueueMove s fun z => z.rcd = { r with replayQ := rest, extra := a ++ b } ∧ OnlyIn [.rcd] s z)) ∧
    (∀ (type unit : Nat) (w : Stamp) (d : BitVec 64), r.state = .replay → r.selects type unit = true →
      let e := mkRec type unit w d
      (∀ (q : Record) (a b : List (Record × Stamp)), r.expect = a ++ (q, w) :: b → matched q e w w → (∀ i ∈ a, ¬ matched i.1 e i.2 w) →
        recordOut type unit w d s = { s with rcd := { r with expect := a ++ b } }) ∧
      ((∀ i ∈ r.expect, ¬ matched i.1 e i.2 w) →
        recordOut type unit w d s = { s with rcd := { r with extra := r.extra ++ [(e, w, s.tb.clk)] } }))

/-- A recorded input acts in its cycle of the replay as the event that it records (R442): a doorbell's request is posted, a domain state is entered. An output event
unmatched for 1,024 cycles after its own is a divergence EXTRA, an expected record, a LOSS always, unmatched for 1,024 cycles after its replay time a divergence
MISSING; with DSTOP it ends the replay (R443, R444). `y` is the device in the cycle in which the record acts, or the divergence comes. -/
def Says.ReplayInjectsAndDiverges : Prop :=
  ∀ (x : Record) (t : Stamp) (n : Nat) (s y : State), s.tb.running = true → y.rcd = s.rcd →
    let r := s.rcd
    r.state = .replay →
    (r.inject = [(x, t)] → y = runTo t s →
      (∀ (e : Fin 16) (k : Fin 8), x.type = 11 → x.unit.toNat = 8 * e.val + k.val → y.te[e].state = .run →
        bit (y.te[e].disp[40 + k.val]'(by omega)) 31 = true → y.te[e].ready = [] →
        Ends .inputInjection s fun z =>
          z.rcd = { r with inject := [] } ∧ (∃ q : Entry, z.te[e].ready = [q] ∧ q.num.toNat = 40 + k.val ∧ q.arg = x.data.setWidth 32) ∧
          OthersKept e y.te z.te ∧ OnlyIn [.rcd, .te] y z) ∧
      (x.type = 15 → fld x.data 2 0 = y.dom.state.code → Ends .inputInjection s fun z =>
        z.dom = { y.dom with observe := bit x.data 3 } ∧ z.rcd.inject = [] ∧ OnlyIn [.rcd, .dom, .pin, .pins] y z) ∧
      (x.type = 15 → Ends .inputInjection s fun z =>
        z.dom.state = .ofCode (fld x.data 2 0) ∧ z.dom.observe = bit x.data 3 ∧ z.rcd.inject = [] ∧ OnlyIn stateParts y z)) ∧
    (r.extra = [(x, t, n)] → r.expect = [] → bit r.cfg 27 = false → y = runClk (n + 1024) s → Ends .divergenceTimeout s fun z =>
      diverged r z.rcd 1 x t ∧ z.rcd.extra = [] ∧ z.rcd.state = .replay ∧ OnlyIn [.rcd] y z) ∧
    (r.expect = [(x, t)] → r.extra = [] → y = runClk (s.tb.clk + ((coarse t + 65536 - s.tb.now).toInt / 64).toNat) s →
      (bit r.cfg 27 = false → Ends .divergenceTimeout s fun z =>
        diverged r z.rcd 2 x t ∧ z.rcd.expect = [] ∧ z.rcd.state = .replay ∧ OnlyIn [.rcd] y z) ∧
      (bit r.cfg 27 = true → Ends .divergenceTimeout s fun z =>
        z.rcd.state = .idle ∧ bit z.rcd.stat 4 = true ∧ OnlyIn [.rcd, .pin, .pins] y z))

/-- Replay.
It rests on the model's own reading in logs 14, 18, 46, 47 and 90. -/
def Obligations.Replaying : Prop :=
  ReplayRuns ∧ ReplayInjectsAndDiverges
end

