-- ==== Sys2Proof/Laws/State.lean ====
section
/-! SUPPORT. Laws/State: each named update of the state, field by field. -/

namespace Sys2Proof.Machine

/-- An array after one element is written. -/
@[simp] theorem vset_same {α : Type} {n : Nat} (v : Vector α n) (i : Fin n) (x : α) : (v.set i x)[i] = x := by
  simp [Fin.getElem_fin]
theorem vset_ne {α : Type} {n : Nat} (v : Vector α n) (i j : Fin n) (x : α) (h : j ≠ i) : (v.set i x)[j] = v[j] := by
  have : i.val ≠ j.val := fun e => h (Fin.ext e.symm)
  simp [Fin.getElem_fin, this]
theorem others_set {α : Type} {n : Nat} (v : Vector α n) (i : Fin n) (x : α) : Claims.OthersKept i v (v.set i x) :=
  fun j h => vset_ne v i j x h

@[simp] theorem modCh_pending (n : Fin 256) (f : Chan → Chan) (s : State) : (modCh n f s).pending = s.pending := (rfl)
@[simp] theorem modCh_free (n : Fin 256) (f : Chan → Chan) (s : State) : (modCh n f s).free = s.free := (rfl)
@[simp] theorem modCh_out (n : Fin 256) (f : Chan → Chan) (s : State) : (modCh n f s).out = s.out := (rfl)
@[simp] theorem modCh_later (n : Fin 256) (f : Chan → Chan) (s : State) : (modCh n f s).later = s.later := (rfl)
@[simp] theorem modCh_dom (n : Fin 256) (f : Chan → Chan) (s : State) : (modCh n f s).dom = s.dom := (rfl)
@[simp] theorem modCh_tb (n : Fin 256) (f : Chan → Chan) (s : State) : (modCh n f s).tb = s.tb := (rfl)
@[simp] theorem modCh_shadows (n : Fin 256) (f : Chan → Chan) (s : State) : (modCh n f s).shadows = s.shadows := (rfl)
@[simp] theorem modCh_ch (n : Fin 256) (f : Chan → Chan) (s : State) : (modCh n f s).ch = s.ch.set n (f s.ch[n]) := (rfl)
@[simp] theorem modCh_te (n : Fin 256) (f : Chan → Chan) (s : State) : (modCh n f s).te = s.te := (rfl)
@[simp] theorem modCh_win (n : Fin 256) (f : Chan → Chan) (s : State) : (modCh n f s).win = s.win := (rfl)
@[simp] theorem modCh_wt (n : Fin 256) (f : Chan → Chan) (s : State) : (modCh n f s).wt = s.wt := (rfl)
@[simp] theorem modCh_pin (n : Fin 256) (f : Chan → Chan) (s : State) : (modCh n f s).pin = s.pin := (rfl)
@[simp] theorem modCh_pins (n : Fin 256) (f : Chan → Chan) (s : State) : (modCh n f s).pins = s.pins := (rfl)
@[simp] theorem modCh_cis (n : Fin 256) (f : Chan → Chan) (s : State) : (modCh n f s).cis = s.cis := (rfl)
@[simp] theorem modCh_well (n : Fin 256) (f : Chan → Chan) (s : State) : (modCh n f s).well = s.well := (rfl)
@[simp] theorem modCh_pump (n : Fin 256) (f : Chan → Chan) (s : State) : (modCh n f s).pump = s.pump := (rfl)
@[simp] theorem modCh_ic (n : Fin 256) (f : Chan → Chan) (s : State) : (modCh n f s).ic = s.ic := (rfl)
@[simp] theorem modCh_link (n : Fin 256) (f : Chan → Chan) (s : State) : (modCh n f s).link = s.link := (rfl)
@[simp] theorem modCh_se (n : Fin 256) (f : Chan → Chan) (s : State) : (modCh n f s).se = s.se := (rfl)
@[simp] theorem modCh_seg (n : Fin 256) (f : Chan → Chan) (s : State) : (modCh n f s).seg = s.seg := (rfl)
@[simp] theorem modCh_job (n : Fin 256) (f : Chan → Chan) (s : State) : (modCh n f s).job = s.job := (rfl)
@[simp] theorem modCh_sc (n : Fin 256) (f : Chan → Chan) (s : State) : (modCh n f s).sc = s.sc := (rfl)
@[simp] theorem modCh_scs (n : Fin 256) (f : Chan → Chan) (s : State) : (modCh n f s).scs = s.scs := (rfl)
@[simp] theorem modCh_rcd (n : Fin 256) (f : Chan → Chan) (s : State) : (modCh n f s).rcd = s.rcd := (rfl)
@[simp] theorem modCh_sys (n : Fin 256) (f : Chan → Chan) (s : State) : (modCh n f s).sys = s.sys := (rfl)
@[simp] theorem modCh_calm (n : Fin 256) (f : Chan → Chan) (s : State) : (modCh n f s).calm = s.calm := (rfl)

@[simp] theorem modTe_pending (e : Fin 16) (f : Engine → Engine) (s : State) : (modTe e f s).pending = s.pending := (rfl)
@[simp] theorem modTe_free (e : Fin 16) (f : Engine → Engine) (s : State) : (modTe e f s).free = s.free := (rfl)
@[simp] theorem modTe_out (e : Fin 16) (f : Engine → Engine) (s : State) : (modTe e f s).out = s.out := (rfl)
@[simp] theorem modTe_later (e : Fin 16) (f : Engine → Engine) (s : State) : (modTe e f s).later = s.later := (rfl)
@[simp] theorem modTe_dom (e : Fin 16) (f : Engine → Engine) (s : State) : (modTe e f s).dom = s.dom := (rfl)
@[simp] theorem modTe_tb (e : Fin 16) (f : Engine → Engine) (s : State) : (modTe e f s).tb = s.tb := (rfl)
@[simp] theorem modTe_shadows (e : Fin 16) (f : Engine → Engine) (s : State) : (modTe e f s).shadows = s.shadows := (rfl)
@[simp] theorem modTe_ch (e : Fin 16) (f : Engine → Engine) (s : State) : (modTe e f s).ch = s.ch := (rfl)
@[simp] theorem modTe_te (e : Fin 16) (f : Engine → Engine) (s : State) : (modTe e f s).te = s.te.set e (f s.te[e]) := (rfl)
@[simp] theorem modTe_win (e : Fin 16) (f : Engine → Engine) (s : State) : (modTe e f s).win = s.win := (rfl)
@[simp] theorem modTe_wt (e : Fin 16) (f : Engine → Engine) (s : State) : (modTe e f s).wt = s.wt := (rfl)
@[simp] theorem modTe_pin (e : Fin 16) (f : Engine → Engine) (s : State) : (modTe e f s).pin = s.pin := (rfl)
@[simp] theorem modTe_pins (e : Fin 16) (f : Engine → Engine) (s : State) : (modTe e f s).pins = s.pins := (rfl)
@[simp] theorem modTe_cis (e : Fin 16) (f : Engine → Engine) (s : State) : (modTe e f s).cis = s.cis := (rfl)
@[simp] theorem modTe_well (e : Fin 16) (f : Engine → Engine) (s : State) : (modTe e f s).well = s.well := (rfl)
@[simp] theorem modTe_pump (e : Fin 16) (f : Engine → Engine) (s : State) : (modTe e f s).pump = s.pump := (rfl)
@[simp] theorem modTe_ic (e : Fin 16) (f : Engine → Engine) (s : State) : (modTe e f s).ic = s.ic := (rfl)
@[simp] theorem modTe_link (e : Fin 16) (f : Engine → Engine) (s : State) : (modTe e f s).link = s.link := (rfl)
@[simp] theorem modTe_se (e : Fin 16) (f : Engine → Engine) (s : State) : (modTe e f s).se = s.se := (rfl)
@[simp] theorem modTe_seg (e : Fin 16) (f : Engine → Engine) (s : State) : (modTe e f s).seg = s.seg := (rfl)
@[simp] theorem modTe_job (e : Fin 16) (f : Engine → Engine) (s : State) : (modTe e f s).job = s.job := (rfl)
@[simp] theorem modTe_sc (e : Fin 16) (f : Engine → Engine) (s : State) : (modTe e f s).sc = s.sc := (rfl)
@[simp] theorem modTe_scs (e : Fin 16) (f : Engine → Engine) (s : State) : (modTe e f s).scs = s.scs := (rfl)
@[simp] theorem modTe_rcd (e : Fin 16) (f : Engine → Engine) (s : State) : (modTe e f s).rcd = s.rcd := (rfl)
@[simp] theorem modTe_sys (e : Fin 16) (f : Engine → Engine) (s : State) : (modTe e f s).sys = s.sys := (rfl)
@[simp] theorem modTe_calm (e : Fin 16) (f : Engine → Engine) (s : State) : (modTe e f s).calm = s.calm := (rfl)

@[simp] theorem modSe_pending (e : Fin 32) (f : Shift → Shift) (s : State) : (modSe e f s).pending = s.pending := (rfl)
@[simp] theorem modSe_free (e : Fin 32) (f : Shift → Shift) (s : State) : (modSe e f s).free = s.free := (rfl)
@[simp] theorem modSe_out (e : Fin 32) (f : Shift → Shift) (s : State) : (modSe e f s).out = s.out := (rfl)
@[simp] theorem modSe_later (e : Fin 32) (f : Shift → Shift) (s : State) : (modSe e f s).later = s.later := (rfl)
@[simp] theorem modSe_dom (e : Fin 32) (f : Shift → Shift) (s : State) : (modSe e f s).dom = s.dom := (rfl)
@[simp] theorem modSe_tb (e : Fin 32) (f : Shift → Shift) (s : State) : (modSe e f s).tb = s.tb := (rfl)
@[simp] theorem modSe_shadows (e : Fin 32) (f : Shift → Shift) (s : State) : (modSe e f s).shadows = s.shadows := (rfl)
@[simp] theorem modSe_ch (e : Fin 32) (f : Shift → Shift) (s : State) : (modSe e f s).ch = s.ch := (rfl)
@[simp] theorem modSe_te (e : Fin 32) (f : Shift → Shift) (s : State) : (modSe e f s).te = s.te := (rfl)
@[simp] theorem modSe_win (e : Fin 32) (f : Shift → Shift) (s : State) : (modSe e f s).win = s.win := (rfl)
@[simp] theorem modSe_wt (e : Fin 32) (f : Shift → Shift) (s : State) : (modSe e f s).wt = s.wt := (rfl)
@[simp] theorem modSe_pin (e : Fin 32) (f : Shift → Shift) (s : State) : (modSe e f s).pin = s.pin := (rfl)
@[simp] theorem modSe_pins (e : Fin 32) (f : Shift → Shift) (s : State) : (modSe e f s).pins = s.pins := (rfl)
@[simp] theorem modSe_cis (e : Fin 32) (f : Shift → Shift) (s : State) : (modSe e f s).cis = s.cis := (rfl)
@[simp] theorem modSe_well (e : Fin 32) (f : Shift → Shift) (s : State) : (modSe e f s).well = s.well := (rfl)
@[simp] theorem modSe_pump (e : Fin 32) (f : Shift → Shift) (s : State) : (modSe e f s).pump = s.pump := (rfl)
@[simp] theorem modSe_ic (e : Fin 32) (f : Shift → Shift) (s : State) : (modSe e f s).ic = s.ic := (rfl)
@[simp] theorem modSe_link (e : Fin 32) (f : Shift → Shift) (s : State) : (modSe e f s).link = s.link := (rfl)
@[simp] theorem modSe_se (e : Fin 32) (f : Shift → Shift) (s : State) : (modSe e f s).se = s.se.set e (f s.se[e]) := (rfl)
@[simp] theorem modSe_seg (e : Fin 32) (f : Shift → Shift) (s : State) : (modSe e f s).seg = s.seg := (rfl)
@[simp] theorem modSe_job (e : Fin 32) (f : Shift → Shift) (s : State) : (modSe e f s).job = s.job := (rfl)
@[simp] theorem modSe_sc (e : Fin 32) (f : Shift → Shift) (s : State) : (modSe e f s).sc = s.sc := (rfl)
@[simp] theorem modSe_scs (e : Fin 32) (f : Shift → Shift) (s : State) : (modSe e f s).scs = s.scs := (rfl)
@[simp] theorem modSe_rcd (e : Fin 32) (f : Shift → Shift) (s : State) : (modSe e f s).rcd = s.rcd := (rfl)
@[simp] theorem modSe_sys (e : Fin 32) (f : Shift → Shift) (s : State) : (modSe e f s).sys = s.sys := (rfl)
@[simp] theorem modSe_calm (e : Fin 32) (f : Shift → Shift) (s : State) : (modSe e f s).calm = s.calm := (rfl)

@[simp] theorem modWin_pending (i : Fin 8) (f : WheelIn → WheelIn) (s : State) : (modWin i f s).pending = s.pending := (rfl)
@[simp] theorem modWin_free (i : Fin 8) (f : WheelIn → WheelIn) (s : State) : (modWin i f s).free = s.free := (rfl)
@[simp] theorem modWin_out (i : Fin 8) (f : WheelIn → WheelIn) (s : State) : (modWin i f s).out = s.out := (rfl)
@[simp] theorem modWin_later (i : Fin 8) (f : WheelIn → WheelIn) (s : State) : (modWin i f s).later = s.later := (rfl)
@[simp] theorem modWin_dom (i : Fin 8) (f : WheelIn → WheelIn) (s : State) : (modWin i f s).dom = s.dom := (rfl)
@[simp] theorem modWin_tb (i : Fin 8) (f : WheelIn → WheelIn) (s : State) : (modWin i f s).tb = s.tb := (rfl)
@[simp] theorem modWin_shadows (i : Fin 8) (f : WheelIn → WheelIn) (s : State) : (modWin i f s).shadows = s.shadows := (rfl)
@[simp] theorem modWin_ch (i : Fin 8) (f : WheelIn → WheelIn) (s : State) : (modWin i f s).ch = s.ch := (rfl)
@[simp] theorem modWin_te (i : Fin 8) (f : WheelIn → WheelIn) (s : State) : (modWin i f s).te = s.te := (rfl)
@[simp] theorem modWin_win (i : Fin 8) (f : WheelIn → WheelIn) (s : State) : (modWin i f s).win = s.win.set i (f s.win[i]) := (rfl)
@[simp] theorem modWin_wt (i : Fin 8) (f : WheelIn → WheelIn) (s : State) : (modWin i f s).wt = s.wt := (rfl)
@[simp] theorem modWin_pin (i : Fin 8) (f : WheelIn → WheelIn) (s : State) : (modWin i f s).pin = s.pin := (rfl)
@[simp] theorem modWin_pins (i : Fin 8) (f : WheelIn → WheelIn) (s : State) : (modWin i f s).pins = s.pins := (rfl)
@[simp] theorem modWin_cis (i : Fin 8) (f : WheelIn → WheelIn) (s : State) : (modWin i f s).cis = s.cis := (rfl)
@[simp] theorem modWin_well (i : Fin 8) (f : WheelIn → WheelIn) (s : State) : (modWin i f s).well = s.well := (rfl)
@[simp] theorem modWin_pump (i : Fin 8) (f : WheelIn → WheelIn) (s : State) : (modWin i f s).pump = s.pump := (rfl)
@[simp] theorem modWin_ic (i : Fin 8) (f : WheelIn → WheelIn) (s : State) : (modWin i f s).ic = s.ic := (rfl)
@[simp] theorem modWin_link (i : Fin 8) (f : WheelIn → WheelIn) (s : State) : (modWin i f s).link = s.link := (rfl)
@[simp] theorem modWin_se (i : Fin 8) (f : WheelIn → WheelIn) (s : State) : (modWin i f s).se = s.se := (rfl)
@[simp] theorem modWin_seg (i : Fin 8) (f : WheelIn → WheelIn) (s : State) : (modWin i f s).seg = s.seg := (rfl)
@[simp] theorem modWin_job (i : Fin 8) (f : WheelIn → WheelIn) (s : State) : (modWin i f s).job = s.job := (rfl)
@[simp] theorem modWin_sc (i : Fin 8) (f : WheelIn → WheelIn) (s : State) : (modWin i f s).sc = s.sc := (rfl)
@[simp] theorem modWin_scs (i : Fin 8) (f : WheelIn → WheelIn) (s : State) : (modWin i f s).scs = s.scs := (rfl)
@[simp] theorem modWin_rcd (i : Fin 8) (f : WheelIn → WheelIn) (s : State) : (modWin i f s).rcd = s.rcd := (rfl)
@[simp] theorem modWin_sys (i : Fin 8) (f : WheelIn → WheelIn) (s : State) : (modWin i f s).sys = s.sys := (rfl)
@[simp] theorem modWin_calm (i : Fin 8) (f : WheelIn → WheelIn) (s : State) : (modWin i f s).calm = s.calm := (rfl)

@[simp] theorem modWt_pending (t : Fin 4) (f : Trk → Trk) (s : State) : (modWt t f s).pending = s.pending := (rfl)
@[simp] theorem modWt_free (t : Fin 4) (f : Trk → Trk) (s : State) : (modWt t f s).free = s.free := (rfl)
@[simp] theorem modWt_out (t : Fin 4) (f : Trk → Trk) (s : State) : (modWt t f s).out = s.out := (rfl)
@[simp] theorem modWt_later (t : Fin 4) (f : Trk → Trk) (s : State) : (modWt t f s).later = s.later := (rfl)
@[simp] theorem modWt_dom (t : Fin 4) (f : Trk → Trk) (s : State) : (modWt t f s).dom = s.dom := (rfl)
@[simp] theorem modWt_tb (t : Fin 4) (f : Trk → Trk) (s : State) : (modWt t f s).tb = s.tb := (rfl)
@[simp] theorem modWt_shadows (t : Fin 4) (f : Trk → Trk) (s : State) : (modWt t f s).shadows = s.shadows := (rfl)
@[simp] theorem modWt_ch (t : Fin 4) (f : Trk → Trk) (s : State) : (modWt t f s).ch = s.ch := (rfl)
@[simp] theorem modWt_te (t : Fin 4) (f : Trk → Trk) (s : State) : (modWt t f s).te = s.te := (rfl)
@[simp] theorem modWt_win (t : Fin 4) (f : Trk → Trk) (s : State) : (modWt t f s).win = s.win := (rfl)
@[simp] theorem modWt_wt (t : Fin 4) (f : Trk → Trk) (s : State) : (modWt t f s).wt = s.wt.set t (f s.wt[t]) := (rfl)
@[simp] theorem modWt_pin (t : Fin 4) (f : Trk → Trk) (s : State) : (modWt t f s).pin = s.pin := (rfl)
@[simp] theorem modWt_pins (t : Fin 4) (f : Trk → Trk) (s : State) : (modWt t f s).pins = s.pins := (rfl)
@[simp] theorem modWt_cis (t : Fin 4) (f : Trk → Trk) (s : State) : (modWt t f s).cis = s.cis := (rfl)
@[simp] theorem modWt_well (t : Fin 4) (f : Trk → Trk) (s : State) : (modWt t f s).well = s.well := (rfl)
@[simp] theorem modWt_pump (t : Fin 4) (f : Trk → Trk) (s : State) : (modWt t f s).pump = s.pump := (rfl)
@[simp] theorem modWt_ic (t : Fin 4) (f : Trk → Trk) (s : State) : (modWt t f s).ic = s.ic := (rfl)
@[simp] theorem modWt_link (t : Fin 4) (f : Trk → Trk) (s : State) : (modWt t f s).link = s.link := (rfl)
@[simp] theorem modWt_se (t : Fin 4) (f : Trk → Trk) (s : State) : (modWt t f s).se = s.se := (rfl)
@[simp] theorem modWt_seg (t : Fin 4) (f : Trk → Trk) (s : State) : (modWt t f s).seg = s.seg := (rfl)
@[simp] theorem modWt_job (t : Fin 4) (f : Trk → Trk) (s : State) : (modWt t f s).job = s.job := (rfl)
@[simp] theorem modWt_sc (t : Fin 4) (f : Trk → Trk) (s : State) : (modWt t f s).sc = s.sc := (rfl)
@[simp] theorem modWt_scs (t : Fin 4) (f : Trk → Trk) (s : State) : (modWt t f s).scs = s.scs := (rfl)
@[simp] theorem modWt_rcd (t : Fin 4) (f : Trk → Trk) (s : State) : (modWt t f s).rcd = s.rcd := (rfl)
@[simp] theorem modWt_sys (t : Fin 4) (f : Trk → Trk) (s : State) : (modWt t f s).sys = s.sys := (rfl)
@[simp] theorem modWt_calm (t : Fin 4) (f : Trk → Trk) (s : State) : (modWt t f s).calm = s.calm := (rfl)

@[simp] theorem modPin_pending (p : Fin 288) (f : Pin → Pin) (s : State) : (modPin p f s).pending = s.pending := (rfl)
@[simp] theorem modPin_free (p : Fin 288) (f : Pin → Pin) (s : State) : (modPin p f s).free = s.free := (rfl)
@[simp] theorem modPin_out (p : Fin 288) (f : Pin → Pin) (s : State) : (modPin p f s).out = s.out := (rfl)
@[simp] theorem modPin_later (p : Fin 288) (f : Pin → Pin) (s : State) : (modPin p f s).later = s.later := (rfl)
@[simp] theorem modPin_dom (p : Fin 288) (f : Pin → Pin) (s : State) : (modPin p f s).dom = s.dom := (rfl)
@[simp] theorem modPin_tb (p : Fin 288) (f : Pin → Pin) (s : State) : (modPin p f s).tb = s.tb := (rfl)
@[simp] theorem modPin_shadows (p : Fin 288) (f : Pin → Pin) (s : State) : (modPin p f s).shadows = s.shadows := (rfl)
@[simp] theorem modPin_ch (p : Fin 288) (f : Pin → Pin) (s : State) : (modPin p f s).ch = s.ch := (rfl)
@[simp] theorem modPin_te (p : Fin 288) (f : Pin → Pin) (s : State) : (modPin p f s).te = s.te := (rfl)
@[simp] theorem modPin_win (p : Fin 288) (f : Pin → Pin) (s : State) : (modPin p f s).win = s.win := (rfl)
@[simp] theorem modPin_wt (p : Fin 288) (f : Pin → Pin) (s : State) : (modPin p f s).wt = s.wt := (rfl)
@[simp] theorem modPin_pin (p : Fin 288) (f : Pin → Pin) (s : State) : (modPin p f s).pin = s.pin.set p (f s.pin[p]) := (rfl)
@[simp] theorem modPin_pins (p : Fin 288) (f : Pin → Pin) (s : State) : (modPin p f s).pins = s.pins := (rfl)
@[simp] theorem modPin_cis (p : Fin 288) (f : Pin → Pin) (s : State) : (modPin p f s).cis = s.cis := (rfl)
@[simp] theorem modPin_well (p : Fin 288) (f : Pin → Pin) (s : State) : (modPin p f s).well = s.well := (rfl)
@[simp] theorem modPin_pump (p : Fin 288) (f : Pin → Pin) (s : State) : (modPin p f s).pump = s.pump := (rfl)
@[simp] theorem modPin_ic (p : Fin 288) (f : Pin → Pin) (s : State) : (modPin p f s).ic = s.ic := (rfl)
@[simp] theorem modPin_link (p : Fin 288) (f : Pin → Pin) (s : State) : (modPin p f s).link = s.link := (rfl)
@[simp] theorem modPin_se (p : Fin 288) (f : Pin → Pin) (s : State) : (modPin p f s).se = s.se := (rfl)
@[simp] theorem modPin_seg (p : Fin 288) (f : Pin → Pin) (s : State) : (modPin p f s).seg = s.seg := (rfl)
@[simp] theorem modPin_job (p : Fin 288) (f : Pin → Pin) (s : State) : (modPin p f s).job = s.job := (rfl)
@[simp] theorem modPin_sc (p : Fin 288) (f : Pin → Pin) (s : State) : (modPin p f s).sc = s.sc := (rfl)
@[simp] theorem modPin_scs (p : Fin 288) (f : Pin → Pin) (s : State) : (modPin p f s).scs = s.scs := (rfl)
@[simp] theorem modPin_rcd (p : Fin 288) (f : Pin → Pin) (s : State) : (modPin p f s).rcd = s.rcd := (rfl)
@[simp] theorem modPin_sys (p : Fin 288) (f : Pin → Pin) (s : State) : (modPin p f s).sys = s.sys := (rfl)
@[simp] theorem modPin_calm (p : Fin 288) (f : Pin → Pin) (s : State) : (modPin p f s).calm = s.calm := (rfl)

@[simp] theorem modWell_pending (k : Fin 64) (f : Well → Well) (s : State) : (modWell k f s).pending = s.pending := (rfl)
@[simp] theorem modWell_free (k : Fin 64) (f : Well → Well) (s : State) : (modWell k f s).free = s.free := (rfl)
@[simp] theorem modWell_out (k : Fin 64) (f : Well → Well) (s : State) : (modWell k f s).out = s.out := (rfl)
@[simp] theorem modWell_later (k : Fin 64) (f : Well → Well) (s : State) : (modWell k f s).later = s.later := (rfl)
@[simp] theorem modWell_dom (k : Fin 64) (f : Well → Well) (s : State) : (modWell k f s).dom = s.dom := (rfl)
@[simp] theorem modWell_tb (k : Fin 64) (f : Well → Well) (s : State) : (modWell k f s).tb = s.tb := (rfl)
@[simp] theorem modWell_shadows (k : Fin 64) (f : Well → Well) (s : State) : (modWell k f s).shadows = s.shadows := (rfl)
@[simp] theorem modWell_ch (k : Fin 64) (f : Well → Well) (s : State) : (modWell k f s).ch = s.ch := (rfl)
@[simp] theorem modWell_te (k : Fin 64) (f : Well → Well) (s : State) : (modWell k f s).te = s.te := (rfl)
@[simp] theorem modWell_win (k : Fin 64) (f : Well → Well) (s : State) : (modWell k f s).win = s.win := (rfl)
@[simp] theorem modWell_wt (k : Fin 64) (f : Well → Well) (s : State) : (modWell k f s).wt = s.wt := (rfl)
@[simp] theorem modWell_pin (k : Fin 64) (f : Well → Well) (s : State) : (modWell k f s).pin = s.pin := (rfl)
@[simp] theorem modWell_pins (k : Fin 64) (f : Well → Well) (s : State) : (modWell k f s).pins = s.pins := (rfl)
@[simp] theorem modWell_cis (k : Fin 64) (f : Well → Well) (s : State) : (modWell k f s).cis = s.cis := (rfl)
@[simp] theorem modWell_well (k : Fin 64) (f : Well → Well) (s : State) : (modWell k f s).well = s.well.set k (f s.well[k]) := (rfl)
@[simp] theorem modWell_pump (k : Fin 64) (f : Well → Well) (s : State) : (modWell k f s).pump = s.pump := (rfl)
@[simp] theorem modWell_ic (k : Fin 64) (f : Well → Well) (s : State) : (modWell k f s).ic = s.ic := (rfl)
@[simp] theorem modWell_link (k : Fin 64) (f : Well → Well) (s : State) : (modWell k f s).link = s.link := (rfl)
@[simp] theorem modWell_se (k : Fin 64) (f : Well → Well) (s : State) : (modWell k f s).se = s.se := (rfl)
@[simp] theorem modWell_seg (k : Fin 64) (f : Well → Well) (s : State) : (modWell k f s).seg = s.seg := (rfl)
@[simp] theorem modWell_job (k : Fin 64) (f : Well → Well) (s : State) : (modWell k f s).job = s.job := (rfl)
@[simp] theorem modWell_sc (k : Fin 64) (f : Well → Well) (s : State) : (modWell k f s).sc = s.sc := (rfl)
@[simp] theorem modWell_scs (k : Fin 64) (f : Well → Well) (s : State) : (modWell k f s).scs = s.scs := (rfl)
@[simp] theorem modWell_rcd (k : Fin 64) (f : Well → Well) (s : State) : (modWell k f s).rcd = s.rcd := (rfl)
@[simp] theorem modWell_sys (k : Fin 64) (f : Well → Well) (s : State) : (modWell k f s).sys = s.sys := (rfl)
@[simp] theorem modWell_calm (k : Fin 64) (f : Well → Well) (s : State) : (modWell k f s).calm = s.calm := (rfl)

@[simp] theorem modPump_pending (u : Fin 8) (f : Pump → Pump) (s : State) : (modPump u f s).pending = s.pending := (rfl)
@[simp] theorem modPump_free (u : Fin 8) (f : Pump → Pump) (s : State) : (modPump u f s).free = s.free := (rfl)
@[simp] theorem modPump_out (u : Fin 8) (f : Pump → Pump) (s : State) : (modPump u f s).out = s.out := (rfl)
@[simp] theorem modPump_later (u : Fin 8) (f : Pump → Pump) (s : State) : (modPump u f s).later = s.later := (rfl)
@[simp] theorem modPump_dom (u : Fin 8) (f : Pump → Pump) (s : State) : (modPump u f s).dom = s.dom := (rfl)
@[simp] theorem modPump_tb (u : Fin 8) (f : Pump → Pump) (s : State) : (modPump u f s).tb = s.tb := (rfl)
@[simp] theorem modPump_shadows (u : Fin 8) (f : Pump → Pump) (s : State) : (modPump u f s).shadows = s.shadows := (rfl)
@[simp] theorem modPump_ch (u : Fin 8) (f : Pump → Pump) (s : State) : (modPump u f s).ch = s.ch := (rfl)
@[simp] theorem modPump_te (u : Fin 8) (f : Pump → Pump) (s : State) : (modPump u f s).te = s.te := (rfl)
@[simp] theorem modPump_win (u : Fin 8) (f : Pump → Pump) (s : State) : (modPump u f s).win = s.win := (rfl)
@[simp] theorem modPump_wt (u : Fin 8) (f : Pump → Pump) (s : State) : (modPump u f s).wt = s.wt := (rfl)
@[simp] theorem modPump_pin (u : Fin 8) (f : Pump → Pump) (s : State) : (modPump u f s).pin = s.pin := (rfl)
@[simp] theorem modPump_pins (u : Fin 8) (f : Pump → Pump) (s : State) : (modPump u f s).pins = s.pins := (rfl)
@[simp] theorem modPump_cis (u : Fin 8) (f : Pump → Pump) (s : State) : (modPump u f s).cis = s.cis := (rfl)
@[simp] theorem modPump_well (u : Fin 8) (f : Pump → Pump) (s : State) : (modPump u f s).well = s.well := (rfl)
@[simp] theorem modPump_pump (u : Fin 8) (f : Pump → Pump) (s : State) : (modPump u f s).pump = s.pump.set u (f s.pump[u]) := (rfl)
@[simp] theorem modPump_ic (u : Fin 8) (f : Pump → Pump) (s : State) : (modPump u f s).ic = s.ic := (rfl)
@[simp] theorem modPump_link (u : Fin 8) (f : Pump → Pump) (s : State) : (modPump u f s).link = s.link := (rfl)
@[simp] theorem modPump_se (u : Fin 8) (f : Pump → Pump) (s : State) : (modPump u f s).se = s.se := (rfl)
@[simp] theorem modPump_seg (u : Fin 8) (f : Pump → Pump) (s : State) : (modPump u f s).seg = s.seg := (rfl)
@[simp] theorem modPump_job (u : Fin 8) (f : Pump → Pump) (s : State) : (modPump u f s).job = s.job := (rfl)
@[simp] theorem modPump_sc (u : Fin 8) (f : Pump → Pump) (s : State) : (modPump u f s).sc = s.sc := (rfl)
@[simp] theorem modPump_scs (u : Fin 8) (f : Pump → Pump) (s : State) : (modPump u f s).scs = s.scs := (rfl)
@[simp] theorem modPump_rcd (u : Fin 8) (f : Pump → Pump) (s : State) : (modPump u f s).rcd = s.rcd := (rfl)
@[simp] theorem modPump_sys (u : Fin 8) (f : Pump → Pump) (s : State) : (modPump u f s).sys = s.sys := (rfl)
@[simp] theorem modPump_calm (u : Fin 8) (f : Pump → Pump) (s : State) : (modPump u f s).calm = s.calm := (rfl)

@[simp] theorem modSc_pending (c : Fin 2) (f : Conv → Conv) (s : State) : (modSc c f s).pending = s.pending := (rfl)
@[simp] theorem modSc_free (c : Fin 2) (f : Conv → Conv) (s : State) : (modSc c f s).free = s.free := (rfl)
@[simp] theorem modSc_out (c : Fin 2) (f : Conv → Conv) (s : State) : (modSc c f s).out = s.out := (rfl)
@[simp] theorem modSc_later (c : Fin 2) (f : Conv → Conv) (s : State) : (modSc c f s).later = s.later := (rfl)
@[simp] theorem modSc_dom (c : Fin 2) (f : Conv → Conv) (s : State) : (modSc c f s).dom = s.dom := (rfl)
@[simp] theorem modSc_tb (c : Fin 2) (f : Conv → Conv) (s : State) : (modSc c f s).tb = s.tb := (rfl)
@[simp] theorem modSc_shadows (c : Fin 2) (f : Conv → Conv) (s : State) : (modSc c f s).shadows = s.shadows := (rfl)
@[simp] theorem modSc_ch (c : Fin 2) (f : Conv → Conv) (s : State) : (modSc c f s).ch = s.ch := (rfl)
@[simp] theorem modSc_te (c : Fin 2) (f : Conv → Conv) (s : State) : (modSc c f s).te = s.te := (rfl)
@[simp] theorem modSc_win (c : Fin 2) (f : Conv → Conv) (s : State) : (modSc c f s).win = s.win := (rfl)
@[simp] theorem modSc_wt (c : Fin 2) (f : Conv → Conv) (s : State) : (modSc c f s).wt = s.wt := (rfl)
@[simp] theorem modSc_pin (c : Fin 2) (f : Conv → Conv) (s : State) : (modSc c f s).pin = s.pin := (rfl)
@[simp] theorem modSc_pins (c : Fin 2) (f : Conv → Conv) (s : State) : (modSc c f s).pins = s.pins := (rfl)
@[simp] theorem modSc_cis (c : Fin 2) (f : Conv → Conv) (s : State) : (modSc c f s).cis = s.cis := (rfl)
@[simp] theorem modSc_well (c : Fin 2) (f : Conv → Conv) (s : State) : (modSc c f s).well = s.well := (rfl)
@[simp] theorem modSc_pump (c : Fin 2) (f : Conv → Conv) (s : State) : (modSc c f s).pump = s.pump := (rfl)
@[simp] theorem modSc_ic (c : Fin 2) (f : Conv → Conv) (s : State) : (modSc c f s).ic = s.ic := (rfl)
@[simp] theorem modSc_link (c : Fin 2) (f : Conv → Conv) (s : State) : (modSc c f s).link = s.link := (rfl)
@[simp] theorem modSc_se (c : Fin 2) (f : Conv → Conv) (s : State) : (modSc c f s).se = s.se := (rfl)
@[simp] theorem modSc_seg (c : Fin 2) (f : Conv → Conv) (s : State) : (modSc c f s).seg = s.seg := (rfl)
@[simp] theorem modSc_job (c : Fin 2) (f : Conv → Conv) (s : State) : (modSc c f s).job = s.job := (rfl)
@[simp] theorem modSc_sc (c : Fin 2) (f : Conv → Conv) (s : State) : (modSc c f s).sc = s.sc.set c (f s.sc[c]) := (rfl)
@[simp] theorem modSc_scs (c : Fin 2) (f : Conv → Conv) (s : State) : (modSc c f s).scs = s.scs := (rfl)
@[simp] theorem modSc_rcd (c : Fin 2) (f : Conv → Conv) (s : State) : (modSc c f s).rcd = s.rcd := (rfl)
@[simp] theorem modSc_sys (c : Fin 2) (f : Conv → Conv) (s : State) : (modSc c f s).sys = s.sys := (rfl)
@[simp] theorem modSc_calm (c : Fin 2) (f : Conv → Conv) (s : State) : (modSc c f s).calm = s.calm := (rfl)

@[simp] theorem modPins_pending (f : PinBlock → PinBlock) (s : State) : (modPins f s).pending = s.pending := (rfl)
@[simp] theorem modPins_free (f : PinBlock → PinBlock) (s : State) : (modPins f s).free = s.free := (rfl)
@[simp] theorem modPins_out (f : PinBlock → PinBlock) (s : State) : (modPins f s).out = s.out := (rfl)
@[simp] theorem modPins_later (f : PinBlock → PinBlock) (s : State) : (modPins f s).later = s.later := (rfl)
@[simp] theorem modPins_dom (f : PinBlock → PinBlock) (s : State) : (modPins f s).dom = s.dom := (rfl)
@[simp] theorem modPins_tb (f : PinBlock → PinBlock) (s : State) : (modPins f s).tb = s.tb := (rfl)
@[simp] theorem modPins_shadows (f : PinBlock → PinBlock) (s : State) : (modPins f s).shadows = s.shadows := (rfl)
@[simp] theorem modPins_ch (f : PinBlock → PinBlock) (s : State) : (modPins f s).ch = s.ch := (rfl)
@[simp] theorem modPins_te (f : PinBlock → PinBlock) (s : State) : (modPins f s).te = s.te := (rfl)
@[simp] theorem modPins_win (f : PinBlock → PinBlock) (s : State) : (modPins f s).win = s.win := (rfl)
@[simp] theorem modPins_wt (f : PinBlock → PinBlock) (s : State) : (modPins f s).wt = s.wt := (rfl)
@[simp] theorem modPins_pin (f : PinBlock → PinBlock) (s : State) : (modPins f s).pin = s.pin := (rfl)
@[simp] theorem modPins_pins (f : PinBlock → PinBlock) (s : State) : (modPins f s).pins = f s.pins := (rfl)
@[simp] theorem modPins_cis (f : PinBlock → PinBlock) (s : State) : (modPins f s).cis = s.cis := (rfl)
@[simp] theorem modPins_well (f : PinBlock → PinBlock) (s : State) : (modPins f s).well = s.well := (rfl)
@[simp] theorem modPins_pump (f : PinBlock → PinBlock) (s : State) : (modPins f s).pump = s.pump := (rfl)
@[simp] theorem modPins_ic (f : PinBlock → PinBlock) (s : State) : (modPins f s).ic = s.ic := (rfl)
@[simp] theorem modPins_link (f : PinBlock → PinBlock) (s : State) : (modPins f s).link = s.link := (rfl)
@[simp] theorem modPins_se (f : PinBlock → PinBlock) (s : State) : (modPins f s).se = s.se := (rfl)
@[simp] theorem modPins_seg (f : PinBlock → PinBlock) (s : State) : (modPins f s).seg = s.seg := (rfl)
@[simp] theorem modPins_job (f : PinBlock → PinBlock) (s : State) : (modPins f s).job = s.job := (rfl)
@[simp] theorem modPins_sc (f : PinBlock → PinBlock) (s : State) : (modPins f s).sc = s.sc := (rfl)
@[simp] theorem modPins_scs (f : PinBlock → PinBlock) (s : State) : (modPins f s).scs = s.scs := (rfl)
@[simp] theorem modPins_rcd (f : PinBlock → PinBlock) (s : State) : (modPins f s).rcd = s.rcd := (rfl)
@[simp] theorem modPins_sys (f : PinBlock → PinBlock) (s : State) : (modPins f s).sys = s.sys := (rfl)
@[simp] theorem modPins_calm (f : PinBlock → PinBlock) (s : State) : (modPins f s).calm = s.calm := (rfl)

@[simp] theorem modDom_pending (f : Domain → Domain) (s : State) : (modDom f s).pending = s.pending := (rfl)
@[simp] theorem modDom_free (f : Domain → Domain) (s : State) : (modDom f s).free = s.free := (rfl)
@[simp] theorem modDom_out (f : Domain → Domain) (s : State) : (modDom f s).out = s.out := (rfl)
@[simp] theorem modDom_later (f : Domain → Domain) (s : State) : (modDom f s).later = s.later := (rfl)
@[simp] theorem modDom_dom (f : Domain → Domain) (s : State) : (modDom f s).dom = f s.dom := (rfl)
@[simp] theorem modDom_tb (f : Domain → Domain) (s : State) : (modDom f s).tb = s.tb := (rfl)
@[simp] theorem modDom_shadows (f : Domain → Domain) (s : State) : (modDom f s).shadows = s.shadows := (rfl)
@[simp] theorem modDom_ch (f : Domain → Domain) (s : State) : (modDom f s).ch = s.ch := (rfl)
@[simp] theorem modDom_te (f : Domain → Domain) (s : State) : (modDom f s).te = s.te := (rfl)
@[simp] theorem modDom_win (f : Domain → Domain) (s : State) : (modDom f s).win = s.win := (rfl)
@[simp] theorem modDom_wt (f : Domain → Domain) (s : State) : (modDom f s).wt = s.wt := (rfl)
@[simp] theorem modDom_pin (f : Domain → Domain) (s : State) : (modDom f s).pin = s.pin := (rfl)
@[simp] theorem modDom_pins (f : Domain → Domain) (s : State) : (modDom f s).pins = s.pins := (rfl)
@[simp] theorem modDom_cis (f : Domain → Domain) (s : State) : (modDom f s).cis = s.cis := (rfl)
@[simp] theorem modDom_well (f : Domain → Domain) (s : State) : (modDom f s).well = s.well := (rfl)
@[simp] theorem modDom_pump (f : Domain → Domain) (s : State) : (modDom f s).pump = s.pump := (rfl)
@[simp] theorem modDom_ic (f : Domain → Domain) (s : State) : (modDom f s).ic = s.ic := (rfl)
@[simp] theorem modDom_link (f : Domain → Domain) (s : State) : (modDom f s).link = s.link := (rfl)
@[simp] theorem modDom_se (f : Domain → Domain) (s : State) : (modDom f s).se = s.se := (rfl)
@[simp] theorem modDom_seg (f : Domain → Domain) (s : State) : (modDom f s).seg = s.seg := (rfl)
@[simp] theorem modDom_job (f : Domain → Domain) (s : State) : (modDom f s).job = s.job := (rfl)
@[simp] theorem modDom_sc (f : Domain → Domain) (s : State) : (modDom f s).sc = s.sc := (rfl)
@[simp] theorem modDom_scs (f : Domain → Domain) (s : State) : (modDom f s).scs = s.scs := (rfl)
@[simp] theorem modDom_rcd (f : Domain → Domain) (s : State) : (modDom f s).rcd = s.rcd := (rfl)
@[simp] theorem modDom_sys (f : Domain → Domain) (s : State) : (modDom f s).sys = s.sys := (rfl)
@[simp] theorem modDom_calm (f : Domain → Domain) (s : State) : (modDom f s).calm = s.calm := (rfl)

@[simp] theorem modTb_pending (f : Timebase → Timebase) (s : State) : (modTb f s).pending = s.pending := (rfl)
@[simp] theorem modTb_free (f : Timebase → Timebase) (s : State) : (modTb f s).free = s.free := (rfl)
@[simp] theorem modTb_out (f : Timebase → Timebase) (s : State) : (modTb f s).out = s.out := (rfl)
@[simp] theorem modTb_later (f : Timebase → Timebase) (s : State) : (modTb f s).later = s.later := (rfl)
@[simp] theorem modTb_dom (f : Timebase → Timebase) (s : State) : (modTb f s).dom = s.dom := (rfl)
@[simp] theorem modTb_tb (f : Timebase → Timebase) (s : State) : (modTb f s).tb = f s.tb := (rfl)
@[simp] theorem modTb_shadows (f : Timebase → Timebase) (s : State) : (modTb f s).shadows = s.shadows := (rfl)
@[simp] theorem modTb_ch (f : Timebase → Timebase) (s : State) : (modTb f s).ch = s.ch := (rfl)
@[simp] theorem modTb_te (f : Timebase → Timebase) (s : State) : (modTb f s).te = s.te := (rfl)
@[simp] theorem modTb_win (f : Timebase → Timebase) (s : State) : (modTb f s).win = s.win := (rfl)
@[simp] theorem modTb_wt (f : Timebase → Timebase) (s : State) : (modTb f s).wt = s.wt := (rfl)
@[simp] theorem modTb_pin (f : Timebase → Timebase) (s : State) : (modTb f s).pin = s.pin := (rfl)
@[simp] theorem modTb_pins (f : Timebase → Timebase) (s : State) : (modTb f s).pins = s.pins := (rfl)
@[simp] theorem modTb_cis (f : Timebase → Timebase) (s : State) : (modTb f s).cis = s.cis := (rfl)
@[simp] theorem modTb_well (f : Timebase → Timebase) (s : State) : (modTb f s).well = s.well := (rfl)
@[simp] theorem modTb_pump (f : Timebase → Timebase) (s : State) : (modTb f s).pump = s.pump := (rfl)
@[simp] theorem modTb_ic (f : Timebase → Timebase) (s : State) : (modTb f s).ic = s.ic := (rfl)
@[simp] theorem modTb_link (f : Timebase → Timebase) (s : State) : (modTb f s).link = s.link := (rfl)
@[simp] theorem modTb_se (f : Timebase → Timebase) (s : State) : (modTb f s).se = s.se := (rfl)
@[simp] theorem modTb_seg (f : Timebase → Timebase) (s : State) : (modTb f s).seg = s.seg := (rfl)
@[simp] theorem modTb_job (f : Timebase → Timebase) (s : State) : (modTb f s).job = s.job := (rfl)
@[simp] theorem modTb_sc (f : Timebase → Timebase) (s : State) : (modTb f s).sc = s.sc := (rfl)
@[simp] theorem modTb_scs (f : Timebase → Timebase) (s : State) : (modTb f s).scs = s.scs := (rfl)
@[simp] theorem modTb_rcd (f : Timebase → Timebase) (s : State) : (modTb f s).rcd = s.rcd := (rfl)
@[simp] theorem modTb_sys (f : Timebase → Timebase) (s : State) : (modTb f s).sys = s.sys := (rfl)
@[simp] theorem modTb_calm (f : Timebase → Timebase) (s : State) : (modTb f s).calm = s.calm := (rfl)

@[simp] theorem modCis_pending (f : Cistern → Cistern) (s : State) : (modCis f s).pending = s.pending := (rfl)
@[simp] theorem modCis_free (f : Cistern → Cistern) (s : State) : (modCis f s).free = s.free := (rfl)
@[simp] theorem modCis_out (f : Cistern → Cistern) (s : State) : (modCis f s).out = s.out := (rfl)
@[simp] theorem modCis_later (f : Cistern → Cistern) (s : State) : (modCis f s).later = s.later := (rfl)
@[simp] theorem modCis_dom (f : Cistern → Cistern) (s : State) : (modCis f s).dom = s.dom := (rfl)
@[simp] theorem modCis_tb (f : Cistern → Cistern) (s : State) : (modCis f s).tb = s.tb := (rfl)
@[simp] theorem modCis_shadows (f : Cistern → Cistern) (s : State) : (modCis f s).shadows = s.shadows := (rfl)
@[simp] theorem modCis_ch (f : Cistern → Cistern) (s : State) : (modCis f s).ch = s.ch := (rfl)
@[simp] theorem modCis_te (f : Cistern → Cistern) (s : State) : (modCis f s).te = s.te := (rfl)
@[simp] theorem modCis_win (f : Cistern → Cistern) (s : State) : (modCis f s).win = s.win := (rfl)
@[simp] theorem modCis_wt (f : Cistern → Cistern) (s : State) : (modCis f s).wt = s.wt := (rfl)
@[simp] theorem modCis_pin (f : Cistern → Cistern) (s : State) : (modCis f s).pin = s.pin := (rfl)
@[simp] theorem modCis_pins (f : Cistern → Cistern) (s : State) : (modCis f s).pins = s.pins := (rfl)
@[simp] theorem modCis_cis (f : Cistern → Cistern) (s : State) : (modCis f s).cis = f s.cis := (rfl)
@[simp] theorem modCis_well (f : Cistern → Cistern) (s : State) : (modCis f s).well = s.well := (rfl)
@[simp] theorem modCis_pump (f : Cistern → Cistern) (s : State) : (modCis f s).pump = s.pump := (rfl)
@[simp] theorem modCis_ic (f : Cistern → Cistern) (s : State) : (modCis f s).ic = s.ic := (rfl)
@[simp] theorem modCis_link (f : Cistern → Cistern) (s : State) : (modCis f s).link = s.link := (rfl)
@[simp] theorem modCis_se (f : Cistern → Cistern) (s : State) : (modCis f s).se = s.se := (rfl)
@[simp] theorem modCis_seg (f : Cistern → Cistern) (s : State) : (modCis f s).seg = s.seg := (rfl)
@[simp] theorem modCis_job (f : Cistern → Cistern) (s : State) : (modCis f s).job = s.job := (rfl)
@[simp] theorem modCis_sc (f : Cistern → Cistern) (s : State) : (modCis f s).sc = s.sc := (rfl)
@[simp] theorem modCis_scs (f : Cistern → Cistern) (s : State) : (modCis f s).scs = s.scs := (rfl)
@[simp] theorem modCis_rcd (f : Cistern → Cistern) (s : State) : (modCis f s).rcd = s.rcd := (rfl)
@[simp] theorem modCis_sys (f : Cistern → Cistern) (s : State) : (modCis f s).sys = s.sys := (rfl)
@[simp] theorem modCis_calm (f : Cistern → Cistern) (s : State) : (modCis f s).calm = s.calm := (rfl)

@[simp] theorem modLink_pending (f : Link → Link) (s : State) : (modLink f s).pending = s.pending := (rfl)
@[simp] theorem modLink_free (f : Link → Link) (s : State) : (modLink f s).free = s.free := (rfl)
@[simp] theorem modLink_out (f : Link → Link) (s : State) : (modLink f s).out = s.out := (rfl)
@[simp] theorem modLink_later (f : Link → Link) (s : State) : (modLink f s).later = s.later := (rfl)
@[simp] theorem modLink_dom (f : Link → Link) (s : State) : (modLink f s).dom = s.dom := (rfl)
@[simp] theorem modLink_tb (f : Link → Link) (s : State) : (modLink f s).tb = s.tb := (rfl)
@[simp] theorem modLink_shadows (f : Link → Link) (s : State) : (modLink f s).shadows = s.shadows := (rfl)
@[simp] theorem modLink_ch (f : Link → Link) (s : State) : (modLink f s).ch = s.ch := (rfl)
@[simp] theorem modLink_te (f : Link → Link) (s : State) : (modLink f s).te = s.te := (rfl)
@[simp] theorem modLink_win (f : Link → Link) (s : State) : (modLink f s).win = s.win := (rfl)
@[simp] theorem modLink_wt (f : Link → Link) (s : State) : (modLink f s).wt = s.wt := (rfl)
@[simp] theorem modLink_pin (f : Link → Link) (s : State) : (modLink f s).pin = s.pin := (rfl)
@[simp] theorem modLink_pins (f : Link → Link) (s : State) : (modLink f s).pins = s.pins := (rfl)
@[simp] theorem modLink_cis (f : Link → Link) (s : State) : (modLink f s).cis = s.cis := (rfl)
@[simp] theorem modLink_well (f : Link → Link) (s : State) : (modLink f s).well = s.well := (rfl)
@[simp] theorem modLink_pump (f : Link → Link) (s : State) : (modLink f s).pump = s.pump := (rfl)
@[simp] theorem modLink_ic (f : Link → Link) (s : State) : (modLink f s).ic = s.ic := (rfl)
@[simp] theorem modLink_link (f : Link → Link) (s : State) : (modLink f s).link = f s.link := (rfl)
@[simp] theorem modLink_se (f : Link → Link) (s : State) : (modLink f s).se = s.se := (rfl)
@[simp] theorem modLink_seg (f : Link → Link) (s : State) : (modLink f s).seg = s.seg := (rfl)
@[simp] theorem modLink_job (f : Link → Link) (s : State) : (modLink f s).job = s.job := (rfl)
@[simp] theorem modLink_sc (f : Link → Link) (s : State) : (modLink f s).sc = s.sc := (rfl)
@[simp] theorem modLink_scs (f : Link → Link) (s : State) : (modLink f s).scs = s.scs := (rfl)
@[simp] theorem modLink_rcd (f : Link → Link) (s : State) : (modLink f s).rcd = s.rcd := (rfl)
@[simp] theorem modLink_sys (f : Link → Link) (s : State) : (modLink f s).sys = s.sys := (rfl)
@[simp] theorem modLink_calm (f : Link → Link) (s : State) : (modLink f s).calm = s.calm := (rfl)

@[simp] theorem modRcd_pending (f : Recorder → Recorder) (s : State) : (modRcd f s).pending = s.pending := (rfl)
@[simp] theorem modRcd_free (f : Recorder → Recorder) (s : State) : (modRcd f s).free = s.free := (rfl)
@[simp] theorem modRcd_out (f : Recorder → Recorder) (s : State) : (modRcd f s).out = s.out := (rfl)
@[simp] theorem modRcd_later (f : Recorder → Recorder) (s : State) : (modRcd f s).later = s.later := (rfl)
@[simp] theorem modRcd_dom (f : Recorder → Recorder) (s : State) : (modRcd f s).dom = s.dom := (rfl)
@[simp] theorem modRcd_tb (f : Recorder → Recorder) (s : State) : (modRcd f s).tb = s.tb := (rfl)
@[simp] theorem modRcd_shadows (f : Recorder → Recorder) (s : State) : (modRcd f s).shadows = s.shadows := (rfl)
@[simp] theorem modRcd_ch (f : Recorder → Recorder) (s : State) : (modRcd f s).ch = s.ch := (rfl)
@[simp] theorem modRcd_te (f : Recorder → Recorder) (s : State) : (modRcd f s).te = s.te := (rfl)
@[simp] theorem modRcd_win (f : Recorder → Recorder) (s : State) : (modRcd f s).win = s.win := (rfl)
@[simp] theorem modRcd_wt (f : Recorder → Recorder) (s : State) : (modRcd f s).wt = s.wt := (rfl)
@[simp] theorem modRcd_pin (f : Recorder → Recorder) (s : State) : (modRcd f s).pin = s.pin := (rfl)
@[simp] theorem modRcd_pins (f : Recorder → Recorder) (s : State) : (modRcd f s).pins = s.pins := (rfl)
@[simp] theorem modRcd_cis (f : Recorder → Recorder) (s : State) : (modRcd f s).cis = s.cis := (rfl)
@[simp] theorem modRcd_well (f : Recorder → Recorder) (s : State) : (modRcd f s).well = s.well := (rfl)
@[simp] theorem modRcd_pump (f : Recorder → Recorder) (s : State) : (modRcd f s).pump = s.pump := (rfl)
@[simp] theorem modRcd_ic (f : Recorder → Recorder) (s : State) : (modRcd f s).ic = s.ic := (rfl)
@[simp] theorem modRcd_link (f : Recorder → Recorder) (s : State) : (modRcd f s).link = s.link := (rfl)
@[simp] theorem modRcd_se (f : Recorder → Recorder) (s : State) : (modRcd f s).se = s.se := (rfl)
@[simp] theorem modRcd_seg (f : Recorder → Recorder) (s : State) : (modRcd f s).seg = s.seg := (rfl)
@[simp] theorem modRcd_job (f : Recorder → Recorder) (s : State) : (modRcd f s).job = s.job := (rfl)
@[simp] theorem modRcd_sc (f : Recorder → Recorder) (s : State) : (modRcd f s).sc = s.sc := (rfl)
@[simp] theorem modRcd_scs (f : Recorder → Recorder) (s : State) : (modRcd f s).scs = s.scs := (rfl)
@[simp] theorem modRcd_rcd (f : Recorder → Recorder) (s : State) : (modRcd f s).rcd = f s.rcd := (rfl)
@[simp] theorem modRcd_sys (f : Recorder → Recorder) (s : State) : (modRcd f s).sys = s.sys := (rfl)
@[simp] theorem modRcd_calm (f : Recorder → Recorder) (s : State) : (modRcd f s).calm = s.calm := (rfl)

@[simp] theorem modSys_pending (f : Sys → Sys) (s : State) : (modSys f s).pending = s.pending := (rfl)
@[simp] theorem modSys_free (f : Sys → Sys) (s : State) : (modSys f s).free = s.free := (rfl)
@[simp] theorem modSys_out (f : Sys → Sys) (s : State) : (modSys f s).out = s.out := (rfl)
@[simp] theorem modSys_later (f : Sys → Sys) (s : State) : (modSys f s).later = s.later := (rfl)
@[simp] theorem modSys_dom (f : Sys → Sys) (s : State) : (modSys f s).dom = s.dom := (rfl)
@[simp] theorem modSys_tb (f : Sys → Sys) (s : State) : (modSys f s).tb = s.tb := (rfl)
@[simp] theorem modSys_shadows (f : Sys → Sys) (s : State) : (modSys f s).shadows = s.shadows := (rfl)
@[simp] theorem modSys_ch (f : Sys → Sys) (s : State) : (modSys f s).ch = s.ch := (rfl)
@[simp] theorem modSys_te (f : Sys → Sys) (s : State) : (modSys f s).te = s.te := (rfl)
@[simp] theorem modSys_win (f : Sys → Sys) (s : State) : (modSys f s).win = s.win := (rfl)
@[simp] theorem modSys_wt (f : Sys → Sys) (s : State) : (modSys f s).wt = s.wt := (rfl)
@[simp] theorem modSys_pin (f : Sys → Sys) (s : State) : (modSys f s).pin = s.pin := (rfl)
@[simp] theorem modSys_pins (f : Sys → Sys) (s : State) : (modSys f s).pins = s.pins := (rfl)
@[simp] theorem modSys_cis (f : Sys → Sys) (s : State) : (modSys f s).cis = s.cis := (rfl)
@[simp] theorem modSys_well (f : Sys → Sys) (s : State) : (modSys f s).well = s.well := (rfl)
@[simp] theorem modSys_pump (f : Sys → Sys) (s : State) : (modSys f s).pump = s.pump := (rfl)
@[simp] theorem modSys_ic (f : Sys → Sys) (s : State) : (modSys f s).ic = s.ic := (rfl)
@[simp] theorem modSys_link (f : Sys → Sys) (s : State) : (modSys f s).link = s.link := (rfl)
@[simp] theorem modSys_se (f : Sys → Sys) (s : State) : (modSys f s).se = s.se := (rfl)
@[simp] theorem modSys_seg (f : Sys → Sys) (s : State) : (modSys f s).seg = s.seg := (rfl)
@[simp] theorem modSys_job (f : Sys → Sys) (s : State) : (modSys f s).job = s.job := (rfl)
@[simp] theorem modSys_sc (f : Sys → Sys) (s : State) : (modSys f s).sc = s.sc := (rfl)
@[simp] theorem modSys_scs (f : Sys → Sys) (s : State) : (modSys f s).scs = s.scs := (rfl)
@[simp] theorem modSys_rcd (f : Sys → Sys) (s : State) : (modSys f s).rcd = s.rcd := (rfl)
@[simp] theorem modSys_sys (f : Sys → Sys) (s : State) : (modSys f s).sys = f s.sys := (rfl)
@[simp] theorem modSys_calm (f : Sys → Sys) (s : State) : (modSys f s).calm = s.calm := (rfl)

@[simp] theorem modCalm_pending (f : Calm → Calm) (s : State) : (modCalm f s).pending = s.pending := (rfl)
@[simp] theorem modCalm_free (f : Calm → Calm) (s : State) : (modCalm f s).free = s.free := (rfl)
@[simp] theorem modCalm_out (f : Calm → Calm) (s : State) : (modCalm f s).out = s.out := (rfl)
@[simp] theorem modCalm_later (f : Calm → Calm) (s : State) : (modCalm f s).later = s.later := (rfl)
@[simp] theorem modCalm_dom (f : Calm → Calm) (s : State) : (modCalm f s).dom = s.dom := (rfl)
@[simp] theorem modCalm_tb (f : Calm → Calm) (s : State) : (modCalm f s).tb = s.tb := (rfl)
@[simp] theorem modCalm_shadows (f : Calm → Calm) (s : State) : (modCalm f s).shadows = s.shadows := (rfl)
@[simp] theorem modCalm_ch (f : Calm → Calm) (s : State) : (modCalm f s).ch = s.ch := (rfl)
@[simp] theorem modCalm_te (f : Calm → Calm) (s : State) : (modCalm f s).te = s.te := (rfl)
@[simp] theorem modCalm_win (f : Calm → Calm) (s : State) : (modCalm f s).win = s.win := (rfl)
@[simp] theorem modCalm_wt (f : Calm → Calm) (s : State) : (modCalm f s).wt = s.wt := (rfl)
@[simp] theorem modCalm_pin (f : Calm → Calm) (s : State) : (modCalm f s).pin = s.pin := (rfl)
@[simp] theorem modCalm_pins (f : Calm → Calm) (s : State) : (modCalm f s).pins = s.pins := (rfl)
@[simp] theorem modCalm_cis (f : Calm → Calm) (s : State) : (modCalm f s).cis = s.cis := (rfl)
@[simp] theorem modCalm_well (f : Calm → Calm) (s : State) : (modCalm f s).well = s.well := (rfl)
@[simp] theorem modCalm_pump (f : Calm → Calm) (s : State) : (modCalm f s).pump = s.pump := (rfl)
@[simp] theorem modCalm_ic (f : Calm → Calm) (s : State) : (modCalm f s).ic = s.ic := (rfl)
@[simp] theorem modCalm_link (f : Calm → Calm) (s : State) : (modCalm f s).link = s.link := (rfl)
@[simp] theorem modCalm_se (f : Calm → Calm) (s : State) : (modCalm f s).se = s.se := (rfl)
@[simp] theorem modCalm_seg (f : Calm → Calm) (s : State) : (modCalm f s).seg = s.seg := (rfl)
@[simp] theorem modCalm_job (f : Calm → Calm) (s : State) : (modCalm f s).job = s.job := (rfl)
@[simp] theorem modCalm_sc (f : Calm → Calm) (s : State) : (modCalm f s).sc = s.sc := (rfl)
@[simp] theorem modCalm_scs (f : Calm → Calm) (s : State) : (modCalm f s).scs = s.scs := (rfl)
@[simp] theorem modCalm_rcd (f : Calm → Calm) (s : State) : (modCalm f s).rcd = s.rcd := (rfl)
@[simp] theorem modCalm_sys (f : Calm → Calm) (s : State) : (modCalm f s).sys = s.sys := (rfl)
@[simp] theorem modCalm_calm (f : Calm → Calm) (s : State) : (modCalm f s).calm = f s.calm := (rfl)

@[simp] theorem modScs_pending (f : ScShared → ScShared) (s : State) : (modScs f s).pending = s.pending := (rfl)
@[simp] theorem modScs_free (f : ScShared → ScShared) (s : State) : (modScs f s).free = s.free := (rfl)
@[simp] theorem modScs_out (f : ScShared → ScShared) (s : State) : (modScs f s).out = s.out := (rfl)
@[simp] theorem modScs_later (f : ScShared → ScShared) (s : State) : (modScs f s).later = s.later := (rfl)
@[simp] theorem modScs_dom (f : ScShared → ScShared) (s : State) : (modScs f s).dom = s.dom := (rfl)
@[simp] theorem modScs_tb (f : ScShared → ScShared) (s : State) : (modScs f s).tb = s.tb := (rfl)
@[simp] theorem modScs_shadows (f : ScShared → ScShared) (s : State) : (modScs f s).shadows = s.shadows := (rfl)
@[simp] theorem modScs_ch (f : ScShared → ScShared) (s : State) : (modScs f s).ch = s.ch := (rfl)
@[simp] theorem modScs_te (f : ScShared → ScShared) (s : State) : (modScs f s).te = s.te := (rfl)
@[simp] theorem modScs_win (f : ScShared → ScShared) (s : State) : (modScs f s).win = s.win := (rfl)
@[simp] theorem modScs_wt (f : ScShared → ScShared) (s : State) : (modScs f s).wt = s.wt := (rfl)
@[simp] theorem modScs_pin (f : ScShared → ScShared) (s : State) : (modScs f s).pin = s.pin := (rfl)
@[simp] theorem modScs_pins (f : ScShared → ScShared) (s : State) : (modScs f s).pins = s.pins := (rfl)
@[simp] theorem modScs_cis (f : ScShared → ScShared) (s : State) : (modScs f s).cis = s.cis := (rfl)
@[simp] theorem modScs_well (f : ScShared → ScShared) (s : State) : (modScs f s).well = s.well := (rfl)
@[simp] theorem modScs_pump (f : ScShared → ScShared) (s : State) : (modScs f s).pump = s.pump := (rfl)
@[simp] theorem modScs_ic (f : ScShared → ScShared) (s : State) : (modScs f s).ic = s.ic := (rfl)
@[simp] theorem modScs_link (f : ScShared → ScShared) (s : State) : (modScs f s).link = s.link := (rfl)
@[simp] theorem modScs_se (f : ScShared → ScShared) (s : State) : (modScs f s).se = s.se := (rfl)
@[simp] theorem modScs_seg (f : ScShared → ScShared) (s : State) : (modScs f s).seg = s.seg := (rfl)
@[simp] theorem modScs_job (f : ScShared → ScShared) (s : State) : (modScs f s).job = s.job := (rfl)
@[simp] theorem modScs_sc (f : ScShared → ScShared) (s : State) : (modScs f s).sc = s.sc := (rfl)
@[simp] theorem modScs_scs (f : ScShared → ScShared) (s : State) : (modScs f s).scs = f s.scs := (rfl)
@[simp] theorem modScs_rcd (f : ScShared → ScShared) (s : State) : (modScs f s).rcd = s.rcd := (rfl)
@[simp] theorem modScs_sys (f : ScShared → ScShared) (s : State) : (modScs f s).sys = s.sys := (rfl)
@[simp] theorem modScs_calm (f : ScShared → ScShared) (s : State) : (modScs f s).calm = s.calm := (rfl)

@[simp] theorem modBank_pending (b : Fin 8) (f : Bank → Bank) (s : State) : (modBank b f s).pending = s.pending := (rfl)
@[simp] theorem modBank_free (b : Fin 8) (f : Bank → Bank) (s : State) : (modBank b f s).free = s.free := (rfl)
@[simp] theorem modBank_out (b : Fin 8) (f : Bank → Bank) (s : State) : (modBank b f s).out = s.out := (rfl)
@[simp] theorem modBank_later (b : Fin 8) (f : Bank → Bank) (s : State) : (modBank b f s).later = s.later := (rfl)
@[simp] theorem modBank_dom (b : Fin 8) (f : Bank → Bank) (s : State) : (modBank b f s).dom = s.dom := (rfl)
@[simp] theorem modBank_tb (b : Fin 8) (f : Bank → Bank) (s : State) : (modBank b f s).tb = s.tb := (rfl)
@[simp] theorem modBank_shadows (b : Fin 8) (f : Bank → Bank) (s : State) : (modBank b f s).shadows = s.shadows := (rfl)
@[simp] theorem modBank_ch (b : Fin 8) (f : Bank → Bank) (s : State) : (modBank b f s).ch = s.ch := (rfl)
@[simp] theorem modBank_te (b : Fin 8) (f : Bank → Bank) (s : State) : (modBank b f s).te = s.te := (rfl)
@[simp] theorem modBank_win (b : Fin 8) (f : Bank → Bank) (s : State) : (modBank b f s).win = s.win := (rfl)
@[simp] theorem modBank_wt (b : Fin 8) (f : Bank → Bank) (s : State) : (modBank b f s).wt = s.wt := (rfl)
@[simp] theorem modBank_pin (b : Fin 8) (f : Bank → Bank) (s : State) : (modBank b f s).pin = s.pin := (rfl)
@[simp] theorem modBank_pins (b : Fin 8) (f : Bank → Bank) (s : State) : (modBank b f s).pins = s.pins := (rfl)
@[simp] theorem modBank_well (b : Fin 8) (f : Bank → Bank) (s : State) : (modBank b f s).well = s.well := (rfl)
@[simp] theorem modBank_pump (b : Fin 8) (f : Bank → Bank) (s : State) : (modBank b f s).pump = s.pump := (rfl)
@[simp] theorem modBank_ic (b : Fin 8) (f : Bank → Bank) (s : State) : (modBank b f s).ic = s.ic := (rfl)
@[simp] theorem modBank_link (b : Fin 8) (f : Bank → Bank) (s : State) : (modBank b f s).link = s.link := (rfl)
@[simp] theorem modBank_se (b : Fin 8) (f : Bank → Bank) (s : State) : (modBank b f s).se = s.se := (rfl)
@[simp] theorem modBank_seg (b : Fin 8) (f : Bank → Bank) (s : State) : (modBank b f s).seg = s.seg := (rfl)
@[simp] theorem modBank_job (b : Fin 8) (f : Bank → Bank) (s : State) : (modBank b f s).job = s.job := (rfl)
@[simp] theorem modBank_sc (b : Fin 8) (f : Bank → Bank) (s : State) : (modBank b f s).sc = s.sc := (rfl)
@[simp] theorem modBank_scs (b : Fin 8) (f : Bank → Bank) (s : State) : (modBank b f s).scs = s.scs := (rfl)
@[simp] theorem modBank_rcd (b : Fin 8) (f : Bank → Bank) (s : State) : (modBank b f s).rcd = s.rcd := (rfl)
@[simp] theorem modBank_sys (b : Fin 8) (f : Bank → Bank) (s : State) : (modBank b f s).sys = s.sys := (rfl)
@[simp] theorem modBank_calm (b : Fin 8) (f : Bank → Bank) (s : State) : (modBank b f s).calm = s.calm := (rfl)

@[simp] theorem modPort_pending (k : Fin 4) (f : LinkPort → LinkPort) (s : State) : (modPort k f s).pending = s.pending := (rfl)
@[simp] theorem modPort_free (k : Fin 4) (f : LinkPort → LinkPort) (s : State) : (modPort k f s).free = s.free := (rfl)
@[simp] theorem modPort_out (k : Fin 4) (f : LinkPort → LinkPort) (s : State) : (modPort k f s).out = s.out := (rfl)
@[simp] theorem modPort_later (k : Fin 4) (f : LinkPort → LinkPort) (s : State) : (modPort k f s).later = s.later := (rfl)
@[simp] theorem modPort_dom (k : Fin 4) (f : LinkPort → LinkPort) (s : State) : (modPort k f s).dom = s.dom := (rfl)
@[simp] theorem modPort_tb (k : Fin 4) (f : LinkPort → LinkPort) (s : State) : (modPort k f s).tb = s.tb := (rfl)
@[simp] theorem modPort_shadows (k : Fin 4) (f : LinkPort → LinkPort) (s : State) : (modPort k f s).shadows = s.shadows := (rfl)
@[simp] theorem modPort_ch (k : Fin 4) (f : LinkPort → LinkPort) (s : State) : (modPort k f s).ch = s.ch := (rfl)
@[simp] theorem modPort_te (k : Fin 4) (f : LinkPort → LinkPort) (s : State) : (modPort k f s).te = s.te := (rfl)
@[simp] theorem modPort_win (k : Fin 4) (f : LinkPort → LinkPort) (s : State) : (modPort k f s).win = s.win := (rfl)
@[simp] theorem modPort_wt (k : Fin 4) (f : LinkPort → LinkPort) (s : State) : (modPort k f s).wt = s.wt := (rfl)
@[simp] theorem modPort_pin (k : Fin 4) (f : LinkPort → LinkPort) (s : State) : (modPort k f s).pin = s.pin := (rfl)
@[simp] theorem modPort_pins (k : Fin 4) (f : LinkPort → LinkPort) (s : State) : (modPort k f s).pins = s.pins := (rfl)
@[simp] theorem modPort_cis (k : Fin 4) (f : LinkPort → LinkPort) (s : State) : (modPort k f s).cis = s.cis := (rfl)
@[simp] theorem modPort_well (k : Fin 4) (f : LinkPort → LinkPort) (s : State) : (modPort k f s).well = s.well := (rfl)
@[simp] theorem modPort_pump (k : Fin 4) (f : LinkPort → LinkPort) (s : State) : (modPort k f s).pump = s.pump := (rfl)
@[simp] theorem modPort_ic (k : Fin 4) (f : LinkPort → LinkPort) (s : State) : (modPort k f s).ic = s.ic := (rfl)
@[simp] theorem modPort_se (k : Fin 4) (f : LinkPort → LinkPort) (s : State) : (modPort k f s).se = s.se := (rfl)
@[simp] theorem modPort_seg (k : Fin 4) (f : LinkPort → LinkPort) (s : State) : (modPort k f s).seg = s.seg := (rfl)
@[simp] theorem modPort_job (k : Fin 4) (f : LinkPort → LinkPort) (s : State) : (modPort k f s).job = s.job := (rfl)
@[simp] theorem modPort_sc (k : Fin 4) (f : LinkPort → LinkPort) (s : State) : (modPort k f s).sc = s.sc := (rfl)
@[simp] theorem modPort_scs (k : Fin 4) (f : LinkPort → LinkPort) (s : State) : (modPort k f s).scs = s.scs := (rfl)
@[simp] theorem modPort_rcd (k : Fin 4) (f : LinkPort → LinkPort) (s : State) : (modPort k f s).rcd = s.rcd := (rfl)
@[simp] theorem modPort_sys (k : Fin 4) (f : LinkPort → LinkPort) (s : State) : (modPort k f s).sys = s.sys := (rfl)
@[simp] theorem modPort_calm (k : Fin 4) (f : LinkPort → LinkPort) (s : State) : (modPort k f s).calm = s.calm := (rfl)

@[simp] theorem modTgt_pending (h : Fin 32) (f : Target → Target) (s : State) : (modTgt h f s).pending = s.pending := (rfl)
@[simp] theorem modTgt_free (h : Fin 32) (f : Target → Target) (s : State) : (modTgt h f s).free = s.free := (rfl)
@[simp] theorem modTgt_out (h : Fin 32) (f : Target → Target) (s : State) : (modTgt h f s).out = s.out := (rfl)
@[simp] theorem modTgt_later (h : Fin 32) (f : Target → Target) (s : State) : (modTgt h f s).later = s.later := (rfl)
@[simp] theorem modTgt_dom (h : Fin 32) (f : Target → Target) (s : State) : (modTgt h f s).dom = s.dom := (rfl)
@[simp] theorem modTgt_tb (h : Fin 32) (f : Target → Target) (s : State) : (modTgt h f s).tb = s.tb := (rfl)
@[simp] theorem modTgt_shadows (h : Fin 32) (f : Target → Target) (s : State) : (modTgt h f s).shadows = s.shadows := (rfl)
@[simp] theorem modTgt_ch (h : Fin 32) (f : Target → Target) (s : State) : (modTgt h f s).ch = s.ch := (rfl)
@[simp] theorem modTgt_te (h : Fin 32) (f : Target → Target) (s : State) : (modTgt h f s).te = s.te := (rfl)
@[simp] theorem modTgt_win (h : Fin 32) (f : Target → Target) (s : State) : (modTgt h f s).win = s.win := (rfl)
@[simp] theorem modTgt_wt (h : Fin 32) (f : Target → Target) (s : State) : (modTgt h f s).wt = s.wt := (rfl)
@[simp] theorem modTgt_pin (h : Fin 32) (f : Target → Target) (s : State) : (modTgt h f s).pin = s.pin := (rfl)
@[simp] theorem modTgt_pins (h : Fin 32) (f : Target → Target) (s : State) : (modTgt h f s).pins = s.pins := (rfl)
@[simp] theorem modTgt_cis (h : Fin 32) (f : Target → Target) (s : State) : (modTgt h f s).cis = s.cis := (rfl)
@[simp] theorem modTgt_well (h : Fin 32) (f : Target → Target) (s : State) : (modTgt h f s).well = s.well := (rfl)
@[simp] theorem modTgt_pump (h : Fin 32) (f : Target → Target) (s : State) : (modTgt h f s).pump = s.pump := (rfl)
@[simp] theorem modTgt_link (h : Fin 32) (f : Target → Target) (s : State) : (modTgt h f s).link = s.link := (rfl)
@[simp] theorem modTgt_se (h : Fin 32) (f : Target → Target) (s : State) : (modTgt h f s).se = s.se := (rfl)
@[simp] theorem modTgt_seg (h : Fin 32) (f : Target → Target) (s : State) : (modTgt h f s).seg = s.seg := (rfl)
@[simp] theorem modTgt_job (h : Fin 32) (f : Target → Target) (s : State) : (modTgt h f s).job = s.job := (rfl)
@[simp] theorem modTgt_sc (h : Fin 32) (f : Target → Target) (s : State) : (modTgt h f s).sc = s.sc := (rfl)
@[simp] theorem modTgt_scs (h : Fin 32) (f : Target → Target) (s : State) : (modTgt h f s).scs = s.scs := (rfl)
@[simp] theorem modTgt_rcd (h : Fin 32) (f : Target → Target) (s : State) : (modTgt h f s).rcd = s.rcd := (rfl)
@[simp] theorem modTgt_sys (h : Fin 32) (f : Target → Target) (s : State) : (modTgt h f s).sys = s.sys := (rfl)
@[simp] theorem modTgt_calm (h : Fin 32) (f : Target → Target) (s : State) : (modTgt h f s).calm = s.calm := (rfl)

@[simp] theorem modLine_pending (t : Fin 4) (f : Line → Line) (s : State) : (modLine t f s).pending = s.pending := (rfl)
@[simp] theorem modLine_free (t : Fin 4) (f : Line → Line) (s : State) : (modLine t f s).free = s.free := (rfl)
@[simp] theorem modLine_out (t : Fin 4) (f : Line → Line) (s : State) : (modLine t f s).out = s.out := (rfl)
@[simp] theorem modLine_later (t : Fin 4) (f : Line → Line) (s : State) : (modLine t f s).later = s.later := (rfl)
@[simp] theorem modLine_dom (t : Fin 4) (f : Line → Line) (s : State) : (modLine t f s).dom = s.dom := (rfl)
@[simp] theorem modLine_tb (t : Fin 4) (f : Line → Line) (s : State) : (modLine t f s).tb = s.tb := (rfl)
@[simp] theorem modLine_shadows (t : Fin 4) (f : Line → Line) (s : State) : (modLine t f s).shadows = s.shadows := (rfl)
@[simp] theorem modLine_ch (t : Fin 4) (f : Line → Line) (s : State) : (modLine t f s).ch = s.ch := (rfl)
@[simp] theorem modLine_te (t : Fin 4) (f : Line → Line) (s : State) : (modLine t f s).te = s.te := (rfl)
@[simp] theorem modLine_win (t : Fin 4) (f : Line → Line) (s : State) : (modLine t f s).win = s.win := (rfl)
@[simp] theorem modLine_wt (t : Fin 4) (f : Line → Line) (s : State) : (modLine t f s).wt = s.wt := (rfl)
@[simp] theorem modLine_pin (t : Fin 4) (f : Line → Line) (s : State) : (modLine t f s).pin = s.pin := (rfl)
@[simp] theorem modLine_pins (t : Fin 4) (f : Line → Line) (s : State) : (modLine t f s).pins = s.pins := (rfl)
@[simp] theorem modLine_cis (t : Fin 4) (f : Line → Line) (s : State) : (modLine t f s).cis = s.cis := (rfl)
@[simp] theorem modLine_well (t : Fin 4) (f : Line → Line) (s : State) : (modLine t f s).well = s.well := (rfl)
@[simp] theorem modLine_pump (t : Fin 4) (f : Line → Line) (s : State) : (modLine t f s).pump = s.pump := (rfl)
@[simp] theorem modLine_ic (t : Fin 4) (f : Line → Line) (s : State) : (modLine t f s).ic = s.ic := (rfl)
@[simp] theorem modLine_link (t : Fin 4) (f : Line → Line) (s : State) : (modLine t f s).link = s.link := (rfl)
@[simp] theorem modLine_se (t : Fin 4) (f : Line → Line) (s : State) : (modLine t f s).se = s.se := (rfl)
@[simp] theorem modLine_seg (t : Fin 4) (f : Line → Line) (s : State) : (modLine t f s).seg = s.seg := (rfl)
@[simp] theorem modLine_sc (t : Fin 4) (f : Line → Line) (s : State) : (modLine t f s).sc = s.sc := (rfl)
@[simp] theorem modLine_scs (t : Fin 4) (f : Line → Line) (s : State) : (modLine t f s).scs = s.scs := (rfl)
@[simp] theorem modLine_rcd (t : Fin 4) (f : Line → Line) (s : State) : (modLine t f s).rcd = s.rcd := (rfl)
@[simp] theorem modLine_sys (t : Fin 4) (f : Line → Line) (s : State) : (modLine t f s).sys = s.sys := (rfl)
@[simp] theorem modLine_calm (t : Fin 4) (f : Line → Line) (s : State) : (modLine t f s).calm = s.calm := (rfl)

@[simp] theorem emit_pending (x : OutItem) (s : State) : (emit x s).pending = s.pending := (rfl)
@[simp] theorem emit_free (x : OutItem) (s : State) : (emit x s).free = s.free := (rfl)
@[simp] theorem emit_out (x : OutItem) (s : State) : (emit x s).out = s.out ++ [x] := (rfl)
@[simp] theorem emit_later (x : OutItem) (s : State) : (emit x s).later = s.later := (rfl)
@[simp] theorem emit_dom (x : OutItem) (s : State) : (emit x s).dom = s.dom := (rfl)
@[simp] theorem emit_tb (x : OutItem) (s : State) : (emit x s).tb = s.tb := (rfl)
@[simp] theorem emit_shadows (x : OutItem) (s : State) : (emit x s).shadows = s.shadows := (rfl)
@[simp] theorem emit_ch (x : OutItem) (s : State) : (emit x s).ch = s.ch := (rfl)
@[simp] theorem emit_te (x : OutItem) (s : State) : (emit x s).te = s.te := (rfl)
@[simp] theorem emit_win (x : OutItem) (s : State) : (emit x s).win = s.win := (rfl)
@[simp] theorem emit_wt (x : OutItem) (s : State) : (emit x s).wt = s.wt := (rfl)
@[simp] theorem emit_pin (x : OutItem) (s : State) : (emit x s).pin = s.pin := (rfl)
@[simp] theorem emit_pins (x : OutItem) (s : State) : (emit x s).pins = s.pins := (rfl)
@[simp] theorem emit_cis (x : OutItem) (s : State) : (emit x s).cis = s.cis := (rfl)
@[simp] theorem emit_well (x : OutItem) (s : State) : (emit x s).well = s.well := (rfl)
@[simp] theorem emit_pump (x : OutItem) (s : State) : (emit x s).pump = s.pump := (rfl)
@[simp] theorem emit_ic (x : OutItem) (s : State) : (emit x s).ic = s.ic := (rfl)
@[simp] theorem emit_link (x : OutItem) (s : State) : (emit x s).link = s.link := (rfl)
@[simp] theorem emit_se (x : OutItem) (s : State) : (emit x s).se = s.se := (rfl)
@[simp] theorem emit_seg (x : OutItem) (s : State) : (emit x s).seg = s.seg := (rfl)
@[simp] theorem emit_job (x : OutItem) (s : State) : (emit x s).job = s.job := (rfl)
@[simp] theorem emit_sc (x : OutItem) (s : State) : (emit x s).sc = s.sc := (rfl)
@[simp] theorem emit_scs (x : OutItem) (s : State) : (emit x s).scs = s.scs := (rfl)
@[simp] theorem emit_rcd (x : OutItem) (s : State) : (emit x s).rcd = s.rcd := (rfl)
@[simp] theorem emit_sys (x : OutItem) (s : State) : (emit x s).sys = s.sys := (rfl)
@[simp] theorem emit_calm (x : OutItem) (s : State) : (emit x s).calm = s.calm := (rfl)

@[simp] theorem settle_pending (s : State) : (settle s).pending = s.pending := (rfl)
@[simp] theorem settle_free (s : State) : (settle s).free = s.free := (rfl)
@[simp] theorem settle_out (s : State) : (settle s).out = s.out := (rfl)
@[simp] theorem settle_later (s : State) : (settle s).later = s.later := (rfl)
@[simp] theorem settle_dom (s : State) : (settle s).dom = s.dom := (rfl)
@[simp] theorem settle_tb (s : State) : (settle s).tb = s.tb := (rfl)
@[simp] theorem settle_shadows (s : State) : (settle s).shadows = s.shadows := (rfl)
@[simp] theorem settle_ch (s : State) : (settle s).ch = s.ch := (rfl)
@[simp] theorem settle_te (s : State) : (settle s).te = s.te := (rfl)
@[simp] theorem settle_win (s : State) : (settle s).win = s.win := (rfl)
@[simp] theorem settle_wt (s : State) : (settle s).wt = s.wt := (rfl)
@[simp] theorem settle_pin (s : State) : (settle s).pin = s.pin := (rfl)
@[simp] theorem settle_pins (s : State) : (settle s).pins = s.pins := (rfl)
@[simp] theorem settle_cis (s : State) : (settle s).cis = s.cis := (rfl)
@[simp] theorem settle_well (s : State) : (settle s).well = s.well := (rfl)
@[simp] theorem settle_pump (s : State) : (settle s).pump = s.pump := (rfl)
@[simp] theorem settle_link (s : State) : (settle s).link = s.link := (rfl)
@[simp] theorem settle_se (s : State) : (settle s).se = s.se := (rfl)
@[simp] theorem settle_seg (s : State) : (settle s).seg = s.seg := (rfl)
@[simp] theorem settle_job (s : State) : (settle s).job = s.job := (rfl)
@[simp] theorem settle_sc (s : State) : (settle s).sc = s.sc := (rfl)
@[simp] theorem settle_scs (s : State) : (settle s).scs = s.scs := (rfl)
@[simp] theorem settle_rcd (s : State) : (settle s).rcd = s.rcd := (rfl)
@[simp] theorem settle_sys (s : State) : (settle s).sys = s.sys := (rfl)
@[simp] theorem settle_calm (s : State) : (settle s).calm = s.calm := (rfl)

@[simp] theorem defer_pending (a : Later) (s : State) : (defer a s).pending = s.pending := by unfold defer; split <;> rfl
@[simp] theorem defer_free (a : Later) (s : State) : (defer a s).free = s.free := by unfold defer; split <;> rfl
@[simp] theorem defer_out (a : Later) (s : State) : (defer a s).out = s.out := by unfold defer; split <;> rfl
@[simp] theorem defer_dom (a : Later) (s : State) : (defer a s).dom = s.dom := by unfold defer; split <;> rfl
@[simp] theorem defer_tb (a : Later) (s : State) : (defer a s).tb = s.tb := by unfold defer; split <;> rfl
@[simp] theorem defer_shadows (a : Later) (s : State) : (defer a s).shadows = s.shadows := by unfold defer; split <;> rfl
@[simp] theorem defer_ch (a : Later) (s : State) : (defer a s).ch = s.ch := by unfold defer; split <;> rfl
@[simp] theorem defer_te (a : Later) (s : State) : (defer a s).te = s.te := by unfold defer; split <;> rfl
@[simp] theorem defer_win (a : Later) (s : State) : (defer a s).win = s.win := by unfold defer; split <;> rfl
@[simp] theorem defer_wt (a : Later) (s : State) : (defer a s).wt = s.wt := by unfold defer; split <;> rfl
@[simp] theorem defer_pin (a : Later) (s : State) : (defer a s).pin = s.pin := by unfold defer; split <;> rfl
@[simp] theorem defer_pins (a : Later) (s : State) : (defer a s).pins = s.pins := by unfold defer; split <;> rfl
@[simp] theorem defer_cis (a : Later) (s : State) : (defer a s).cis = s.cis := by unfold defer; split <;> rfl
@[simp] theorem defer_well (a : Later) (s : State) : (defer a s).well = s.well := by unfold defer; split <;> rfl
@[simp] theorem defer_pump (a : Later) (s : State) : (defer a s).pump = s.pump := by unfold defer; split <;> rfl
@[simp] theorem defer_ic (a : Later) (s : State) : (defer a s).ic = s.ic := by unfold defer; split <;> rfl
@[simp] theorem defer_link (a : Later) (s : State) : (defer a s).link = s.link := by unfold defer; split <;> rfl
@[simp] theorem defer_se (a : Later) (s : State) : (defer a s).se = s.se := by unfold defer; split <;> rfl
@[simp] theorem defer_seg (a : Later) (s : State) : (defer a s).seg = s.seg := by unfold defer; split <;> rfl
@[simp] theorem defer_job (a : Later) (s : State) : (defer a s).job = s.job := by unfold defer; split <;> rfl
@[simp] theorem defer_sc (a : Later) (s : State) : (defer a s).sc = s.sc := by unfold defer; split <;> rfl
@[simp] theorem defer_scs (a : Later) (s : State) : (defer a s).scs = s.scs := by unfold defer; split <;> rfl
@[simp] theorem defer_rcd (a : Later) (s : State) : (defer a s).rcd = s.rcd := by unfold defer; split <;> rfl
@[simp] theorem defer_sys (a : Later) (s : State) : (defer a s).sys = s.sys := by unfold defer; split <;> rfl
@[simp] theorem defer_calm (a : Later) (s : State) : (defer a s).calm = s.calm := by unfold defer; split <;> rfl
theorem mem_defer (a : Later) (s : State) : a ∈ (defer a s).later := by
  unfold defer; split
  · assumption
  · simp
end Sys2Proof.Machine
end

