-- ==== Sys2Proof/Laws/Settle.lean ====
section
/-! SUPPORT. Laws/Settle: what ends every command (`finish`, `settle`, `pulse`) does to the state. -/

namespace Sys2Proof.Machine
open Claims

theorem IcKept.refl (x : Ic) : IcKept x x := by constructor <;> intros <;> simp

theorem IcKept.trans {x y z : Ic} (a : IcKept x y) (b : IcKept y z) : IcKept x z := by
  constructor <;> intros <;> simp only [a.flat, a.refie, a.cmd, a.msix, a.msixEn, a.funcMask, a.cfg, a.active, a.sleep,
    a.priv, a.pme, a.errors, a.messages, a.normal, a.fast, b.flat, b.refie, b.cmd, b.msix, b.msixEn, b.funcMask, b.cfg,
    b.active, b.sleep, b.priv, b.pme, b.errors, b.messages, b.normal, b.fast, and_self]

/-- A source's input moves nothing but its level, its pending memory and its count. -/
theorem Src.input_kept (x : Src) (lv : Bool) : (x.input lv).cfg = x.cfg ∧ (x.input lv).active = x.active ∧ (x.input lv).live = lv := by
  unfold Src.input; split <;> simp

theorem Ic.input_kept (k : Fin 496) (lv : Bool) (x : Ic) : IcKept x (x.input k lv) := by
  have hs := Src.input_kept x.src[k] lv
  have cfg : ∀ j : Fin 496, (x.src.set k (x.src[k].input lv))[j].cfg = x.src[j].cfg := fun j => by
    by_cases h : k = j
    · subst h; rw [vset_same]; exact hs.1
    · rw [vset_ne _ _ _ _ (Ne.symm h)]
  have act : ∀ j : Fin 496, (x.src.set k (x.src[k].input lv))[j].active = x.src[j].active := fun j => by
    by_cases h : k = j
    · subst h; rw [vset_same]; exact hs.2.1
    · rw [vset_ne _ _ _ _ (Ne.symm h)]
  unfold Ic.input
  dsimp only
  split
  · constructor <;> first | rfl | exact cfg | exact act | skip
    all_goals
      intro h
      by_cases e : x.src[k].target = h
      · subst e; simp only [vset_same]; unfold Target.countOne IcClass.countOne; split <;> simp
      · simp only [vset_ne _ _ _ _ (Ne.symm e), and_self, implies_true]
  · constructor <;> first | rfl | exact cfg | exact act | (intro h; simp)

/-- So does the input of a private source. -/
theorem Ic.inputPriv_kept (h : Fin 32) (j : Fin 16) (lv : Bool) (x : Ic) : IcKept x (x.inputPriv h j lv) := by
  have hs := Src.input_kept x.tgt[h].priv[j] lv
  have prv : ∀ k : Fin 16, (x.tgt[h].priv.set j (x.tgt[h].priv[j].input lv))[k].cfg = x.tgt[h].priv[k].cfg ∧
      (x.tgt[h].priv.set j (x.tgt[h].priv[j].input lv))[k].active = x.tgt[h].priv[k].active := fun k => by
    by_cases e : j = k
    · subst e; rw [vset_same]; exact ⟨hs.1, hs.2.1⟩
    · rw [vset_ne _ _ _ _ (Ne.symm e)]; exact ⟨rfl, rfl⟩
  unfold Ic.inputPriv
  dsimp only
  constructor <;> first | rfl | (intro k; rfl) | skip
  all_goals
    intro g
    by_cases e : h = g
    · subst e
      simp only [vset_same]
      split
      · unfold Target.countOne IcClass.countOne
        split <;> first | exact prv | simp
      · first | exact prv | simp
    · simp only [vset_ne _ _ _ _ (Ne.symm e), and_self, implies_true]

theorem Ic.input_live (k : Fin 496) (lv : Bool) (x : Ic) : (x.input k lv).src[k].live = lv := by
  have hs := (Src.input_kept x.src[k] lv).2.2
  unfold Ic.input
  dsimp only
  split <;> (simp only [vset_same]; exact hs)

theorem Ic.input_other (k j : Fin 496) (lv : Bool) (x : Ic) (h : j ≠ k) : (x.input k lv).src[j] = x.src[j] := by
  unfold Ic.input
  dsimp only
  split <;> simp only [vset_ne _ _ _ _ h]

/-- An event without an edge moves a count only. -/
theorem Ic.event_kept (k : Fin 496) (x : Ic) : IcKept x (x.event k) := by
  have cfg : ∀ (j : Fin 496) (y : Src), y.cfg = x.src[k].cfg → (x.src.set k y)[j].cfg = x.src[j].cfg := fun j y h => by
    by_cases e : k = j
    · subst e; rw [vset_same]; exact h
    · rw [vset_ne _ _ _ _ (Ne.symm e)]
  have act : ∀ (j : Fin 496) (y : Src), y.active = x.src[k].active → (x.src.set k y)[j].active = x.src[j].active := fun j y h => by
    by_cases e : k = j
    · subst e; rw [vset_same]; exact h
    · rw [vset_ne _ _ _ _ (Ne.symm e)]
  unfold Ic.event
  dsimp only
  split
  · constructor <;> first | rfl | exact fun j => cfg j _ rfl | exact fun j => act j _ rfl | skip
    all_goals
      intro h
      by_cases e : x.src[k].target = h
      · subst e; simp only [vset_same]; unfold Target.countOne IcClass.countOne; split <;> simp
      · simp only [vset_ne _ _ _ _ (Ne.symm e), and_self, implies_true]
  · constructor <;> first | rfl | exact fun j => cfg j _ rfl | exact fun j => act j _ rfl | (intro h; simp)

theorem Ic.event_live (k j : Fin 496) (x : Ic) : (x.event k).src[j].live = x.src[j].live := by
  have h : (x.src.set k { x.src[k] with count := inc8 x.src[k].count })[j].live = x.src[j].live := by
    by_cases e : k = j
    · subst e; rw [vset_same]
    · rw [vset_ne _ _ _ _ (Ne.symm e)]
  unfold Ic.event
  dsimp only
  split <;> exact h

theorem Ic.event_falls (k : Fin 496) (x : Ic) : (x.event k).falls = x.falls := by
  unfold Ic.event
  dsimp only
  split <;> rfl

/-- What only the lists of the cycle tell apart. -/
theorem IcKept.lists (x : Ic) (a : List (Fin 496)) (b : List (Fin 32 × Fin 16)) (c : List (Fin 496 × Nat)) :
    IcKept x { x with falls := a, privFalls := b, cleared := c } := by
  constructor <;> intros <;> simp

/-- A source stands as its level has it: at 1 with it, else at 1 only while it is about to fall. -/
def Stands (x : Ic) (k : Fin 496) (lv : Bool) : Prop :=
  (lv = true → x.src[k].live = true) ∧ (lv = false → x.src[k].live = true → k ∈ x.falls)

theorem settleOne_kept (s : State) (x : Ic) (k : Fin 496) : IcKept x (settleOne s x k) := by
  unfold settleOne
  split
  · split
    · exact IcKept.lists x _ _ _
    · exact Ic.input_kept _ _ _
  · split
    · exact IcKept.lists x _ _ _
    · exact IcKept.refl _
  · exact IcKept.refl _

theorem settleOne_stands (s : State) (x : Ic) (k : Fin 496) (lv : Bool) (h : sourceLevel s k = some lv) :
    Stands (settleOne s x k) k lv := by
  unfold settleOne
  rw [h]
  cases lv with
  | true =>
    dsimp only
    split
    · exact ⟨fun _ => by assumption, fun e => by cases e⟩
    · exact ⟨fun _ => Ic.input_live _ _ _, fun e => by cases e⟩
  | false =>
    dsimp only
    split
    · exact ⟨fun e => (by cases e), fun _ _ => List.mem_cons_self⟩
    · rename_i q
      refine ⟨fun e => (by cases e), fun _ l => ?_⟩
      by_cases m : k ∈ x.falls
      · exact m
      · exact absurd ⟨l, m⟩ q

theorem settleOne_src (s : State) (x : Ic) (k j : Fin 496) (h : j ≠ k) : (settleOne s x k).src[j] = x.src[j] := by
  unfold settleOne
  split
  · split
    · rfl
    · exact Ic.input_other _ _ _ _ h
  · split <;> rfl
  · rfl

theorem settleOne_falls (s : State) (x : Ic) (k j : Fin 496) (h : j ≠ k) (m : j ∈ x.falls) : j ∈ (settleOne s x k).falls := by
  unfold settleOne
  split
  · split
    · simp [m, h]
    · unfold Ic.input; dsimp only; split <;> exact m
  · split
    · exact List.mem_cons_of_mem _ m
    · exact m
  · exact m

theorem settleFold_kept (s : State) (l : List (Fin 496)) (x : Ic) : IcKept x (l.foldl (settleOne s) x) := by
  induction l generalizing x with
  | nil => exact IcKept.refl _
  | cons k l ih => exact IcKept.trans (settleOne_kept s x k) (ih _)

theorem settleFold_stands (s : State) (l : List (Fin 496)) (x : Ic) (k : Fin 496) (lv : Bool)
    (h : sourceLevel s k = some lv) (hx : k ∈ l ∨ Stands x k lv) : Stands (l.foldl (settleOne s) x) k lv := by
  induction l generalizing x with
  | nil => simpa using hx
  | cons j l ih =>
    refine ih _ ?_
    by_cases e : k = j
    · subst e; exact .inr (settleOne_stands s x k lv h)
    · rcases hx with hx | hx
      · exact .inl ((List.mem_cons.mp hx).resolve_left e)
      · refine .inr ⟨fun q => ?_, fun q r => ?_⟩
        · rw [settleOne_src s x j k e]; exact hx.1 q
        · rw [settleOne_src s x j k e] at r; exact settleOne_falls s x j k e (hx.2 q r)

theorem setAgain_kept (s : State) (x : Ic) (c : Fin 496 × Nat) : IcKept x (setAgain s x c) := by
  unfold setAgain
  split
  · split
    · exact IcKept.trans (Ic.event_kept _ _) (IcKept.lists _ _ _ _)
    · exact IcKept.lists _ _ _ _
  · exact IcKept.refl _

theorem setAgain_live (s : State) (x : Ic) (c : Fin 496 × Nat) (k : Fin 496) :
    (setAgain s x c).src[k].live = x.src[k].live := by
  unfold setAgain
  split
  · split
    · exact Ic.event_live _ _ _
    · rfl
  · rfl

theorem setAgain_falls (s : State) (x : Ic) (c : Fin 496 × Nat) : (setAgain s x c).falls = x.falls := by
  unfold setAgain
  split
  · split
    · exact Ic.event_falls _ _
    · rfl
  · rfl

theorem againFold (s : State) (l : List (Fin 496 × Nat)) (x : Ic) :
    IcKept x (l.foldl (setAgain s) x) ∧ (∀ k : Fin 496, (l.foldl (setAgain s) x).src[k].live = x.src[k].live) ∧
      (l.foldl (setAgain s) x).falls = x.falls := by
  induction l generalizing x with
  | nil => exact ⟨IcKept.refl _, fun _ => rfl, rfl⟩
  | cons c l ih =>
    obtain ⟨a, b, d⟩ := ih (setAgain s x c)
    exact ⟨IcKept.trans (setAgain_kept s x c) a, fun k => (b k).trans (setAgain_live s x c k), d.trans (setAgain_falls s x c)⟩

theorem settleIc_eq (s : State) : settleIc s = s.ic.cleared.foldl (setAgain s)
    ((List.finRange 496).foldl (settleOne s) { s.ic with cleared := [] }) := by
  unfold settleIc
  rfl

theorem settle_ic_eq (s : State) : (settle s).ic = settleIc s := by simp only [settle]

/-- `settle` keeps what the interrupt controller keeps, and moves no other part. -/
theorem settle_ic (s : State) : IcKept s.ic (settle s).ic := by
  rw [settle_ic_eq, settleIc_eq]
  exact IcKept.trans (IcKept.trans (IcKept.lists s.ic _ _ _) (settleFold_kept s _ _)) (againFold s _ _).1

theorem Ic.errors_congr {x y : Ic} (h : IcKept x y) : y.errors = x.errors := by
  have m : y.tgt.map (fun t => 2 * b2n t.order + b2n t.deep) = x.tgt.map (fun t => 2 * b2n t.order + b2n t.deep) := by
    ext i hi
    have := h.errors ⟨i, hi⟩
    simp only [Fin.getElem_fin] at this
    simp only [Vector.getElem_map, this.1, this.2.1]
  have f (z : Ic) : z.errors = (z.tgt.map fun t => 2 * b2n t.order + b2n t.deep).toList.foldr (fun n a => a <<< 2 ||| n) 0 := by
    simp only [Ic.errors, Vector.toList_map, List.foldr_map]
  rw [f, f, m]

theorem sourceFlags_congr (s : State) (x : Ic) (h : IcKept s.ic x) (k : Nat) :
    sourceFlags { s with ic := x } k = sourceFlags s k := by
  unfold sourceFlags
  rw [Ic.errors_congr (y := x) h]
  rfl

/-- The level of a source depends on no input of a source. -/
theorem sourceLevel_congr (s : State) (x : Ic) (h : IcKept s.ic x) (k : Nat) :
    sourceLevel { s with ic := x } k = sourceLevel s k := by
  unfold sourceLevel
  rw [sourceFlags_congr s x h]
  rfl

theorem settle_sources (s : State) : Safety.sourcesFollow (settle s) := by
  intro k lv h
  have hk : sourceLevel s k = some lv := by
    have hi := settle_ic s
    rw [settle_ic_eq] at hi
    rw [← h, settle, sourceLevel_congr s (settleIc s) hi k]
  have w := settleFold_stands s (List.finRange 496) { s.ic with cleared := [] } k lv hk (.inl (List.mem_finRange k))
  obtain ⟨-, hl, hf⟩ := againFold s s.ic.cleared ((List.finRange 496).foldl (settleOne s) { s.ic with cleared := [] })
  rw [settle_ic_eq, settleIc_eq]
  exact ⟨fun q => by rw [hl]; exact w.1 q, fun q r => by rw [hf]; rw [hl] at r; exact w.2 q r⟩

/-- What ends a command where no entry into SAFE is owed. -/
theorem finish_of_served {s : State} (h : s.dom.safeNow = false) : finish s = settle s := by simp [finish, h]

theorem finish_served (s : State) : (finish s).dom.safeNow = false := by
  unfold finish
  split
  · rfl
  · rename_i h; simpa [settle] using h

theorem finish_sources (s : State) : Safety.sourcesFollow (finish s) := settle_sources _

theorem finish_inv (s : State) : Safety.Inv (finish s) := ⟨finish_served s, finish_sources s⟩

/-- A pulse of a shared source keeps what the interrupt controller keeps. -/
theorem pulse_ic (k : Fin 496) (s : State) : IcKept s.ic (pulse k s).ic :=
  IcKept.trans (Ic.input_kept k true s.ic) (IcKept.lists _ _ _ _)

theorem pulsePriv_ic (h : Fin 32) (j : Fin 16) (s : State) : IcKept s.ic (pulsePriv h j s).ic :=
  IcKept.trans (Ic.inputPriv_kept h j true s.ic) (IcKept.lists _ _ _ _)

theorem Ic.fall_kept (x : Ic) : IcKept x x.fall := by
  have inputs : ∀ (l : List (Fin 496)) (x : Ic), IcKept x (l.foldl (fun x k => x.input k false) x) := by
    intro l; induction l with
    | nil => exact IcKept.refl
    | cons k l ih => exact fun x => IcKept.trans (Ic.input_kept k false x) (ih _)
  have privs : ∀ (l : List (Fin 32 × Fin 16)) (x : Ic), IcKept x (l.foldl (fun x p => x.inputPriv p.1 p.2 false) x) := by
    intro l; induction l with
    | nil => exact IcKept.refl
    | cons p l ih => exact fun x => IcKept.trans (Ic.inputPriv_kept p.1 p.2 false x) (ih _)
  exact IcKept.trans (inputs _ x) (IcKept.trans (privs _ _) (IcKept.lists _ _ _ _))

/-- Time that passes over a device with nothing left to it changes the timebase, and lets pulses fall. -/
theorem tick_ic (k : Nat) (s : State) : IcKept s.ic (tick k s).ic := by
  unfold tick; split
  · exact IcKept.refl _
  · exact Ic.fall_kept _

theorem refuse_ic (b : Bool) (st : CmdStatus) (s : State) : IcKept s.ic (refuse b st s).ic := by
  unfold refuse
  split
  · exact pulse_ic _ _
  · exact IcKept.refl _

/-- A command whose effect owes no entry into SAFE completes with that effect, settled. -/
theorem does_done {c : Instr} {s x : State} {P : State → Prop} (h : exec c s = done x) (hs : x.dom.safeNow = false)
    (hp : P (settle x)) : Does c s P := ⟨settle x, by rw [h, done, finish_of_served hs], hp⟩

/-- A command's effect, ended. -/
theorem ends_done {c : Instr} {s x : State} {P : State → Prop} (h : exec c s = done x) (hp : P x) : Ends c s P := ⟨x, h, hp⟩

/-- What a command keeps is kept as the sources follow. -/
theorem onlyIn_settle {l : List Part} {s x : State} (h : OnlyIn l s x) : OnlyIn l s (settle x) := by
  intro p hp
  cases p <;> first | exact h _ hp | exact IcKept.trans (h .ic hp) (settle_ic x)

/-- A host access that the device takes. -/
theorem host_ok {p : Port} {s : State} (h : hostOk p s = true) (f : State → State) : host p f s = f s := by simp [host, h]
theorem hostRead_ok {p : Port} {s : State} (h : hostOk p s = true) (f : State → State × Word) :
    hostRead p f s = emit (.readData p (f s).2) (f s).1 := by simp [hostRead, h]

/-- A command that is not refused raises no refusal. -/
theorem refuse_ok (b : Bool) (st : CmdStatus) (s : State) (h : st ≠ .stateRefused) : refuse b st s = s := by
  simp [refuse, h]

end Sys2Proof.Machine
end

