-- ==== Sys2Proof/Laws/Keeps.lean ====
section
/-! SUPPORT. Laws/Keeps: for each shared operation, the parts of the state that it can change. -/

namespace Sys2Proof.Machine
open Claims

/-- The parts named are among `l`. -/
def Covers (a l : List Part) : Prop := ∀ p ∈ a, p ∈ l

theorem Covers.sub {a b l : List Part} (h : Covers b l) (d : (a.all fun p => decide (p ∈ b)) = true) : Covers a l := by
  intro p hp
  have := List.all_eq_true.mp d p hp
  exact h p (by simpa using this)

theorem Covers.all {a l : List Part} (d : (a.all fun p => decide (p ∈ l)) = true) : Covers a l := by
  intro p hp
  have := List.all_eq_true.mp d p hp
  simpa using this

theorem OnlyIn.refl (l : List Part) (s : State) : OnlyIn l s s := by
  intro q _; cases q <;> first | rfl | exact IcKept.refl _

/-- A state that differs in parts of `l` alone. -/
theorem OnlyIn.step {l : List Part} {s x y : State} (h : OnlyIn l s x) (e : ∀ p, p ∉ l → same p x y) : OnlyIn l s y := by
  intro p hp
  have a := h p hp
  have b := e p hp
  cases p <;> simp only [same] at a b ⊢ <;> first | exact b.trans a | exact IcKept.trans a b

theorem forAll_keeps {l : List Part} {s x : State} {n : Nat} [NeZero n] {f : Fin n → State → State}
    (hf : ∀ i y, OnlyIn l s y → OnlyIn l s (f i y)) (h : OnlyIn l s x) : OnlyIn l s (forAll n f x) := by
  unfold forAll
  generalize List.finRange n = r
  induction r generalizing x with
  | nil => exact h
  | cons i r ih => exact ih (hf i x h)

theorem foldl_keeps {α : Type} {l : List Part} {s x : State} {f : State → α → State} (r : List α)
    (hf : ∀ i y, OnlyIn l s y → OnlyIn l s (f y i)) (h : OnlyIn l s x) : OnlyIn l s (r.foldl f x) := by
  induction r generalizing x with
  | nil => exact h
  | cons i r ih => exact ih (hf i x h)

theorem fst_keeps {α : Type} {l : List Part} {s a : State} {y : State × α} {b : α} (e : y = (a, b)) (h : OnlyIn l s y.1) :
    OnlyIn l s a := by rw [e] at h; exact h

theorem pulse_keeps {l : List Part} {s x : State} {k : Fin 496} (h : OnlyIn l s x) : OnlyIn l s (pulse k x) := by
  refine OnlyIn.step h fun p _ => ?_
  cases p <;> first | rfl | exact pulse_ic k x

theorem pulsePriv_keeps {l : List Part} {s x : State} {i : Fin 32} {j : Fin 16} (h : OnlyIn l s x) : OnlyIn l s (pulsePriv i j x) := by
  refine OnlyIn.step h fun p _ => ?_
  cases p <;> first | rfl | exact pulsePriv_ic i j x

theorem refuse_keeps {l : List Part} {s x : State} {b : Bool} {st : CmdStatus} (h : OnlyIn l s x) :
    OnlyIn l s (refuse b st x) := by
  unfold refuse; split
  · exact pulse_keeps h
  · exact h

theorem settle_keeps {l : List Part} {s x : State} (h : OnlyIn l s x) : OnlyIn l s (settle x) := onlyIn_settle h

theorem keeps_pending {l : List Part} {s x : State} {v : _} (h : OnlyIn l s x) (hl : Covers [.pending] l) : OnlyIn l s { x with pending := v } := by
  refine OnlyIn.step h fun p hp => ?_
  cases p <;> first | rfl | exact IcKept.refl _ | exact absurd (hl _ (List.mem_singleton.mpr rfl)) hp
theorem keeps_free {l : List Part} {s x : State} {v : _} (h : OnlyIn l s x) (hl : Covers [.free] l) : OnlyIn l s { x with free := v } := by
  refine OnlyIn.step h fun p hp => ?_
  cases p <;> first | rfl | exact IcKept.refl _ | exact absurd (hl _ (List.mem_singleton.mpr rfl)) hp
theorem keeps_out {l : List Part} {s x : State} {v : _} (h : OnlyIn l s x) (hl : Covers [.out] l) : OnlyIn l s { x with out := v } := by
  refine OnlyIn.step h fun p hp => ?_
  cases p <;> first | rfl | exact IcKept.refl _ | exact absurd (hl _ (List.mem_singleton.mpr rfl)) hp
theorem keeps_later {l : List Part} {s x : State} {v : _} (h : OnlyIn l s x) (hl : Covers [.later] l) : OnlyIn l s { x with later := v } := by
  refine OnlyIn.step h fun p hp => ?_
  cases p <;> first | rfl | exact IcKept.refl _ | exact absurd (hl _ (List.mem_singleton.mpr rfl)) hp
theorem keeps_dom {l : List Part} {s x : State} {v : _} (h : OnlyIn l s x) (hl : Covers [.dom] l) : OnlyIn l s { x with dom := v } := by
  refine OnlyIn.step h fun p hp => ?_
  cases p <;> first | rfl | exact IcKept.refl _ | exact absurd (hl _ (List.mem_singleton.mpr rfl)) hp
theorem keeps_tb {l : List Part} {s x : State} {v : _} (h : OnlyIn l s x) (hl : Covers [.tb] l) : OnlyIn l s { x with tb := v } := by
  refine OnlyIn.step h fun p hp => ?_
  cases p <;> first | rfl | exact IcKept.refl _ | exact absurd (hl _ (List.mem_singleton.mpr rfl)) hp
theorem keeps_shadows {l : List Part} {s x : State} {v : _} (h : OnlyIn l s x) (hl : Covers [.shadows] l) : OnlyIn l s { x with shadows := v } := by
  refine OnlyIn.step h fun p hp => ?_
  cases p <;> first | rfl | exact IcKept.refl _ | exact absurd (hl _ (List.mem_singleton.mpr rfl)) hp
theorem keeps_ch {l : List Part} {s x : State} {v : _} (h : OnlyIn l s x) (hl : Covers [.ch] l) : OnlyIn l s { x with ch := v } := by
  refine OnlyIn.step h fun p hp => ?_
  cases p <;> first | rfl | exact IcKept.refl _ | exact absurd (hl _ (List.mem_singleton.mpr rfl)) hp
theorem keeps_te {l : List Part} {s x : State} {v : _} (h : OnlyIn l s x) (hl : Covers [.te] l) : OnlyIn l s { x with te := v } := by
  refine OnlyIn.step h fun p hp => ?_
  cases p <;> first | rfl | exact IcKept.refl _ | exact absurd (hl _ (List.mem_singleton.mpr rfl)) hp
theorem keeps_win {l : List Part} {s x : State} {v : _} (h : OnlyIn l s x) (hl : Covers [.win] l) : OnlyIn l s { x with win := v } := by
  refine OnlyIn.step h fun p hp => ?_
  cases p <;> first | rfl | exact IcKept.refl _ | exact absurd (hl _ (List.mem_singleton.mpr rfl)) hp
theorem keeps_wt {l : List Part} {s x : State} {v : _} (h : OnlyIn l s x) (hl : Covers [.wt] l) : OnlyIn l s { x with wt := v } := by
  refine OnlyIn.step h fun p hp => ?_
  cases p <;> first | rfl | exact IcKept.refl _ | exact absurd (hl _ (List.mem_singleton.mpr rfl)) hp
theorem keeps_pin {l : List Part} {s x : State} {v : _} (h : OnlyIn l s x) (hl : Covers [.pin] l) : OnlyIn l s { x with pin := v } := by
  refine OnlyIn.step h fun p hp => ?_
  cases p <;> first | rfl | exact IcKept.refl _ | exact absurd (hl _ (List.mem_singleton.mpr rfl)) hp
theorem keeps_pins {l : List Part} {s x : State} {v : _} (h : OnlyIn l s x) (hl : Covers [.pins] l) : OnlyIn l s { x with pins := v } := by
  refine OnlyIn.step h fun p hp => ?_
  cases p <;> first | rfl | exact IcKept.refl _ | exact absurd (hl _ (List.mem_singleton.mpr rfl)) hp
theorem keeps_cis {l : List Part} {s x : State} {v : _} (h : OnlyIn l s x) (hl : Covers [.cis] l) : OnlyIn l s { x with cis := v } := by
  refine OnlyIn.step h fun p hp => ?_
  cases p <;> first | rfl | exact IcKept.refl _ | exact absurd (hl _ (List.mem_singleton.mpr rfl)) hp
theorem keeps_well {l : List Part} {s x : State} {v : _} (h : OnlyIn l s x) (hl : Covers [.well] l) : OnlyIn l s { x with well := v } := by
  refine OnlyIn.step h fun p hp => ?_
  cases p <;> first | rfl | exact IcKept.refl _ | exact absurd (hl _ (List.mem_singleton.mpr rfl)) hp
theorem keeps_pump {l : List Part} {s x : State} {v : _} (h : OnlyIn l s x) (hl : Covers [.pump] l) : OnlyIn l s { x with pump := v } := by
  refine OnlyIn.step h fun p hp => ?_
  cases p <;> first | rfl | exact IcKept.refl _ | exact absurd (hl _ (List.mem_singleton.mpr rfl)) hp
theorem keeps_link {l : List Part} {s x : State} {v : _} (h : OnlyIn l s x) (hl : Covers [.link] l) : OnlyIn l s { x with link := v } := by
  refine OnlyIn.step h fun p hp => ?_
  cases p <;> first | rfl | exact IcKept.refl _ | exact absurd (hl _ (List.mem_singleton.mpr rfl)) hp
theorem keeps_se {l : List Part} {s x : State} {v : _} (h : OnlyIn l s x) (hl : Covers [.se] l) : OnlyIn l s { x with se := v } := by
  refine OnlyIn.step h fun p hp => ?_
  cases p <;> first | rfl | exact IcKept.refl _ | exact absurd (hl _ (List.mem_singleton.mpr rfl)) hp
theorem keeps_seg {l : List Part} {s x : State} {v : _} (h : OnlyIn l s x) (hl : Covers [.seg] l) : OnlyIn l s { x with seg := v } := by
  refine OnlyIn.step h fun p hp => ?_
  cases p <;> first | rfl | exact IcKept.refl _ | exact absurd (hl _ (List.mem_singleton.mpr rfl)) hp
theorem keeps_job {l : List Part} {s x : State} {v : _} (h : OnlyIn l s x) (hl : Covers [.job] l) : OnlyIn l s { x with job := v } := by
  refine OnlyIn.step h fun p hp => ?_
  cases p <;> first | rfl | exact IcKept.refl _ | exact absurd (hl _ (List.mem_singleton.mpr rfl)) hp
theorem keeps_sc {l : List Part} {s x : State} {v : _} (h : OnlyIn l s x) (hl : Covers [.sc] l) : OnlyIn l s { x with sc := v } := by
  refine OnlyIn.step h fun p hp => ?_
  cases p <;> first | rfl | exact IcKept.refl _ | exact absurd (hl _ (List.mem_singleton.mpr rfl)) hp
theorem keeps_scs {l : List Part} {s x : State} {v : _} (h : OnlyIn l s x) (hl : Covers [.scs] l) : OnlyIn l s { x with scs := v } := by
  refine OnlyIn.step h fun p hp => ?_
  cases p <;> first | rfl | exact IcKept.refl _ | exact absurd (hl _ (List.mem_singleton.mpr rfl)) hp
theorem keeps_rcd {l : List Part} {s x : State} {v : _} (h : OnlyIn l s x) (hl : Covers [.rcd] l) : OnlyIn l s { x with rcd := v } := by
  refine OnlyIn.step h fun p hp => ?_
  cases p <;> first | rfl | exact IcKept.refl _ | exact absurd (hl _ (List.mem_singleton.mpr rfl)) hp
theorem keeps_sys {l : List Part} {s x : State} {v : _} (h : OnlyIn l s x) (hl : Covers [.sys] l) : OnlyIn l s { x with sys := v } := by
  refine OnlyIn.step h fun p hp => ?_
  cases p <;> first | rfl | exact IcKept.refl _ | exact absurd (hl _ (List.mem_singleton.mpr rfl)) hp
theorem keeps_calm {l : List Part} {s x : State} {v : _} (h : OnlyIn l s x) (hl : Covers [.calm] l) : OnlyIn l s { x with calm := v } := by
  refine OnlyIn.step h fun p hp => ?_
  cases p <;> first | rfl | exact IcKept.refl _ | exact absurd (hl _ (List.mem_singleton.mpr rfl)) hp
theorem keeps_ic {l : List Part} {s x : State} {v : _} (h : OnlyIn l s x) (hl : Covers [.ic] l) : OnlyIn l s { x with ic := v } := by
  refine OnlyIn.step h fun p hp => ?_
  cases p <;> first | rfl | exact absurd (hl _ (List.mem_singleton.mpr rfl)) hp

theorem defer_keeps {l : List Part} {s x : State} {a : Later} (h : OnlyIn l s x) (hl : Covers [.later] l) : OnlyIn l s (defer a x) := by
  unfold defer; split
  · exact h
  · exact keeps_later h hl

theorem tick_keeps {l : List Part} {s x : State} {k : Nat} (h : OnlyIn l s x) (hl : Covers [.tb] l) : OnlyIn l s (tick k x) := by
  refine OnlyIn.step h fun p hp => ?_
  have ic := tick_ic k x
  cases p <;> first | exact ic | exact absurd (hl _ (List.mem_singleton.mpr rfl)) hp | (unfold tick; split <;> rfl)

theorem chCommand_keeps {l : List Part} {s x : State} {n : Fin 256} {st : CmdStatus} {f : State → State} (hf : OnlyIn l s (f x))
    (h : OnlyIn l s x) (hl : Covers [.ch] l) : OnlyIn l s (chCommand n st f x) := by
  unfold chCommand chAnswer
  refine refuse_keeps (keeps_ch ?_ hl)
  split <;> assumption

theorem modCh_keeps {l : List Part} {s x : State} {n : Fin 256} {f : Chan → Chan} (h : OnlyIn l s x) (hl : Covers [.ch] l) : OnlyIn l s (modCh n f x) := keeps_ch h hl
theorem modTe_keeps {l : List Part} {s x : State} {e : Fin 16} {f : Engine → Engine} (h : OnlyIn l s x) (hl : Covers [.te] l) : OnlyIn l s (modTe e f x) := keeps_te h hl
theorem modSe_keeps {l : List Part} {s x : State} {e : Fin 32} {f : Shift → Shift} (h : OnlyIn l s x) (hl : Covers [.se] l) : OnlyIn l s (modSe e f x) := keeps_se h hl
theorem modWin_keeps {l : List Part} {s x : State} {i : Fin 8} {f : WheelIn → WheelIn} (h : OnlyIn l s x) (hl : Covers [.win] l) : OnlyIn l s (modWin i f x) := keeps_win h hl
theorem modWt_keeps {l : List Part} {s x : State} {t : Fin 4} {f : Trk → Trk} (h : OnlyIn l s x) (hl : Covers [.wt] l) : OnlyIn l s (modWt t f x) := keeps_wt h hl
theorem modPin_keeps {l : List Part} {s x : State} {p : Fin 288} {f : Pin → Pin} (h : OnlyIn l s x) (hl : Covers [.pin] l) : OnlyIn l s (modPin p f x) := keeps_pin h hl
theorem modPins_keeps {l : List Part} {s x : State} {f : PinBlock → PinBlock} (h : OnlyIn l s x) (hl : Covers [.pins] l) : OnlyIn l s (modPins f x) := keeps_pins h hl
theorem modWell_keeps {l : List Part} {s x : State} {k : Fin 64} {f : Well → Well} (h : OnlyIn l s x) (hl : Covers [.well] l) : OnlyIn l s (modWell k f x) := keeps_well h hl
theorem modPump_keeps {l : List Part} {s x : State} {u : Fin 8} {f : Pump → Pump} (h : OnlyIn l s x) (hl : Covers [.pump] l) : OnlyIn l s (modPump u f x) := keeps_pump h hl
theorem modBank_keeps {l : List Part} {s x : State} {b : Fin 8} {f : Bank → Bank} (h : OnlyIn l s x) (hl : Covers [.cis] l) : OnlyIn l s (modBank b f x) := keeps_cis h hl
theorem modPort_keeps {l : List Part} {s x : State} {k : Fin 4} {f : LinkPort → LinkPort} (h : OnlyIn l s x) (hl : Covers [.link] l) : OnlyIn l s (modPort k f x) := keeps_link h hl
theorem modTgt_keeps {l : List Part} {s x : State} {h0 : Fin 32} {f : Target → Target} (h : OnlyIn l s x) (hl : Covers [.ic] l) : OnlyIn l s (modTgt h0 f x) := keeps_ic h hl
theorem modDom_keeps {l : List Part} {s x : State} {f : Domain → Domain} (h : OnlyIn l s x) (hl : Covers [.dom] l) : OnlyIn l s (modDom f x) := keeps_dom h hl
theorem modTb_keeps {l : List Part} {s x : State} {f : Timebase → Timebase} (h : OnlyIn l s x) (hl : Covers [.tb] l) : OnlyIn l s (modTb f x) := keeps_tb h hl
theorem modCis_keeps {l : List Part} {s x : State} {f : Cistern → Cistern} (h : OnlyIn l s x) (hl : Covers [.cis] l) : OnlyIn l s (modCis f x) := keeps_cis h hl
theorem modLink_keeps {l : List Part} {s x : State} {f : Link → Link} (h : OnlyIn l s x) (hl : Covers [.link] l) : OnlyIn l s (modLink f x) := keeps_link h hl
theorem modRcd_keeps {l : List Part} {s x : State} {f : Recorder → Recorder} (h : OnlyIn l s x) (hl : Covers [.rcd] l) : OnlyIn l s (modRcd f x) := keeps_rcd h hl
theorem modSys_keeps {l : List Part} {s x : State} {f : Sys → Sys} (h : OnlyIn l s x) (hl : Covers [.sys] l) : OnlyIn l s (modSys f x) := keeps_sys h hl
theorem modCalm_keeps {l : List Part} {s x : State} {f : Calm → Calm} (h : OnlyIn l s x) (hl : Covers [.calm] l) : OnlyIn l s (modCalm f x) := keeps_calm h hl
theorem modSc_keeps {l : List Part} {s x : State} {c : Fin 2} {f : Conv → Conv} (h : OnlyIn l s x) (hl : Covers [.sc] l) : OnlyIn l s (modSc c f x) := keeps_sc h hl
theorem modScs_keeps {l : List Part} {s x : State} {f : ScShared → ScShared} (h : OnlyIn l s x) (hl : Covers [.scs] l) : OnlyIn l s (modScs f x) := keeps_scs h hl
theorem modLine_keeps {l : List Part} {s x : State} {t : Fin 4} {f : Line → Line} (h : OnlyIn l s x) (hl : Covers [.job] l) : OnlyIn l s (modLine t f x) := keeps_job h hl
theorem emit_keeps {l : List Part} {s x : State} {o : OutItem} (h : OnlyIn l s x) (hl : Covers [.out] l) : OnlyIn l s (emit o x) := keeps_out h hl

theorem deferLast_keeps {l : List Part} {s x : State} {a : Later} (h : OnlyIn l s x) (hl : Covers [.later] l) :
    OnlyIn l s (deferLast a x) := by
  unfold deferLast
  repeat' (first | with_reducible assumption | with_reducible apply keeps_later | exact hl.sub (by decide) | with_reducible refine fst_keeps (by assumption) ?_ | intro _ _ _ | dsimp only | split)

theorem portTo_keeps {l : List Part} {s x : State} {k : Fin 4} {f : LinkPort → LinkPort} (h : OnlyIn l s x) (hl : Covers [.link] l) :
    OnlyIn l s (portTo k f x) := by
  unfold portTo
  repeat' (first | with_reducible assumption | with_reducible apply modPort_keeps | with_reducible apply modLink_keeps | with_reducible apply pulse_keeps | exact hl.sub (by decide) | with_reducible refine fst_keeps (by assumption) ?_ | intro _ _ _ | dsimp only | split)

theorem clocked_keeps {l : List Part} {s x : State} {f : State → State} (hf : OnlyIn l s (f x)) (h : OnlyIn l s x) :
    OnlyIn l s (clocked f x) := by
  unfold clocked
  split <;> assumption

theorem stands_keeps {l : List Part} {s x : State}  (h : OnlyIn l s x) (hl : Covers [.later] l) :
    OnlyIn l s (stands  x) := by
  unfold stands
  repeat' (first | with_reducible assumption | with_reducible apply defer_keeps | exact hl.sub (by decide) | with_reducible refine fst_keeps (by assumption) ?_ | intro _ _ _ | dsimp only | split)

theorem recordIn_keeps {l : List Part} {s x : State} {type : Nat} {unit : Nat} {stamp : Stamp} {data : BitVec 64} {follow : List Record} (h : OnlyIn l s x) (hl : Covers [.rcd] l) :
    OnlyIn l s (recordIn type unit stamp data follow x) := by
  unfold recordIn
  repeat' (first | with_reducible assumption | with_reducible apply modRcd_keeps | exact hl.sub (by decide) | with_reducible refine fst_keeps (by assumption) ?_ | intro _ _ _ | dsimp only | split)

theorem recordOut_keeps {l : List Part} {s x : State} {type : Nat} {unit : Nat} {stamp : Stamp} {data : BitVec 64} (h : OnlyIn l s x) (hl : Covers [.rcd] l) :
    OnlyIn l s (recordOut type unit stamp data x) := by
  unfold recordOut
  repeat' (first | with_reducible assumption | with_reducible apply modRcd_keeps | exact hl.sub (by decide) | with_reducible refine fst_keeps (by assumption) ?_ | intro _ _ _ | dsimp only | split)

theorem recTrigger_keeps {l : List Part} {s x : State} {c : Nat} (h : OnlyIn l s x) (hl : Covers [.rcd] l) :
    OnlyIn l s (recTrigger c x) := by
  unfold recTrigger
  repeat' (first | with_reducible assumption | with_reducible apply modRcd_keeps | exact hl.sub (by decide) | with_reducible refine fst_keeps (by assumption) ?_ | intro _ _ _ | dsimp only | split)

theorem post_keeps {l : List Part} {s x : State} {e : Fin 16} {num : Nat} {arg : Word} (h : OnlyIn l s x) (hl : Covers [.te] l) :
    OnlyIn l s (post e num arg x) := by
  unfold post
  repeat' (first | with_reducible assumption | with_reducible apply modTe_keeps | exact hl.sub (by decide) | with_reducible refine fst_keeps (by assumption) ?_ | intro _ _ _ | dsimp only | split)

theorem postMask_keeps {l : List Part} {s x : State} {mask : BitVec 16} {num : Nat} {arg : Word} (h : OnlyIn l s x) (hl : Covers [.te] l) :
    OnlyIn l s (postMask mask num arg x) := by
  unfold postMask
  repeat' (first | with_reducible assumption | with_reducible apply post_keeps | with_reducible apply forAll_keeps | exact hl.sub (by decide) | with_reducible refine fst_keeps (by assumption) ?_ | intro _ _ _ | dsimp only | split)

theorem recordEdge_keeps {l : List Part} {s x : State} {p : Fin 288} {t : Stamp} {lv : Bool} (h : OnlyIn l s x) (hl : Covers [.pin, .rcd] l) :
    OnlyIn l s (recordEdge p t lv x) := by
  unfold recordEdge
  repeat' (first | with_reducible assumption | with_reducible apply recordOut_keeps | with_reducible apply modPin_keeps | exact hl.sub (by decide) | with_reducible refine fst_keeps (by assumption) ?_ | intro _ _ _ | dsimp only | split)

theorem calmRecord_keeps {l : List Part} {s x : State} {cause : Nat} {unit : Nat} {detail : Word} (h : OnlyIn l s x) (hl : Covers [.calm] l) :
    OnlyIn l s (calmRecord cause unit detail x) := by
  unfold calmRecord
  repeat' (first | with_reducible assumption | with_reducible apply modCalm_keeps | exact hl.sub (by decide) | with_reducible refine fst_keeps (by assumption) ?_ | intro _ _ _ | dsimp only | split)

theorem raiseFault_keeps {l : List Part} {s x : State} {c : Fin 5} {onset : Bool} {unit : Nat} {detail : Word} (h : OnlyIn l s x) (hl : Covers [.dom, .pins, .rcd, .calm] l) :
    OnlyIn l s (raiseFault c onset unit detail x) := by
  unfold raiseFault
  repeat' (first | with_reducible assumption | with_reducible apply recTrigger_keeps | with_reducible apply modDom_keeps | with_reducible apply modPins_keeps | with_reducible apply calmRecord_keeps | exact hl.sub (by decide) | with_reducible refine fst_keeps (by assumption) ?_ | intro _ _ _ | dsimp only | split)

theorem violate_keeps {l : List Part} {s x : State} {p : Fin 288} {k : Fin 5} (h : OnlyIn l s x) (hl : Covers [.pin, .pins, .rcd] l) :
    OnlyIn l s (violate p k x) := by
  unfold violate
  repeat' (first | with_reducible assumption | with_reducible apply recordOut_keeps | with_reducible apply modPin_keeps | with_reducible apply modPins_keeps | exact hl.sub (by decide) | with_reducible refine fst_keeps (by assumption) ?_ | intro _ _ _ | dsimp only | split)

theorem queueEdge_keeps {l : List Part} {s x : State} {p : Fin 288} {t : Stamp} {lv : Bool} (h : OnlyIn l s x) (hl : Covers [.pin, .rcd] l) :
    OnlyIn l s (queueEdge p t lv x) := by
  unfold queueEdge
  repeat' (first | with_reducible assumption | with_reducible apply modPin_keeps | with_reducible apply recordEdge_keeps | exact hl.sub (by decide) | with_reducible refine fst_keeps (by assumption) ?_ | intro _ _ _ | dsimp only | split)

theorem setBall_keeps {l : List Part} {s x : State} {p : Fin 288} {lv : Option Bool} (h : OnlyIn l s x) (hl : Covers [.pin, .rcd] l) :
    OnlyIn l s (setBall p lv x) := by
  unfold setBall
  repeat' (first | with_reducible assumption | with_reducible apply modPin_keeps | with_reducible apply recordEdge_keeps | exact hl.sub (by decide) | with_reducible refine fst_keeps (by assumption) ?_ | intro _ _ _ | dsimp only | split)

theorem sckFalls_keeps {l : List Part} {s x : State} {p : Fin 288} {lv : Bool} (h : OnlyIn l s x) (hl : Covers [.pin, .rcd] l) :
    OnlyIn l s (sckFalls p lv x) := by
  unfold sckFalls
  repeat' (first | with_reducible assumption | with_reducible apply modPin_keeps | with_reducible apply queueEdge_keeps | exact hl.sub (by decide) | with_reducible refine fst_keeps (by assumption) ?_ | intro _ _ _ | dsimp only | split)

theorem passLead_keeps {l : List Part} {s x : State} {p : Fin 288} {t : Stamp} {lv : Bool} {width : Option Stamp} (h : OnlyIn l s x) (hl : Covers [.pin, .rcd] l) :
    OnlyIn l s (passLead p t lv width x) := by
  unfold passLead
  repeat' (first | with_reducible assumption | with_reducible apply pulse_keeps | with_reducible apply modPin_keeps | with_reducible apply queueEdge_keeps | exact hl.sub (by decide) | with_reducible refine fst_keeps (by assumption) ?_ | intro _ _ _ | dsimp only | split)

theorem holdBack_keeps {l : List Part} {s x : State} {p : Fin 288} {k : Fin 5} (h : OnlyIn l s x) (hl : Covers [.pin, .pins, .rcd] l) :
    OnlyIn l s (holdBack p k x) := by
  unfold holdBack
  repeat' (first | with_reducible assumption | with_reducible apply modPin_keeps | with_reducible apply violate_keeps | exact hl.sub (by decide) | with_reducible refine fst_keeps (by assumption) ?_ | intro _ _ _ | dsimp only | split)

theorem enterLive_keeps {l : List Part} {s x : State} {p : Fin 288} (h : OnlyIn l s x) (hl : Covers [.pin, .pins, .rcd] l) :
    OnlyIn l s (enterLive p x) := by
  unfold enterLive
  repeat' (first | with_reducible assumption | with_reducible apply setBall_keeps | with_reducible apply passLead_keeps | with_reducible apply modPin_keeps | with_reducible apply holdBack_keeps | with_reducible apply sckFalls_keeps | exact hl.sub (by decide) | with_reducible refine fst_keeps (by assumption) ?_ | intro _ _ _ | dsimp only | split)

theorem refreshPin_keeps {l : List Part} {s x : State} {p : Fin 288} (h : OnlyIn l s x) (hl : Covers [.pin, .pins, .rcd] l) :
    OnlyIn l s (refreshPin p x) := by
  unfold refreshPin
  repeat' (first | with_reducible assumption | with_reducible apply setBall_keeps | with_reducible apply modPin_keeps | with_reducible apply enterLive_keeps | exact hl.sub (by decide) | with_reducible refine fst_keeps (by assumption) ?_ | intro _ _ _ | dsimp only | split)

theorem refreshPins_keeps {l : List Part} {s x : State}  (h : OnlyIn l s x) (hl : Covers [.pin, .pins, .rcd] l) :
    OnlyIn l s (refreshPins  x) := by
  unfold refreshPins
  repeat' (first | with_reducible assumption | with_reducible apply forAll_keeps | with_reducible apply refreshPin_keeps | exact hl.sub (by decide) | with_reducible refine fst_keeps (by assumption) ?_ | intro _ _ _ | dsimp only | split)

theorem forcePin_keeps {l : List Part} {s x : State} {p : Fin 288} (h : OnlyIn l s x) (hl : Covers [.dom, .pin, .pins, .rcd, .calm] l) :
    OnlyIn l s (forcePin p x) := by
  unfold forcePin
  repeat' (first | with_reducible assumption | with_reducible apply raiseFault_keeps | with_reducible apply refreshPin_keeps | with_reducible apply modPin_keeps | exact hl.sub (by decide) | with_reducible refine fst_keeps (by assumption) ?_ | intro _ _ _ | dsimp only | split)

theorem suppressPulse_keeps {l : List Part} {s x : State} {p : Fin 288} {k : Fin 5} (h : OnlyIn l s x) (hl : Covers [.dom, .pin, .pins, .rcd, .calm] l) :
    OnlyIn l s (suppressPulse p k x) := by
  unfold suppressPulse
  repeat' (first | with_reducible assumption | with_reducible apply forcePin_keeps | with_reducible apply holdBack_keeps | exact hl.sub (by decide) | with_reducible refine fst_keeps (by assumption) ?_ | intro _ _ _ | dsimp only | split)

theorem trailEdge_keeps {l : List Part} {s x : State} {p : Fin 288} {gen : Bool} {t : Stamp} {lv : Bool} (h : OnlyIn l s x) (hl : Covers [.pin, .rcd] l) :
    OnlyIn l s (trailEdge p gen t lv x) := by
  unfold trailEdge
  repeat' (first | with_reducible assumption | with_reducible apply modPin_keeps | with_reducible apply queueEdge_keeps | exact hl.sub (by decide) | with_reducible refine fst_keeps (by assumption) ?_ | intro _ _ _ | dsimp only | split)

theorem leadEdge_keeps {l : List Part} {s x : State} {p : Fin 288} {t : Stamp} {lv : Bool} {width : Option Stamp} (h : OnlyIn l s x) (hl : Covers [.dom, .pin, .pins, .rcd, .calm] l) :
    OnlyIn l s (leadEdge p t lv width x) := by
  unfold leadEdge
  repeat' (first | with_reducible assumption | with_reducible apply pulse_keeps | with_reducible apply passLead_keeps | with_reducible apply modPin_keeps | with_reducible apply queueEdge_keeps | with_reducible apply suppressPulse_keeps | exact hl.sub (by decide) | with_reducible refine fst_keeps (by assumption) ?_ | intro _ _ _ | dsimp only | split)

theorem sourceEdge_keeps {l : List Part} {s x : State} {p : Fin 288} {t : Stamp} {lv : Bool} {width : Option Stamp} (h : OnlyIn l s x) (hl : Covers [.dom, .pin, .pins, .rcd, .calm] l) :
    OnlyIn l s (sourceEdge p t lv width x) := by
  unfold sourceEdge
  repeat' (first | with_reducible assumption | with_reducible apply modPin_keeps | with_reducible apply leadEdge_keeps | with_reducible apply trailEdge_keeps | with_reducible apply queueEdge_keeps | exact hl.sub (by decide) | with_reducible refine fst_keeps (by assumption) ?_ | intro _ _ _ | dsimp only | split)

theorem holdSafe_keeps {l : List Part} {s x : State} {p : Fin 288} (h : OnlyIn l s x) (hl : Covers [.pin, .rcd] l) :
    OnlyIn l s (holdSafe p x) := by
  unfold holdSafe
  repeat' (first | with_reducible assumption | with_reducible apply modPin_keeps | with_reducible apply setBall_keeps | exact hl.sub (by decide) | with_reducible refine fst_keeps (by assumption) ?_ | intro _ _ _ | dsimp only | split)

theorem guardInForce_keeps {l : List Part} {s x : State} {p : Fin 288} (h : OnlyIn l s x) (hl : Covers [.pin, .pins, .rcd] l) :
    OnlyIn l s (guardInForce p x) := by
  unfold guardInForce
  repeat' (first | with_reducible assumption | with_reducible apply modPin_keeps | with_reducible apply refreshPin_keeps | with_reducible apply holdSafe_keeps | exact hl.sub (by decide) | with_reducible refine fst_keeps (by assumption) ?_ | intro _ _ _ | dsimp only | split)

theorem matrixInForce_keeps {l : List Part} {s x : State} {on : Bool} (h : OnlyIn l s x) (hl : Covers [.pin, .pins, .rcd] l) :
    OnlyIn l s (matrixInForce on x) := by
  unfold matrixInForce
  split
  · exact h
  · refine refreshPins_keeps (modPins_keeps ?_ (hl.sub (by decide))) hl
    split
    · exact keeps_pin h (hl.sub (by decide))
    · exact h

theorem chanPins_keeps {l : List Part} {s x : State} {n : Fin 256} {t : Stamp} {lv : Bool} {width : Option Stamp} (h : OnlyIn l s x) (hl : Covers [.dom, .pin, .pins, .rcd, .calm] l) :
    OnlyIn l s (chanPins n t lv width x) := by
  unfold chanPins
  repeat' (first | with_reducible assumption | with_reducible apply sourceEdge_keeps | with_reducible apply forAll_keeps | exact hl.sub (by decide) | with_reducible refine fst_keeps (by assumption) ?_ | intro _ _ _ | dsimp only | split)

theorem refreshChanPins_keeps {l : List Part} {s x : State} {n : Fin 256} (h : OnlyIn l s x) (hl : Covers [.pin, .pins, .rcd] l) :
    OnlyIn l s (refreshChanPins n x) := by
  unfold refreshChanPins
  repeat' (first | with_reducible assumption | with_reducible apply refreshPin_keeps | with_reducible apply forAll_keeps | exact hl.sub (by decide) | with_reducible refine fst_keeps (by assumption) ?_ | intro _ _ _ | dsimp only | split)

theorem companionPins_keeps {l : List Part} {s x : State} {n : Fin 256} {t : Stamp} (h : OnlyIn l s x) (hl : Covers [.dom, .pin, .pins, .rcd, .calm] l) :
    OnlyIn l s (companionPins n t x) := by
  unfold companionPins
  repeat' (first | with_reducible assumption | with_reducible apply sourceEdge_keeps | with_reducible apply forAll_keeps | exact hl.sub (by decide) | with_reducible refine fst_keeps (by assumption) ?_ | intro _ _ _ | dsimp only | split)

theorem shiftPins_keeps {l : List Part} {s x : State} {e : Fin 32} (h : OnlyIn l s x) (hl : Covers [.dom, .pin, .pins, .rcd, .calm] l) :
    OnlyIn l s (shiftPins e x) := by
  unfold shiftPins
  repeat' (first | with_reducible assumption | with_reducible apply forAll_keeps | with_reducible apply sourceEdge_keeps | exact hl.sub (by decide) | with_reducible refine fst_keeps (by assumption) ?_ | intro _ _ _ | dsimp only | split)

theorem sckPins_keeps {l : List Part} {s x : State} {e : Fin 32} {t : Stamp} {lv : Bool} (h : OnlyIn l s x) (hl : Covers [.dom, .pin, .pins, .rcd, .calm] l) :
    OnlyIn l s (sckPins e t lv x) := by
  unfold sckPins
  repeat' (first | with_reducible assumption | with_reducible apply sourceEdge_keeps | with_reducible apply forAll_keeps | exact hl.sub (by decide) | with_reducible refine fst_keeps (by assumption) ?_ | intro _ _ _ | dsimp only | split)

theorem injectRequest_keeps {l : List Part} {s x : State} {c : Fin 2} {r : Injection} (h : OnlyIn l s x) (hl : Covers [.sc] l) :
    OnlyIn l s (injectRequest c r x) := by
  unfold injectRequest
  repeat' (first | with_reducible assumption | with_reducible apply modSc_keeps | exact hl.sub (by decide) | with_reducible refine fst_keeps (by assumption) ?_ | intro _ _ _ | dsimp only | split)

theorem plausFail_keeps {l : List Part} {s x : State} {cause : BitVec 2} (h : OnlyIn l s x) (hl : Covers [.scs] l) :
    OnlyIn l s (plausFail cause x) := by
  unfold plausFail
  repeat' (first | with_reducible assumption | with_reducible apply modScs_keeps | with_reducible apply pulse_keeps | exact hl.sub (by decide) | with_reducible refine fst_keeps (by assumption) ?_ | intro _ _ _ | dsimp only | split)

theorem channelInject_keeps {l : List Part} {s x : State} {n : Fin 256} (h : OnlyIn l s x) (hl : Covers [.sc] l) :
    OnlyIn l s (channelInject n x) := by
  unfold channelInject
  repeat' (first | with_reducible assumption | with_reducible apply injectRequest_keeps | with_reducible apply forAll_keeps | exact hl.sub (by decide) | with_reducible refine fst_keeps (by assumption) ?_ | intro _ _ _ | dsimp only | split)

theorem setFlag_keeps {l : List Part} {s x : State} {n : Fin 256} {i : Nat} (h : OnlyIn l s x) (hl : Covers [.ch, .te] l) :
    OnlyIn l s (setFlag n i x) := by
  unfold setFlag
  repeat' (first | with_reducible assumption | with_reducible apply post_keeps | with_reducible apply modCh_keeps | exact hl.sub (by decide) | with_reducible refine fst_keeps (by assumption) ?_ | intro _ _ _ | dsimp only | split)

theorem suppressEvent_keeps {l : List Part} {s x : State} {n : Fin 256} (h : OnlyIn l s x) (hl : Covers [.ch, .te] l) :
    OnlyIn l s (suppressEvent n x) := by
  unfold suppressEvent
  repeat' (first | with_reducible assumption | with_reducible apply modCh_keeps | with_reducible apply setFlag_keeps | exact hl.sub (by decide) | with_reducible refine fst_keeps (by assumption) ?_ | intro _ _ _ | dsimp only | split)

theorem setTrg_keeps {l : List Part} {s x : State} {e : Fin 32} (h : OnlyIn l s x) (hl : Covers [.se] l) :
    OnlyIn l s (setTrg e x) := by
  unfold setTrg
  repeat' (first | with_reducible assumption | with_reducible apply modSe_keeps | exact hl.sub (by decide) | with_reducible refine fst_keeps (by assumption) ?_ | intro _ _ _ | dsimp only | split)

theorem channelRise_keeps {l : List Part} {s x : State} {n : Fin 256} (h : OnlyIn l s x) (hl : Covers [.se, .sc] l) :
    OnlyIn l s (channelRise n x) := by
  unfold channelRise
  repeat' (first | with_reducible assumption | with_reducible apply channelInject_keeps | with_reducible apply setTrg_keeps | with_reducible apply forAll_keeps | exact hl.sub (by decide) | with_reducible refine fst_keeps (by assumption) ?_ | intro _ _ _ | dsimp only | split)

theorem setOut_keeps {l : List Part} {s x : State} {n : Fin 256} {raw : Bool} (h : OnlyIn l s x) (hl : Covers [.ch, .se, .sc] l) :
    OnlyIn l s (setOut n raw x) := by
  unfold setOut
  repeat' (first | with_reducible assumption | with_reducible apply channelRise_keeps | with_reducible apply modCh_keeps | exact hl.sub (by decide) | with_reducible refine fst_keeps (by assumption) ?_ | intro _ _ _ | dsimp only | split)

theorem localEdge_keeps {l : List Part} {s x : State} {n : Fin 256} {t : Stamp} {raw : Bool} {width : Option Stamp} (h : OnlyIn l s x) (hl : Covers [.dom, .ch, .pin, .pins, .se, .sc, .rcd, .calm] l) :
    OnlyIn l s (localEdge n t raw width x) := by
  unfold localEdge
  repeat' (first | with_reducible assumption | with_reducible apply chanPins_keeps | with_reducible apply setOut_keeps | exact hl.sub (by decide) | with_reducible refine fst_keeps (by assumption) ?_ | intro _ _ _ | dsimp only | split)

theorem fireCode_keeps {l : List Part} {s x : State} {n : Fin 256} {t : Stamp} {code : BitVec 3} (h : OnlyIn l s x) (hl : Covers [.dom, .ch, .pin, .pins, .rcd, .calm] l) :
    OnlyIn l s (fireCode n t code x) := by
  unfold fireCode
  repeat' (first | with_reducible assumption | with_reducible apply modCh_keeps | with_reducible apply companionPins_keeps | exact hl.sub (by decide) | with_reducible refine fst_keeps (by assumption) ?_ | intro _ _ _ | dsimp only | split)

theorem stopLocal_keeps {l : List Part} {s x : State} {n : Fin 256} (h : OnlyIn l s x) (hl : Covers [.ch] l) :
    OnlyIn l s (stopLocal n x) := by
  unfold stopLocal
  repeat' (first | with_reducible assumption | with_reducible apply modCh_keeps | exact hl.sub (by decide) | with_reducible refine fst_keeps (by assumption) ?_ | intro _ _ _ | dsimp only | split)

theorem matchAction_keeps {l : List Part} {s x : State} {n : Fin 256} (h : OnlyIn l s x) (hl : Covers [.dom, .ch, .te, .pin, .pins, .se, .sc, .rcd, .calm] l) :
    OnlyIn l s (matchAction n x) := by
  unfold matchAction
  repeat' (first | with_reducible assumption | with_reducible apply stopLocal_keeps | with_reducible apply localEdge_keeps | with_reducible apply suppressEvent_keeps | with_reducible apply fireCode_keeps | with_reducible apply modCh_keeps | exact hl.sub (by decide) | with_reducible refine fst_keeps (by assumption) ?_ | intro _ _ _ | dsimp only | split)

theorem localMatch_keeps {l : List Part} {s x : State} {n : Fin 256} (h : OnlyIn l s x) (hl : Covers [.dom, .ch, .te, .pin, .pins, .se, .sc, .rcd, .calm] l) :
    OnlyIn l s (localMatch n x) := by
  unfold localMatch
  repeat' (first | with_reducible assumption | with_reducible apply setFlag_keeps | with_reducible apply matchAction_keeps | exact hl.sub (by decide) | with_reducible refine fst_keeps (by assumption) ?_ | intro _ _ _ | dsimp only | split)

theorem wrapAction_keeps {l : List Part} {s x : State} {n : Fin 256} (h : OnlyIn l s x) (hl : Covers [.dom, .ch, .te, .pin, .pins, .se, .sc, .rcd, .calm] l) :
    OnlyIn l s (wrapAction n x) := by
  unfold wrapAction
  repeat' (first | with_reducible assumption | with_reducible apply suppressEvent_keeps | with_reducible apply localEdge_keeps | exact hl.sub (by decide) | with_reducible refine fst_keeps (by assumption) ?_ | intro _ _ _ | dsimp only | split)

theorem afterStep_keeps {l : List Part} {s x : State} {n : Fin 256} {wrap : Bool} {hit : Bool} (h : OnlyIn l s x) (hl : Covers [.dom, .ch, .te, .pin, .pins, .se, .sc, .rcd, .calm] l) :
    OnlyIn l s (afterStep n wrap hit x) := by
  unfold afterStep
  repeat' (first | with_reducible assumption | with_reducible apply matchAction_keeps | with_reducible apply wrapAction_keeps | with_reducible apply setFlag_keeps | exact hl.sub (by decide) | with_reducible refine fst_keeps (by assumption) ?_ | intro _ _ _ | dsimp only | split)

theorem counterStep_keeps {l : List Part} {s x : State} {n : Fin 256} (h : OnlyIn l s x) (hl : Covers [.dom, .ch, .te, .pin, .pins, .se, .sc, .rcd, .calm] l) :
    OnlyIn l s (counterStep n x) := by
  unfold counterStep
  repeat' (first | with_reducible assumption | with_reducible apply afterStep_keeps | with_reducible apply modCh_keeps | exact hl.sub (by decide) | with_reducible refine fst_keeps (by assumption) ?_ | intro _ _ _ | dsimp only | split)

theorem commitEdge_keeps {l : List Part} {s x : State} {n : Fin 256} (h : OnlyIn l s x) (hl : Covers [.dom, .ch, .te, .pin, .pins, .rcd, .calm] l) :
    OnlyIn l s (commitEdge n x) := by
  unfold commitEdge
  repeat' (first | with_reducible assumption | with_reducible apply pulse_keeps | with_reducible apply refreshChanPins_keeps | with_reducible apply chanPins_keeps | with_reducible apply setFlag_keeps | with_reducible apply suppressEvent_keeps | with_reducible apply fireCode_keeps | with_reducible apply modCh_keeps | exact hl.sub (by decide) | with_reducible refine fst_keeps (by assumption) ?_ | intro _ _ _ | dsimp only | split)

theorem armCompare_keeps {l : List Part} {s x : State} {n : Fin 256} (h : OnlyIn l s x) (hl : Covers [.dom, .ch, .te, .pin, .pins, .rcd, .calm] l) :
    OnlyIn l s (armCompare n x) := by
  unfold armCompare
  repeat' (first | with_reducible assumption | with_reducible apply modCh_keeps | with_reducible apply commitEdge_keeps | exact hl.sub (by decide) | with_reducible refine fst_keeps (by assumption) ?_ | intro _ _ _ | dsimp only | split)

theorem writeTarget_keeps {l : List Part} {s x : State} {n : Fin 256} {v : Stamp} (h : OnlyIn l s x) (hl : Covers [.dom, .ch, .te, .pin, .pins, .rcd, .calm] l) :
    OnlyIn l s (writeTarget n v x) := by
  unfold writeTarget
  repeat' (first | with_reducible assumption | with_reducible apply modCh_keeps | with_reducible apply commitEdge_keeps | exact hl.sub (by decide) | with_reducible refine fst_keeps (by assumption) ?_ | intro _ _ _ | dsimp only | split)

theorem targetEdge_keeps {l : List Part} {s x : State} {n : Fin 256} (h : OnlyIn l s x) (hl : Covers [.dom, .ch, .te, .pin, .pins, .se, .sc, .rcd, .calm] l) :
    OnlyIn l s (targetEdge n x).1 := by
  unfold targetEdge
  repeat' (first | with_reducible assumption | with_reducible apply pulse_keeps | with_reducible apply chanPins_keeps | with_reducible apply setOut_keeps | with_reducible apply setFlag_keeps | with_reducible apply modCh_keeps | exact hl.sub (by decide) | with_reducible refine fst_keeps (by assumption) ?_ | intro _ _ _ | dsimp only | split)

theorem pulseEnd_keeps {l : List Part} {s x : State} {n : Fin 256} (h : OnlyIn l s x) (hl : Covers [.dom, .ch, .pin, .pins, .se, .sc, .rcd, .calm] l) :
    OnlyIn l s (pulseEnd n x).1 := by
  unfold pulseEnd
  repeat' (first | with_reducible assumption | with_reducible apply stopLocal_keeps | with_reducible apply chanPins_keeps | with_reducible apply setOut_keeps | with_reducible apply localEdge_keeps | with_reducible apply modCh_keeps | exact hl.sub (by decide) | with_reducible refine fst_keeps (by assumption) ?_ | intro _ _ _ | dsimp only | split)

theorem compareWritten_keeps {l : List Part} {s x : State} {n : Fin 256} (h : OnlyIn l s x) (hl : Covers [.dom, .ch, .te, .pin, .pins, .se, .sc, .rcd, .calm] l) :
    OnlyIn l s (compareWritten n x) := by
  unfold compareWritten
  repeat' (first | with_reducible assumption | with_reducible apply localMatch_keeps | exact hl.sub (by decide) | with_reducible refine fst_keeps (by assumption) ?_ | intro _ _ _ | dsimp only | split)

theorem pairWritten_keeps {l : List Part} {s x : State} {l0 : Fin 256} (h : OnlyIn l s x) (hl : Covers [.dom, .ch, .te, .pin, .pins, .se, .sc, .rcd, .calm] l) :
    OnlyIn l s (pairWritten l0 x) := by
  unfold pairWritten
  repeat' (first | with_reducible assumption | with_reducible apply localMatch_keeps | exact hl.sub (by decide) | with_reducible refine fst_keeps (by assumption) ?_ | intro _ _ _ | dsimp only | split)

theorem writeCmp_keeps {l : List Part} {s x : State} {n : Fin 256} {v : Word} (h : OnlyIn l s x) (hl : Covers [.later, .ch] l) :
    OnlyIn l s (writeCmp n v x) := by
  unfold writeCmp
  repeat' (first | with_reducible assumption | with_reducible apply modCh_keeps | with_reducible apply defer_keeps | exact hl.sub (by decide) | with_reducible refine fst_keeps (by assumption) ?_ | intro _ _ _ | dsimp only | split)

theorem writeCnt_keeps {l : List Part} {s x : State} {n : Fin 256} {v : Word} (h : OnlyIn l s x) (hl : Covers [.ch] l) :
    OnlyIn l s (writeCnt n v x) := by
  unfold writeCnt
  repeat' (first | with_reducible assumption | with_reducible apply modCh_keeps | exact hl.sub (by decide) | with_reducible refine fst_keeps (by assumption) ?_ | intro _ _ _ | dsimp only | split)

theorem writeChCfg_keeps {l : List Part} {s x : State} {n : Fin 256} {v : Word} (h : OnlyIn l s x) (hl : Covers [.later, .ch] l) :
    OnlyIn l s (writeChCfg n v x) := by
  unfold writeChCfg
  repeat' (first | with_reducible assumption | with_reducible apply modCh_keeps | with_reducible apply defer_keeps | exact hl.sub (by decide) | with_reducible refine fst_keeps (by assumption) ?_ | intro _ _ _ | dsimp only | split)

theorem chCfgInForce_keeps {l : List Part} {s x : State} {n : Fin 256} (h : OnlyIn l s x) (hl : Covers [.dom, .ch, .pin, .pins, .se, .sc, .rcd, .calm] l) :
    OnlyIn l s (chCfgInForce n x) := by
  unfold chCfgInForce
  repeat' (first | with_reducible assumption | with_reducible apply chanPins_keeps | with_reducible apply channelRise_keeps | with_reducible apply modCh_keeps | exact hl.sub (by decide) | with_reducible refine fst_keeps (by assumption) ?_ | intro _ _ _ | dsimp only | split)

theorem writeFilt_keeps {l : List Part} {s x : State} {n : Fin 256} {v : Word} (h : OnlyIn l s x) (hl : Covers [.ch] l) :
    OnlyIn l s (writeFilt n v x) := by
  unfold writeFilt
  repeat' (first | with_reducible assumption | with_reducible apply modCh_keeps | exact hl.sub (by decide) | with_reducible refine fst_keeps (by assumption) ?_ | intro _ _ _ | dsimp only | split)

theorem writeTop_keeps {l : List Part} {s x : State} {n : Fin 256} {v : Word} (h : OnlyIn l s x) (hl : Covers [.ch] l) :
    OnlyIn l s (writeTop n v x) := by
  unfold writeTop
  repeat' (first | with_reducible assumption | with_reducible apply modCh_keeps | exact hl.sub (by decide) | with_reducible refine fst_keeps (by assumption) ?_ | intro _ _ _ | dsimp only | split)

theorem chStart_keeps {l : List Part} {s x : State} {n : Fin 256} (h : OnlyIn l s x) (hl : Covers [.ch] l) :
    OnlyIn l s (chStart n x) := by
  unfold chStart
  repeat' (first | with_reducible assumption | with_reducible apply modCh_keeps | exact hl.sub (by decide) | with_reducible refine fst_keeps (by assumption) ?_ | intro _ _ _ | dsimp only | split)

theorem chStop_keeps {l : List Part} {s x : State} {n : Fin 256} (h : OnlyIn l s x) (hl : Covers [.ch] l) :
    OnlyIn l s (chStop n x) := by
  unfold chStop
  repeat' (first | with_reducible assumption | with_reducible apply modCh_keeps | exact hl.sub (by decide) | with_reducible refine fst_keeps (by assumption) ?_ | intro _ _ _ | dsimp only | split)

theorem chAnswer_keeps {l : List Part} {s x : State} {n : Fin 256} {st : CmdStatus} (h : OnlyIn l s x) (hl : Covers [.ch] l) :
    OnlyIn l s (chAnswer n st x) := by
  unfold chAnswer
  repeat' (first | with_reducible assumption | with_reducible apply modCh_keeps | with_reducible apply refuse_keeps | exact hl.sub (by decide) | with_reducible refine fst_keeps (by assumption) ?_ | intro _ _ _ | dsimp only | split)

theorem takeEdge_keeps {l : List Part} {s x : State} {n : Fin 256} {t : Stamp} (h : OnlyIn l s x) (hl : Covers [.ch, .te] l) :
    OnlyIn l s (takeEdge n t x) := by
  unfold takeEdge
  repeat' (first | with_reducible assumption | with_reducible apply setFlag_keeps | with_reducible apply modCh_keeps | exact hl.sub (by decide) | with_reducible refine fst_keeps (by assumption) ?_ | intro _ _ _ | dsimp only | split)

theorem filteredEdge_keeps {l : List Part} {s x : State} {n : Fin 256} {level : Bool} {t : Stamp} (h : OnlyIn l s x) (hl : Covers [.ch, .te, .rcd] l) :
    OnlyIn l s (filteredEdge n level t x).1 := by
  unfold filteredEdge
  repeat' (first | with_reducible assumption | with_reducible apply recordIn_keeps | with_reducible apply takeEdge_keeps | with_reducible apply modCh_keeps | exact hl.sub (by decide) | with_reducible refine fst_keeps (by assumption) ?_ | intro _ _ _ | dsimp only | split)

theorem readWordAt_keeps {l : List Part} {s x : State} {port : Nat} {w : Nat} (h : OnlyIn l s x) (hl : Covers [.dom, .pins, .cis, .rcd, .calm] l) :
    OnlyIn l s (readWordAt port w x).1 := by
  unfold readWordAt
  repeat' (first | with_reducible assumption | with_reducible apply modBank_keeps | with_reducible apply raiseFault_keeps | exact hl.sub (by decide) | with_reducible refine fst_keeps (by assumption) ?_ | intro _ _ _ | dsimp only | split)

theorem accessFault_keeps {l : List Part} {s x : State} {port : Nat} {w : Nat} {wr : Bool} (h : OnlyIn l s x) (hl : Covers [.cis] l) :
    OnlyIn l s (accessFault port w wr x) := by
  unfold accessFault
  repeat' (first | with_reducible assumption | with_reducible apply modBank_keeps | exact hl.sub (by decide) | with_reducible refine fst_keeps (by assumption) ?_ | intro _ _ _ | dsimp only | split)

theorem actOnWord_keeps {l : List Part} {s x : State} {port : Nat} {w : Nat} {k : AccKind} (h : OnlyIn l s x) (hl : Covers [.dom, .pins, .cis, .rcd, .calm] l) :
    OnlyIn l s (actOnWord port w k x).1 := by
  unfold actOnWord
  repeat' (first | with_reducible assumption | with_reducible apply modCis_keeps | with_reducible apply readWordAt_keeps | exact hl.sub (by decide) | with_reducible refine fst_keeps (by assumption) ?_ | intro _ _ _ | dsimp only | split)

theorem sendBack_keeps {l : List Part} {s x : State} {a : Access} {v : BitVec 64} {p : Bool} (h : OnlyIn l s x) (hl : Covers [.cis] l) :
    OnlyIn l s (sendBack a v p x) := by
  unfold sendBack
  repeat' (first | with_reducible assumption | with_reducible apply modCis_keeps | exact hl.sub (by decide) | with_reducible refine fst_keeps (by assumption) ?_ | intro _ _ _ | dsimp only | split)

theorem dropHead_keeps {l : List Part} {s x : State} {port : Nat} (h : OnlyIn l s x) (hl : Covers [.cis] l) :
    OnlyIn l s (dropHead port x) := by
  unfold dropHead
  repeat' (first | with_reducible assumption | with_reducible apply modCis_keeps | exact hl.sub (by decide) | with_reducible refine fst_keeps (by assumption) ?_ | intro _ _ _ | dsimp only | split)

theorem elementWritten_keeps {l : List Part} {s x : State} {a : Access} (h : OnlyIn l s x) (hl : Covers [.pump] l) :
    OnlyIn l s (elementWritten a x) := by
  unfold elementWritten
  repeat' (first | with_reducible assumption | with_reducible apply modPump_keeps | exact hl.sub (by decide) | with_reducible refine fst_keeps (by assumption) ?_ | intro _ _ _ | dsimp only | split)

theorem grant_keeps {l : List Part} {s x : State} {a : Access} (h : OnlyIn l s x) (hl : Covers [.dom, .pins, .cis, .pump, .rcd, .calm] l) :
    OnlyIn l s (grant a x) := by
  unfold grant
  repeat' (first | with_reducible assumption | with_reducible apply elementWritten_keeps | with_reducible apply actOnWord_keeps | with_reducible apply sendBack_keeps | with_reducible apply dropHead_keeps | exact hl.sub (by decide) | with_reducible refine fst_keeps (by assumption) ?_ | intro _ _ _ | dsimp only | split)

theorem failDesc_keeps {l : List Part} {s x : State} {u : Fin 8} {code : BitVec 3} (h : OnlyIn l s x) (hl : Covers [.pump] l) :
    OnlyIn l s (failDesc u code x) := by
  unfold failDesc
  repeat' (first | with_reducible assumption | with_reducible apply modPump_keeps | exact hl.sub (by decide) | with_reducible refine fst_keeps (by assumption) ?_ | intro _ _ _ | dsimp only | split)

theorem refuseAccess_keeps {l : List Part} {s x : State} {a : Access} (h : OnlyIn l s x) (hl : Covers [.te, .cis, .pump, .job] l) :
    OnlyIn l s (refuseAccess a x) := by
  unfold refuseAccess
  have b := accessFault_keeps (port := a.port) (w := a.word) (wr := a.kind.isWrite)
    (dropHead_keeps (port := a.port) h (hl.sub (by decide))) (hl.sub (by decide))
  dsimp only
  generalize hz : modCis _ (accessFault a.port a.word a.kind.isWrite (dropHead a.port x)) = z
  have b : OnlyIn l s z := hz ▸ modCis_keeps b (hl.sub (by decide))
  split
  · exact sendBack_keeps (modTe_keeps b (hl.sub (by decide))) (hl.sub (by decide))
  · split
    · exact modPump_keeps (failDesc_keeps b (hl.sub (by decide))) (hl.sub (by decide))
    · split
      · exact sendBack_keeps (keeps_job b (hl.sub (by decide))) (hl.sub (by decide))
      · exact sendBack_keeps b (hl.sub (by decide))

theorem loseWrite_keeps {l : List Part} {s x : State} {a : Access} (h : OnlyIn l s x) (hl : Covers [.cis, .pump] l) :
    OnlyIn l s (loseWrite a x) := by
  unfold loseWrite
  repeat' (first | with_reducible assumption | with_reducible apply modBank_keeps | with_reducible apply dropHead_keeps | with_reducible apply elementWritten_keeps | with_reducible apply modPump_keeps | exact hl.sub (by decide) | with_reducible refine fst_keeps (by assumption) ?_ | intro _ _ _ | dsimp only | split)

theorem wayTakes_keeps {l : List Part} {s x : State} {b : Fin 8} {w : Fin 4} {a : Access} (h : OnlyIn l s x) (hl : Covers [.dom, .pins, .cis, .pump, .rcd, .calm] l) :
    OnlyIn l s (wayTakes b w a x) := by
  unfold wayTakes
  repeat' (first | with_reducible assumption | with_reducible apply loseWrite_keeps | with_reducible apply modBank_keeps | with_reducible apply grant_keeps | with_reducible apply foldl_keeps | exact hl.sub (by decide) | with_reducible refine fst_keeps (by assumption) ?_ | intro _ _ _ | dsimp only | split)

theorem enqueue_keeps {l : List Part} {s x : State} {a : Access} (h : OnlyIn l s x) (hl : Covers [.cis] l) :
    OnlyIn l s (enqueue a x) := by
  unfold enqueue
  repeat' (first | with_reducible assumption | with_reducible apply modCis_keeps | exact hl.sub (by decide) | with_reducible refine fst_keeps (by assumption) ?_ | intro _ _ _ | dsimp only | split)

theorem wellPush_keeps {l : List Part} {s x : State} {k : Fin 64} {who : Nat} {v : BitVec 64} {tag : BitVec 2} (h : OnlyIn l s x) (hl : Covers [.te, .well] l) :
    OnlyIn l s (wellPush k who v tag x) := by
  unfold wellPush
  repeat' (first | with_reducible assumption | with_reducible apply post_keeps | with_reducible apply forAll_keeps | with_reducible apply modWell_keeps | with_reducible apply foldl_keeps | exact hl.sub (by decide) | with_reducible refine fst_keeps (by assumption) ?_ | intro _ _ _ | dsimp only | split)

theorem wellDrop_keeps {l : List Part} {s x : State} {k : Fin 64} (h : OnlyIn l s x) (hl : Covers [.well] l) :
    OnlyIn l s (wellDrop k x) := by
  unfold wellDrop
  repeat' (first | with_reducible assumption | with_reducible apply modWell_keeps | exact hl.sub (by decide) | with_reducible refine fst_keeps (by assumption) ?_ | intro _ _ _ | dsimp only | split)

theorem wellReport_keeps {l : List Part} {s x : State} {k : Fin 64} {i : Item} (h : OnlyIn l s x) (hl : Covers [.well] l) :
    OnlyIn l s (wellReport k i x) := by
  unfold wellReport
  repeat' (first | with_reducible assumption | with_reducible apply modWell_keeps | exact hl.sub (by decide) | with_reducible refine fst_keeps (by assumption) ?_ | intro _ _ _ | dsimp only | split)

theorem closeSlots_keeps {l : List Part} {s x : State} {t : Fin 4} {cause : Nat} (h : OnlyIn l s x) (hl : Covers [.job] l) :
    OnlyIn l s (closeSlots t cause x) := by
  unfold closeSlots
  repeat' (first | with_reducible assumption | with_reducible apply modLine_keeps | with_reducible apply foldl_keeps | exact hl.sub (by decide) | with_reducible refine fst_keeps (by assumption) ?_ | intro _ _ _ | dsimp only | split)

theorem modEv_keeps {l : List Part} {s x : State} {t : Fin 4} {i : Nat} {f : EvEntry → EvEntry} (h : OnlyIn l s x) (hl : Covers [.wt] l) :
    OnlyIn l s (modEv t i f x) := by
  unfold modEv
  repeat' (first | with_reducible assumption | with_reducible apply modWt_keeps | exact hl.sub (by decide) | with_reducible refine fst_keeps (by assumption) ?_ | intro _ _ _ | dsimp only | split)

theorem eventNotice_keeps {l : List Part} {s x : State} {t : Fin 4} {i : Nat} {code : Nat} (h : OnlyIn l s x) (hl : Covers [.te] l) :
    OnlyIn l s (eventNotice t i code x) := by
  unfold eventNotice
  repeat' (first | with_reducible assumption | with_reducible apply post_keeps | exact hl.sub (by decide) | with_reducible refine fst_keeps (by assumption) ?_ | intro _ _ _ | dsimp only | split)

theorem withdraw_keeps {l : List Part} {s x : State} {v : EvEntry} (h : OnlyIn l s x) (hl : Covers [.ch] l) :
    OnlyIn l s (withdraw v x) := by
  unfold withdraw
  repeat' (first | with_reducible assumption | with_reducible apply modCh_keeps | exact hl.sub (by decide) | with_reducible refine fst_keeps (by assumption) ?_ | intro _ _ _ | dsimp only | split)

theorem freeEntry_keeps {l : List Part} {s x : State} {t : Fin 4} {i : Nat} (h : OnlyIn l s x) (hl : Covers [.ch, .wt] l) :
    OnlyIn l s (freeEntry t i x) := by
  unfold freeEntry
  repeat' (first | with_reducible assumption | with_reducible apply modEv_keeps | with_reducible apply withdraw_keeps | exact hl.sub (by decide) | with_reducible refine fst_keeps (by assumption) ?_ | intro _ _ _ | dsimp only | split)

theorem discardNotices_keeps {l : List Part} {s x : State} {t : Fin 4} {engs : List (Fin 16)} (h : OnlyIn l s x) (hl : Covers [.te] l) :
    OnlyIn l s (discardNotices t engs x) := by
  unfold discardNotices
  repeat' (first | with_reducible assumption | with_reducible apply post_keeps | with_reducible apply forAll_keeps | exact hl.sub (by decide) | with_reducible refine fst_keeps (by assumption) ?_ | intro _ _ _ | dsimp only | split)

theorem dropEvents_keeps {l : List Part} {s x : State} {t : Fin 4} {f : EvEntry → Bool} (h : OnlyIn l s x) (hl : Covers [.ch, .wt] l) :
    OnlyIn l s (dropEvents t f x).1 := by
  unfold dropEvents
  repeat' (first | with_reducible assumption | with_reducible apply freeEntry_keeps | with_reducible apply foldl_keeps | exact hl.sub (by decide) | with_reducible refine fst_keeps (by assumption) ?_ | intro _ _ _ | dsimp only | split)

theorem discardEvents_keeps {l : List Part} {s x : State} {t : Fin 4} {f : EvEntry → Bool} (h : OnlyIn l s x) (hl : Covers [.ch, .te, .wt] l) :
    OnlyIn l s (discardEvents t f x) := by
  unfold discardEvents
  repeat' (first | with_reducible assumption | with_reducible apply modWt_keeps | with_reducible apply discardNotices_keeps | with_reducible apply dropEvents_keeps | exact hl.sub (by decide) | with_reducible refine fst_keeps (by assumption) ?_ | intro _ _ _ | dsimp only | split)

theorem discard_keeps {l : List Part} {s x : State} {t : Fin 4} {f : EvEntry → Bool} (h : OnlyIn l s x) (hl : Covers [.ch, .te, .wt] l) :
    OnlyIn l s (discard t f x) := by
  unfold discard
  repeat' (first | with_reducible assumption | with_reducible apply discardEvents_keeps | exact hl.sub (by decide) | with_reducible refine fst_keeps (by assumption) ?_ | intro _ _ _ | dsimp only | split)

theorem driveSafe_keeps {l : List Part} {s x : State} {chans : List (Fin 256)} (h : OnlyIn l s x) (hl : Covers [.ch, .pin, .pins, .rcd] l) :
    OnlyIn l s (driveSafe chans x) := by
  unfold driveSafe
  repeat' (first | with_reducible assumption | with_reducible apply refreshChanPins_keeps | with_reducible apply modCh_keeps | with_reducible apply foldl_keeps | exact hl.sub (by decide) | with_reducible refine fst_keeps (by assumption) ?_ | intro _ _ _ | dsimp only | split)

theorem barIssue_keeps {l : List Part} {s x : State} {t : Fin 4} (h : OnlyIn l s x) (hl : Covers [.wt] l) :
    OnlyIn l s (barIssue t x) := by
  unfold barIssue
  repeat' (first | with_reducible assumption | with_reducible apply modWt_keeps | exact hl.sub (by decide) | with_reducible refine fst_keeps (by assumption) ?_ | intro _ _ _ | dsimp only | split)

theorem discardAll_keeps {l : List Part} {s x : State} {t : Fin 4} (h : OnlyIn l s x) (hl : Covers [.ch, .te, .wt, .pin, .pins, .rcd] l) :
    OnlyIn l s (discardAll t x) := by
  unfold discardAll
  repeat' (first | with_reducible assumption | with_reducible apply barIssue_keeps | with_reducible apply discard_keeps | with_reducible apply driveSafe_keeps | exact hl.sub (by decide) | with_reducible refine fst_keeps (by assumption) ?_ | intro _ _ _ | dsimp only | split)

theorem discardLoad_keeps {l : List Part} {s x : State} {t : Fin 4} (h : OnlyIn l s x) (hl : Covers [.ch, .te, .wt, .pin, .pins, .rcd] l) :
    OnlyIn l s (discardLoad t x) := by
  unfold discardLoad
  repeat' (first | with_reducible assumption | with_reducible apply barIssue_keeps | with_reducible apply driveSafe_keeps | with_reducible apply discardEvents_keeps | exact hl.sub (by decide) | with_reducible refine fst_keeps (by assumption) ?_ | intro _ _ _ | dsimp only | split)

theorem squash_keeps {l : List Part} {s x : State} {t : Fin 4} (h : OnlyIn l s x) (hl : Covers [.ch, .wt] l) :
    OnlyIn l s (squash t x) := by
  unfold squash
  repeat' (first | with_reducible assumption | with_reducible apply modEv_keeps | with_reducible apply barIssue_keeps | with_reducible apply modWt_keeps | with_reducible apply withdraw_keeps | with_reducible apply foldl_keeps | exact hl.sub (by decide) | with_reducible refine fst_keeps (by assumption) ?_ | intro _ _ _ | dsimp only | split)

theorem commitEvent_keeps {l : List Part} {s x : State} {t : Fin 4} {i : Nat} (h : OnlyIn l s x) (hl : Covers [.ch, .wt] l) :
    OnlyIn l s (commitEvent t i x) := by
  unfold commitEvent
  repeat' (first | with_reducible assumption | with_reducible apply modEv_keeps | with_reducible apply modWt_keeps | with_reducible apply modCh_keeps | exact hl.sub (by decide) | with_reducible refine fst_keeps (by assumption) ?_ | intro _ _ _ | dsimp only | split)

theorem commitDue_keeps {l : List Part} {s x : State} {t : Fin 4} (h : OnlyIn l s x) (hl : Covers [.ch, .wt] l) :
    OnlyIn l s (commitDue t x) := by
  unfold commitDue
  repeat' (first | with_reducible assumption | with_reducible apply commitEvent_keeps | with_reducible apply foldl_keeps | exact hl.sub (by decide) | with_reducible refine fst_keeps (by assumption) ?_ | intro _ _ _ | dsimp only | split)

theorem issueTo_keeps {l : List Part} {s x : State} {t : Fin 4} {i : Nat} {target : Stamp} (h : OnlyIn l s x) (hl : Covers [.ch, .wt] l) :
    OnlyIn l s (issueTo t i target x) := by
  unfold issueTo
  repeat' (first | with_reducible assumption | with_reducible apply modWt_keeps | with_reducible apply modCh_keeps | exact hl.sub (by decide) | with_reducible refine fst_keeps (by assumption) ?_ | intro _ _ _ | dsimp only | split)

theorem judgeIssued_keeps {l : List Part} {s x : State} {v : EvEntry} (h : OnlyIn l s x) (hl : Covers [.dom, .ch, .te, .pin, .pins, .rcd, .calm] l) :
    OnlyIn l s (judgeIssued v x) := by
  unfold judgeIssued
  repeat' (first | with_reducible assumption | with_reducible apply commitEdge_keeps | exact hl.sub (by decide) | with_reducible refine fst_keeps (by assumption) ?_ | intro _ _ _ | dsimp only | split)

theorem overdue_keeps {l : List Part} {s x : State} {t : Fin 4} {i : Nat} {target : Stamp} (h : OnlyIn l s x) (hl : Covers [.dom, .ch, .te, .wt, .pin, .pins, .rcd, .calm] l) :
    OnlyIn l s (overdue t i target x) := by
  unfold overdue
  repeat' (first | with_reducible assumption | with_reducible apply modWt_keeps | with_reducible apply commitEvent_keeps | with_reducible apply judgeIssued_keeps | with_reducible apply issueTo_keeps | with_reducible apply eventNotice_keeps | exact hl.sub (by decide) | with_reducible refine fst_keeps (by assumption) ?_ | intro _ _ _ | dsimp only | split)

theorem issueStep_keeps {l : List Part} {s x : State} {t : Fin 4} (h : OnlyIn l s x) (hl : Covers [.dom, .ch, .te, .wt, .pin, .pins, .rcd, .calm] l) :
    OnlyIn l s (issueStep t x) := by
  unfold issueStep
  repeat' (first | with_reducible assumption | with_reducible apply modWt_keeps | with_reducible apply overdue_keeps | with_reducible apply commitEvent_keeps | with_reducible apply judgeIssued_keeps | with_reducible apply issueTo_keeps | with_reducible apply eventNotice_keeps | exact hl.sub (by decide) | with_reducible refine fst_keeps (by assumption) ?_ | intro _ _ _ | dsimp only | split)

theorem wtAnswer_keeps {l : List Part} {s x : State} {t : Fin 4} {from_ : Option (Fin 16)} {st : CmdStatus} (h : OnlyIn l s x) (hl : Covers [.wt] l) :
    OnlyIn l s (wtAnswer t from_ st x) := by
  unfold wtAnswer
  repeat' (first | with_reducible assumption | with_reducible apply modWt_keeps | with_reducible apply refuse_keeps | exact hl.sub (by decide) | with_reducible refine fst_keeps (by assumption) ?_ | intro _ _ _ | dsimp only | split)

theorem placeEvent_keeps {l : List Part} {s x : State} {t : Fin 4} {e : Fin 16} {a : Word} {b : Word} {aux : BitVec 24} {chan : Fin 256} (h : OnlyIn l s x) (hl : Covers [.te, .wt] l) :
    OnlyIn l s (placeEvent t e a b aux chan x).1 := by
  unfold placeEvent
  repeat' (first | with_reducible assumption | with_reducible apply modWt_keeps | with_reducible apply post_keeps | exact hl.sub (by decide) | with_reducible refine fst_keeps (by assumption) ?_ | intro _ _ _ | dsimp only | split)

theorem cancelTag_keeps {l : List Part} {s x : State} {t : Fin 4} {tag : Nat} (h : OnlyIn l s x) (hl : Covers [.ch, .te, .wt] l) :
    OnlyIn l s (cancelTag t tag x) := by
  unfold cancelTag
  repeat' (first | with_reducible assumption | with_reducible apply dropEvents_keeps | with_reducible apply discardNotices_keeps | with_reducible apply commitDue_keeps | exact hl.sub (by decide) | with_reducible refine fst_keeps (by assumption) ?_ | intro _ _ _ | dsimp only | split)

theorem moveTag_keeps {l : List Part} {s x : State} {t : Fin 4} {tag : Nat} {angle : Angle} (h : OnlyIn l s x) (hl : Covers [.ch, .wt] l) :
    OnlyIn l s (moveTag t tag angle x) := by
  unfold moveTag
  repeat' (first | with_reducible assumption | with_reducible apply modEv_keeps | with_reducible apply withdraw_keeps | with_reducible apply commitDue_keeps | with_reducible apply foldl_keeps | exact hl.sub (by decide) | with_reducible refine fst_keeps (by assumption) ?_ | intro _ _ _ | dsimp only | split)

theorem endEvent_keeps {l : List Part} {s x : State} {ev : Option IssuedEvent} (h : OnlyIn l s x) (hl : Covers [.later] l) :
    OnlyIn l s (endEvent ev x) := by
  unfold endEvent
  repeat' (first | with_reducible assumption | with_reducible apply defer_keeps | exact hl.sub (by decide) | with_reducible refine fst_keeps (by assumption) ?_ | intro _ _ _ | dsimp only | split)

theorem eventFree_keeps {l : List Part} {s x : State} {t : Fin 4} {i : Nat} (h : OnlyIn l s x) (hl : Covers [.ch, .wt, .pin, .pins, .rcd] l) :
    OnlyIn l s (eventFree t i x) := by
  unfold eventFree
  repeat' (first | with_reducible assumption | with_reducible apply modEv_keeps | with_reducible apply refreshChanPins_keeps | with_reducible apply modCh_keeps | exact hl.sub (by decide) | with_reducible refine fst_keeps (by assumption) ?_ | intro _ _ _ | dsimp only | split)

theorem stopChannel_keeps {l : List Part} {s x : State} {n : Fin 256} (h : OnlyIn l s x) (hl : Covers [.ch, .wt] l) :
    OnlyIn l s (stopChannel n x) := by
  unfold stopChannel
  repeat' (first | with_reducible assumption | with_reducible apply modEv_keeps | with_reducible apply chStop_keeps | with_reducible apply modCh_keeps | exact hl.sub (by decide) | with_reducible refine fst_keeps (by assumption) ?_ | intro _ _ _ | dsimp only | split)

theorem winEdge_keeps {l : List Part} {s x : State} {i : Fin 8} {level : Bool} {at_ : Stamp} (h : OnlyIn l s x)
    (hl : Covers [.free, .win] l) : OnlyIn l s (winEdge i level at_ x) := by
  unfold winEdge
  split
  · split
    · exact h
    · exact modWin_keeps (keeps_free h (hl.sub (by decide))) (hl.sub (by decide))
  · exact modWin_keeps h (hl.sub (by decide))

theorem winCfgInForce_keeps {l : List Part} {s x : State} {i : Fin 8} {v : Word} (h : OnlyIn l s x) (hl : Covers [.win, .wt] l) :
    OnlyIn l s (winCfgInForce i v x) := by
  unfold winCfgInForce
  repeat' (first | with_reducible assumption | with_reducible apply modWt_keeps | with_reducible apply forAll_keeps | with_reducible apply modWin_keeps | exact hl.sub (by decide) | with_reducible refine fst_keeps (by assumption) ?_ | intro _ _ _ | dsimp only | split)

theorem writeWin_keeps {l : List Part} {s x : State} {i : Fin 8} {v : Word} (h : OnlyIn l s x) (hl : Covers [.later] l) :
    OnlyIn l s (writeWin i v x) := by
  unfold writeWin
  repeat' (first | with_reducible assumption | with_reducible apply deferLast_keeps | exact hl.sub (by decide) | with_reducible refine fst_keeps (by assumption) ?_ | intro _ _ _ | dsimp only | split)

theorem modSlot_keeps {l : List Part} {s x : State} {t : Fin 4} {i : Fin 512} {f : Slot → Slot} (h : OnlyIn l s x) (hl : Covers [.job] l) :
    OnlyIn l s (modSlot t i f x) := by
  unfold modSlot
  repeat' (first | with_reducible assumption | with_reducible apply modLine_keeps | exact hl.sub (by decide) | with_reducible refine fst_keeps (by assumption) ?_ | intro _ _ _ | dsimp only | split)

theorem slotVerdict_keeps {l : List Part} {s x : State} {t : Fin 4} {i : Fin 512} {v : BitVec 2} (h : OnlyIn l s x) (hl : Covers [.job] l) :
    OnlyIn l s (slotVerdict t i v x) := by
  unfold slotVerdict
  repeat' (first | with_reducible assumption | with_reducible apply modLine_keeps | with_reducible apply modSlot_keeps | exact hl.sub (by decide) | with_reducible refine fst_keeps (by assumption) ?_ | intro _ _ _ | dsimp only | split)

theorem verdictPin_keeps {l : List Part} {s x : State} {t : Fin 4} {stamp : Stamp} (h : OnlyIn l s x) (hl : Covers [.job] l) :
    OnlyIn l s (verdictPin t stamp x) := by
  unfold verdictPin
  repeat' (first | with_reducible assumption | with_reducible apply slotVerdict_keeps | with_reducible apply modLine_keeps | exact hl.sub (by decide) | with_reducible refine fst_keeps (by assumption) ?_ | intro _ _ _ | dsimp only | split)

theorem settleLine_keeps {l : List Part} {s x : State} {t : Fin 4} (h : OnlyIn l s x) (hl : Covers [.job] l) :
    OnlyIn l s (settleLine t x) := by
  unfold settleLine
  repeat' (first | with_reducible assumption | with_reducible apply verdictPin_keeps | with_reducible apply modLine_keeps | exact hl.sub (by decide) | with_reducible refine fst_keeps (by assumption) ?_ | intro _ _ _ | dsimp only | split)

theorem noteClears_keeps {l : List Part} {s x : State} {before : State} (h : OnlyIn l s x) (hl : Covers [.ic] l) :
    OnlyIn l s (noteClears before x) := by
  unfold noteClears
  repeat' (first | with_reducible assumption | with_reducible apply keeps_ic | exact hl.sub (by decide) | with_reducible refine fst_keeps (by assumption) ?_ | intro _ _ _ | dsimp only | split)

theorem enterDomain_keeps {l : List Part} {s x : State} {d : DomState} (h : OnlyIn l s x) (hl : Covers [.dom, .ch, .te, .wt, .pin, .pins, .job, .rcd, .sys] l) :
    OnlyIn l s (enterDomain d x) := by
  unfold enterDomain
  repeat' (first | with_reducible assumption | with_reducible apply discardAll_keeps | with_reducible apply modSys_keeps | with_reducible apply commitDue_keeps | with_reducible apply refreshPins_keeps | with_reducible apply recordIn_keeps | with_reducible apply forAll_keeps | with_reducible apply modDom_keeps | with_reducible apply closeSlots_keeps | exact hl.sub (by decide) | with_reducible refine fst_keeps (by assumption) ?_ | intro _ _ _ | dsimp only | split)

theorem enterSafe_keeps {l : List Part} {s x : State}  (h : OnlyIn l s x) (hl : Covers [.dom, .ch, .te, .wt, .pin, .pins, .job, .rcd, .sys] l) :
    OnlyIn l s (enterSafe  x) := by
  unfold enterSafe
  repeat' (first | with_reducible assumption | with_reducible apply enterDomain_keeps | with_reducible apply modDom_keeps | exact hl.sub (by decide) | with_reducible refine fst_keeps (by assumption) ?_ | intro _ _ _ | dsimp only | split)

theorem dropMsg_keeps {l : List Part} {s x : State} {k : Fin 4} (h : OnlyIn l s x) (hl : Covers [.link] l) :
    OnlyIn l s (dropMsg k x) := by
  unfold dropMsg
  repeat' (first | with_reducible assumption | with_reducible apply modLink_keeps | with_reducible apply modPort_keeps | exact hl.sub (by decide) | with_reducible refine fst_keeps (by assumption) ?_ | intro _ _ _ | dsimp only | split)

theorem dropQueue_keeps {l : List Part} {s x : State} {k : Fin 4} (h : OnlyIn l s x) (hl : Covers [.link] l) :
    OnlyIn l s (dropQueue k x) := by
  unfold dropQueue
  repeat' (first | with_reducible assumption | with_reducible apply modPort_keeps | with_reducible apply dropMsg_keeps | with_reducible apply foldl_keeps | exact hl.sub (by decide) | with_reducible refine fst_keeps (by assumption) ?_ | intro _ _ _ | dsimp only | split)

theorem deliverMsg_keeps {l : List Part} {s x : State} {k : Fin 4} {m : LinkMsg} (h : OnlyIn l s x) (hl : Covers [.link, .rcd] l) :
    OnlyIn l s (deliverMsg k m x) := by
  unfold deliverMsg
  repeat' (first | with_reducible assumption | with_reducible apply pulse_keeps | with_reducible apply dropMsg_keeps | with_reducible apply recordIn_keeps | with_reducible apply modLink_keeps | exact hl.sub (by decide) | with_reducible refine fst_keeps (by assumption) ?_ | intro _ _ _ | dsimp only | split)

theorem queueMsg_keeps {l : List Part} {s x : State} {k : Fin 4} {m : LinkMsg} (h : OnlyIn l s x) (hl : Covers [.link] l) :
    OnlyIn l s (queueMsg k m x) := by
  unfold queueMsg
  repeat' (first | with_reducible assumption | with_reducible apply modPort_keeps | with_reducible apply dropMsg_keeps | exact hl.sub (by decide) | with_reducible refine fst_keeps (by assumption) ?_ | intro _ _ _ | dsimp only | split)

theorem forwardMsg_keeps {l : List Part} {s x : State} {k : Option (Fin 4)} {m : LinkMsg} (h : OnlyIn l s x) (hl : Covers [.link] l) :
    OnlyIn l s (forwardMsg k m x) := by
  unfold forwardMsg
  repeat' (first | with_reducible assumption | with_reducible apply forAll_keeps | with_reducible apply queueMsg_keeps | exact hl.sub (by decide) | with_reducible refine fst_keeps (by assumption) ?_ | intro _ _ _ | dsimp only | split)

theorem routeOwn_keeps {l : List Part} {s x : State}  (h : OnlyIn l s x) (hl : Covers [.link, .rcd] l) :
    OnlyIn l s (routeOwn  x) := by
  unfold routeOwn
  repeat' (first | with_reducible assumption | with_reducible apply forwardMsg_keeps | with_reducible apply modLink_keeps | with_reducible apply deliverMsg_keeps | with_reducible apply foldl_keeps | exact hl.sub (by decide) | with_reducible refine fst_keeps (by assumption) ?_ | intro _ _ _ | dsimp only | split)

theorem sendFrame_keeps {l : List Part} {s x : State} {k : Fin 4} (h : OnlyIn l s x) (hl : Covers [.out, .link] l) :
    OnlyIn l s (sendFrame k x) := by
  unfold sendFrame
  repeat' (first | with_reducible assumption | with_reducible apply emit_keeps | with_reducible apply dropQueue_keeps | with_reducible apply modPort_keeps | exact hl.sub (by decide) | with_reducible refine fst_keeps (by assumption) ?_ | intro _ _ _ | dsimp only | split)

theorem sendFrames_keeps {l : List Part} {s x : State}  (h : OnlyIn l s x) (hl : Covers [.out, .link, .rcd] l) :
    OnlyIn l s (sendFrames  x) := by
  unfold sendFrames
  repeat' (first | with_reducible assumption | with_reducible apply modLink_keeps | with_reducible apply routeOwn_keeps | with_reducible apply sendFrame_keeps | with_reducible apply forAll_keeps | exact hl.sub (by decide) | with_reducible refine fst_keeps (by assumption) ?_ | intro _ _ _ | dsimp only | split)

theorem standIn_keeps {l : List Part} {s x : State}  (h : OnlyIn l s x) (hl : Covers [.later, .se, .sc] l) :
    OnlyIn l s (standIn  x) := by
  unfold standIn
  repeat' (first | with_reducible assumption | with_reducible apply modSc_keeps | with_reducible apply defer_keeps | with_reducible apply forAll_keeps | with_reducible apply modSe_keeps | exact hl.sub (by decide) | with_reducible refine fst_keeps (by assumption) ?_ | intro _ _ _ | dsimp only | split)

theorem trkPost_keeps {l : List Part} {s x : State} {t : Fin 4} {arg : Word} {num : Nat} (h : OnlyIn l s x) (hl : Covers [.te] l) :
    OnlyIn l s (trkPost t arg num x) := by
  unfold trkPost
  repeat' (first | with_reducible assumption | with_reducible apply postMask_keeps | exact hl.sub (by decide) | with_reducible refine fst_keeps (by assumption) ?_ | intro _ _ _ | dsimp only | split)

theorem trkNotice_keeps {l : List Part} {s x : State} {t : Fin 4} {code : Nat} {en : Nat} {data : Nat} (h : OnlyIn l s x) (hl : Covers [.te] l) :
    OnlyIn l s (trkNotice t code en data x) := by
  unfold trkNotice
  repeat' (first | with_reducible assumption | with_reducible apply trkPost_keeps | exact hl.sub (by decide) | with_reducible refine fst_keeps (by assumption) ?_ | intro _ _ _ | dsimp only | split)

theorem showTrk_keeps {l : List Part} {s x : State} {t : Fin 4} {st : TrkState} (h : OnlyIn l s x) (hl : Covers [.wt] l) :
    OnlyIn l s (showTrk t st x) := by
  unfold showTrk
  repeat' (first | with_reducible assumption | with_reducible apply modWt_keeps | exact hl.sub (by decide) | with_reducible refine fst_keeps (by assumption) ?_ | intro _ _ _ | dsimp only | split)

theorem stateNotice_keeps {l : List Part} {s x : State} {t : Fin 4} {old : TrkState} {new : TrkState} {cause : Nat} (h : OnlyIn l s x) (hl : Covers [.te] l) :
    OnlyIn l s (stateNotice t old new cause x) := by
  unfold stateNotice
  repeat' (first | with_reducible assumption | with_reducible apply trkNotice_keeps | exact hl.sub (by decide) | with_reducible refine fst_keeps (by assumption) ?_ | intro _ _ _ | dsimp only | split)

theorem setTrk_keeps {l : List Part} {s x : State} {t : Fin 4} {st : TrkState} {cause : Nat} (h : OnlyIn l s x) (hl : Covers [.te, .wt] l) :
    OnlyIn l s (setTrk t st cause x) := by
  unfold setTrk
  repeat' (first | with_reducible assumption | with_reducible apply showTrk_keeps | with_reducible apply stateNotice_keeps | exact hl.sub (by decide) | with_reducible refine fst_keeps (by assumption) ?_ | intro _ _ _ | dsimp only | split)

theorem loseTrackAt_keeps {l : List Part} {s x : State} {t : Fin 4} {cause : Nat} {shown : Angle} (h : OnlyIn l s x) (hl : Covers [.dom, .ch, .te, .wt, .pin, .pins, .job, .rcd, .calm] l) :
    OnlyIn l s (loseTrackAt t cause shown x) := by
  unfold loseTrackAt
  repeat' (first | with_reducible assumption | with_reducible apply modWt_keeps | with_reducible apply discardAll_keeps | with_reducible apply raiseFault_keeps | with_reducible apply closeSlots_keeps | with_reducible apply showTrk_keeps | exact hl.sub (by decide) | with_reducible refine fst_keeps (by assumption) ?_ | intro _ _ _ | dsimp only | split)

theorem loseTrack_keeps {l : List Part} {s x : State} {t : Fin 4} {cause : Nat} (h : OnlyIn l s x) (hl : Covers [.dom, .ch, .te, .wt, .pin, .pins, .job, .rcd, .calm] l) :
    OnlyIn l s (loseTrack t cause x) := by
  unfold loseTrack
  repeat' (first | with_reducible assumption | with_reducible apply loseTrackAt_keeps | exact hl.sub (by decide) | with_reducible refine fst_keeps (by assumption) ?_ | intro _ _ _ | dsimp only | split)

theorem enterLost_keeps {l : List Part} {s x : State} {t : Fin 4} {cause : Nat} (h : OnlyIn l s x) (hl : Covers [.dom, .ch, .te, .wt, .pin, .pins, .job, .rcd, .calm] l) :
    OnlyIn l s (enterLost t cause x) := by
  unfold enterLost
  repeat' (first | with_reducible assumption | with_reducible apply loseTrack_keeps | with_reducible apply stateNotice_keeps | exact hl.sub (by decide) | with_reducible refine fst_keeps (by assumption) ?_ | intro _ _ _ | dsimp only | split)

theorem enterStopped_keeps {l : List Part} {s x : State} {t : Fin 4} (h : OnlyIn l s x) (hl : Covers [.ch, .te, .wt, .pin, .pins, .job, .rcd] l) :
    OnlyIn l s (enterStopped t x) := by
  unfold enterStopped
  repeat' (first | with_reducible assumption | with_reducible apply modWt_keeps | with_reducible apply closeSlots_keeps | with_reducible apply setTrk_keeps | with_reducible apply discardAll_keeps | exact hl.sub (by decide) | with_reducible refine fst_keeps (by assumption) ?_ | intro _ _ _ | dsimp only | split)

theorem enterSeeking_keeps {l : List Part} {s x : State} {t : Fin 4} {cause : Nat} (h : OnlyIn l s x) (hl : Covers [.te, .wt, .job] l) :
    OnlyIn l s (enterSeeking t cause x) := by
  unfold enterSeeking
  repeat' (first | with_reducible assumption | with_reducible apply modWt_keeps | with_reducible apply closeSlots_keeps | with_reducible apply setTrk_keeps | exact hl.sub (by decide) | with_reducible refine fst_keeps (by assumption) ?_ | intro _ _ _ | dsimp only | split)

theorem trkLoad_keeps {l : List Part} {s x : State} {t : Fin 4} (h : OnlyIn l s x) (hl : Covers [.ch, .te, .wt, .pin, .pins, .job, .rcd] l) :
    OnlyIn l s (trkLoad t x) := by
  unfold trkLoad
  repeat' (first | with_reducible assumption | with_reducible apply modWt_keeps | with_reducible apply discardLoad_keeps | with_reducible apply enterSeeking_keeps | exact hl.sub (by decide) | with_reducible refine fst_keeps (by assumption) ?_ | intro _ _ _ | dsimp only | split)

theorem refCheck_keeps {l : List Part} {s x : State} {t : Fin 4} (h : OnlyIn l s x) (hl : Covers [.dom, .ch, .te, .wt, .pin, .pins, .job, .rcd, .calm] l) :
    OnlyIn l s (refCheck t x).1 := by
  unfold refCheck
  repeat' (first | with_reducible assumption | with_reducible apply loseTrack_keeps | with_reducible apply modWt_keeps | exact hl.sub (by decide) | with_reducible refine fst_keeps (by assumption) ?_ | intro _ _ _ | dsimp only | split)

theorem decisionNotices_keeps {l : List Part} {s x : State} {t : Fin 4} {ref : RefCheck} {changes : List (TrkState × TrkState × Nat)} (h : OnlyIn l s x) (hl : Covers [.te] l) :
    OnlyIn l s (decisionNotices t ref changes x) := by
  unfold decisionNotices
  repeat' (first | with_reducible assumption | with_reducible apply trkNotice_keeps | with_reducible apply stateNotice_keeps | with_reducible apply foldl_keeps | exact hl.sub (by decide) | with_reducible refine fst_keeps (by assumption) ?_ | intro _ _ _ | dsimp only | split)

theorem phaseUpdate_keeps {l : List Part} {s x : State} {t : Fin 4} {who : Fin 4 → Bool} {stamp : Stamp} (h : OnlyIn l s x) (hl : Covers [.te, .wt] l) :
    OnlyIn l s (phaseUpdate t who stamp x) := by
  unfold phaseUpdate
  repeat' (first | with_reducible assumption | with_reducible apply modWt_keeps | with_reducible apply trkNotice_keeps | with_reducible apply pulse_keeps | with_reducible apply forAll_keeps | exact hl.sub (by decide) | with_reducible refine fst_keeps (by assumption) ?_ | intro _ _ _ | dsimp only | split)

theorem recordTooth_keeps {l : List Part} {s x : State} {t : Fin 4} {kind : Nat} {big : Bool} {stamp : Stamp} {i : Nat} {rev : BitVec 8} (h : OnlyIn l s x) (hl : Covers [.rcd] l) :
    OnlyIn l s (recordTooth t kind big stamp i rev x) := by
  unfold recordTooth
  repeat' (first | with_reducible assumption | with_reducible apply recordOut_keeps | exact hl.sub (by decide) | with_reducible refine fst_keeps (by assumption) ?_ | intro _ _ _ | dsimp only | split)

theorem toothPhase_keeps {l : List Part} {s x : State} {t : Fin 4} {d : Tooth} {who : Fin 4 → Bool} (h : OnlyIn l s x) (hl : Covers [.te, .wt] l) :
    OnlyIn l s (toothPhase t d who x) := by
  unfold toothPhase
  repeat' (first | with_reducible assumption | with_reducible apply phaseUpdate_keeps | exact hl.sub (by decide) | with_reducible refine fst_keeps (by assumption) ?_ | intro _ _ _ | dsimp only | split)

theorem showTooth_keeps {l : List Part} {s x : State} {t : Fin 4} {d : Tooth} {lost : Bool} {shown : Angle} (h : OnlyIn l s x) (hl : Covers [.te, .wt] l) :
    OnlyIn l s (showTooth t d lost shown x) := by
  unfold showTooth
  repeat' (first | with_reducible assumption | with_reducible apply modWt_keeps | with_reducible apply toothPhase_keeps | with_reducible apply trkPost_keeps | exact hl.sub (by decide) | with_reducible refine fst_keeps (by assumption) ?_ | intro _ _ _ | dsimp only | split)

theorem afterTooth_keeps {l : List Part} {s x : State} {t : Fin 4} {d : Tooth} {changes : List (TrkState × TrkState × Nat)} (h : OnlyIn l s x) (hl : Covers [.ch, .te, .wt] l) :
    OnlyIn l s (afterTooth t d changes x) := by
  unfold afterTooth
  repeat' (first | with_reducible assumption | with_reducible apply pulse_keeps | with_reducible apply toothPhase_keeps | with_reducible apply squash_keeps | with_reducible apply decisionNotices_keeps | exact hl.sub (by decide) | with_reducible refine fst_keeps (by assumption) ?_ | intro _ _ _ | dsimp only | split)

theorem publish_keeps {l : List Part} {s x : State} {t : Fin 4} {d : Tooth} {changes : List (TrkState × TrkState × Nat)} {shown : Angle} (h : OnlyIn l s x) (hl : Covers [.ch, .te, .wt] l) :
    OnlyIn l s (publish t d changes shown x) := by
  unfold publish
  repeat' (first | with_reducible assumption | with_reducible apply afterTooth_keeps | with_reducible apply showTooth_keeps | exact hl.sub (by decide) | with_reducible refine fst_keeps (by assumption) ?_ | intro _ _ _ | dsimp only | split)

theorem toothNext_keeps {l : List Part} {s x : State} {t : Fin 4} {d : Tooth} {m : Option Nat} (h : OnlyIn l s x) (hl : Covers [.dom, .ch, .te, .wt, .pin, .pins, .job, .rcd, .calm] l) :
    OnlyIn l s (toothNext t d m x) := by
  unfold toothNext
  repeat' (first | with_reducible assumption | with_reducible apply modWt_keeps | with_reducible apply loseTrackAt_keeps | with_reducible apply publish_keeps | with_reducible apply commitDue_keeps | with_reducible apply afterTooth_keeps | with_reducible apply showTooth_keeps | exact hl.sub (by decide) | with_reducible refine fst_keeps (by assumption) ?_ | intro _ _ _ | dsimp only | split)

theorem seekNext_keeps {l : List Part} {s x : State} {t : Fin 4} {stamp : Stamp} {m : Nat} {first : Bool} {lack : Option Nat} (h : OnlyIn l s x) (hl : Covers [.te, .wt] l) :
    OnlyIn l s (seekNext t stamp m first lack x) := by
  unfold seekNext
  repeat' (first | with_reducible assumption | with_reducible apply modWt_keeps | with_reducible apply trkNotice_keeps | exact hl.sub (by decide) | with_reducible refine fst_keeps (by assumption) ?_ | intro _ _ _ | dsimp only | split)

theorem Sequel.act_keeps {l : List Part} {s x : State} {t : Fin 4} {q : Sequel} (h : OnlyIn l s x) (hl : Covers [.dom, .ch, .te, .wt, .pin, .pins, .job, .rcd, .calm] l) :
    OnlyIn l s (Sequel.act t q x) := by
  unfold Sequel.act
  repeat' (first | with_reducible assumption | with_reducible apply toothNext_keeps | with_reducible apply seekNext_keeps | exact hl.sub (by decide) | with_reducible refine fst_keeps (by assumption) ?_ | intro _ _ _ | dsimp only | split)

theorem acceptEdge_keeps {l : List Part} {s x : State} {t : Fin 4} {stamp : Stamp} (h : OnlyIn l s x) (hl : Covers [.dom, .ch, .te, .wt, .pin, .pins, .job, .rcd, .calm] l) :
    OnlyIn l s (acceptEdge t stamp x).1 := by
  unfold acceptEdge
  repeat' (first | with_reducible assumption | with_reducible apply modWt_keeps | with_reducible apply refCheck_keeps | with_reducible apply recordTooth_keeps | with_reducible apply showTrk_keeps | exact hl.sub (by decide) | with_reducible refine fst_keeps (by assumption) ?_ | intro _ _ _ | dsimp only | split)

theorem noiseEdge_keeps {l : List Part} {s x : State} {t : Fin 4} {stamp : Stamp} (h : OnlyIn l s x) (hl : Covers [.wt, .rcd] l) :
    OnlyIn l s (noiseEdge t stamp x) := by
  unfold noiseEdge
  repeat' (first | with_reducible assumption | with_reducible apply modWt_keeps | with_reducible apply recordTooth_keeps | exact hl.sub (by decide) | with_reducible refine fst_keeps (by assumption) ?_ | intro _ _ _ | dsimp only | split)

theorem closeWindow_keeps {l : List Part} {s x : State} {t : Fin 4} (h : OnlyIn l s x) (hl : Covers [.dom, .ch, .te, .wt, .pin, .pins, .job, .rcd, .calm] l) :
    OnlyIn l s (closeWindow t x).1 := by
  unfold closeWindow
  repeat' (first | with_reducible assumption | with_reducible apply loseTrack_keeps | with_reducible apply modWt_keeps | with_reducible apply refCheck_keeps | with_reducible apply recordTooth_keeps | with_reducible apply showTrk_keeps | exact hl.sub (by decide) | with_reducible refine fst_keeps (by assumption) ?_ | intro _ _ _ | dsimp only | split)

theorem syncAt_keeps {l : List Part} {s x : State} {t : Fin 4} {m : Nat} {stamp : Stamp} (h : OnlyIn l s x) (hl : Covers [.wt, .rcd] l) :
    OnlyIn l s (syncAt t m stamp x).1 := by
  unfold syncAt
  repeat' (first | with_reducible assumption | with_reducible apply modWt_keeps | with_reducible apply recordTooth_keeps | with_reducible apply showTrk_keeps | exact hl.sub (by decide) | with_reducible refine fst_keeps (by assumption) ?_ | intro _ _ _ | dsimp only | split)

theorem seekAccept_keeps {l : List Part} {s x : State} {t : Fin 4} {prev : Stamp} {stamp : Stamp} (h : OnlyIn l s x) (hl : Covers [.wt, .rcd] l) :
    OnlyIn l s (seekAccept t prev stamp x).1 := by
  unfold seekAccept
  repeat' (first | with_reducible assumption | with_reducible apply modWt_keeps | with_reducible apply syncAt_keeps | exact hl.sub (by decide) | with_reducible refine fst_keeps (by assumption) ?_ | intro _ _ _ | dsimp only | split)

theorem seekEdge_keeps {l : List Part} {s x : State} {t : Fin 4} {stamp : Stamp} (h : OnlyIn l s x) (hl : Covers [.wt, .rcd] l) :
    OnlyIn l s (seekEdge t stamp x).1 := by
  unfold seekEdge
  repeat' (first | with_reducible assumption | with_reducible apply modWt_keeps | with_reducible apply noiseEdge_keeps | with_reducible apply seekAccept_keeps | exact hl.sub (by decide) | with_reducible refine fst_keeps (by assumption) ?_ | intro _ _ _ | dsimp only | split)

theorem decideEdge_keeps {l : List Part} {s x : State} {t : Fin 4} {stamp : Stamp} (h : OnlyIn l s x) (hl : Covers [.dom, .ch, .te, .wt, .pin, .pins, .job, .rcd, .calm] l) :
    OnlyIn l s (decideEdge t stamp x).1 := by
  unfold decideEdge
  repeat' (first | with_reducible assumption | with_reducible apply commitDue_keeps | with_reducible apply seekEdge_keeps | with_reducible apply acceptEdge_keeps | with_reducible apply noiseEdge_keeps | exact hl.sub (by decide) | with_reducible refine fst_keeps (by assumption) ?_ | intro _ _ _ | dsimp only | split)

theorem wtCommand_keeps {l : List Part} {s x : State} {t : Fin 4} {from_ : Option (Fin 16)} {st : CmdStatus} {f : State → State} (hf : OnlyIn l s (f x)) (h : OnlyIn l s x) (hl : Covers [.wt] l) : OnlyIn l s (wtCommand t from_ st f x) := by
  unfold wtCommand
  repeat' (first | assumption | apply wtAnswer_keeps | exact hl.sub (by decide) | split)

theorem wtReseek_keeps {l : List Part} {s x : State} {t : Fin 4} {from_ : Option (Fin 16)} (h : OnlyIn l s x) (hl : Covers [.ch, .te, .wt, .pin, .pins, .job, .rcd] l) :
    OnlyIn l s (wtReseek t from_ x) := by
  unfold wtReseek
  repeat' (first | with_reducible assumption | with_reducible apply enterSeeking_keeps | with_reducible apply discardAll_keeps | with_reducible apply wtCommand_keeps | exact hl.sub (by decide) | with_reducible refine fst_keeps (by assumption) ?_ | intro _ _ _ | dsimp only | split)

theorem endDoze_keeps {l : List Part} {s x : State}  (h : OnlyIn l s x) (hl : Covers [.sys] l) :
    OnlyIn l s (endDoze  x) := by
  unfold endDoze
  repeat' (first | with_reducible assumption | with_reducible apply modSys_keeps | exact hl.sub (by decide) | with_reducible refine fst_keeps (by assumption) ?_ | intro _ _ _ | dsimp only | split)

theorem domAnswer_keeps {l : List Part} {s x : State} {st : CmdStatus} (h : OnlyIn l s x) (hl : Covers [.dom] l) :
    OnlyIn l s (domAnswer st x) := by
  unfold domAnswer
  repeat' (first | with_reducible assumption | with_reducible apply modDom_keeps | with_reducible apply refuse_keeps | exact hl.sub (by decide) | with_reducible refine fst_keeps (by assumption) ?_ | intro _ _ _ | dsimp only | split)

theorem setObserve_keeps {l : List Part} {s x : State} {on : Bool} (h : OnlyIn l s x) (hl : Covers [.dom, .pin, .pins, .rcd] l) :
    OnlyIn l s (setObserve on x) := by
  unfold setObserve
  repeat' (first | with_reducible assumption | with_reducible apply refreshPins_keeps | with_reducible apply modDom_keeps | with_reducible apply recordIn_keeps | exact hl.sub (by decide) | with_reducible refine fst_keeps (by assumption) ?_ | intro _ _ _ | dsimp only | split)

theorem domEffect_keeps {l : List Part} {s x : State} {c : DomCmd} (h : OnlyIn l s x) (hl : Covers [.dom, .ch, .te, .wt, .pin, .pins, .job, .rcd, .sys] l) :
    OnlyIn l s (domEffect c x) := by
  unfold domEffect
  repeat' (first | with_reducible assumption | with_reducible apply enterDomain_keeps | with_reducible apply setObserve_keeps | with_reducible apply modDom_keeps | exact hl.sub (by decide) | with_reducible refine fst_keeps (by assumption) ?_ | intro _ _ _ | dsimp only | split)

theorem domCommand_keeps {l : List Part} {s x : State} {c : DomCmd} (h : OnlyIn l s x) (hl : Covers [.dom, .ch, .te, .wt, .pin, .pins, .job, .rcd, .sys] l) :
    OnlyIn l s (domCommand c x) := by
  unfold domCommand
  repeat' (first | with_reducible assumption | with_reducible apply domAnswer_keeps | with_reducible apply domEffect_keeps | exact hl.sub (by decide) | with_reducible refine fst_keeps (by assumption) ?_ | intro _ _ _ | dsimp only | split)

theorem moveDomain_keeps {l : List Part} {s x : State} {d : DomState} (h : OnlyIn l s x) (hl : Covers [.dom, .ch, .te, .wt, .pin, .pins, .job, .rcd, .sys] l) :
    OnlyIn l s (moveDomain d x) := by
  unfold moveDomain
  repeat' (first | with_reducible assumption | with_reducible apply enterDomain_keeps | with_reducible apply modDom_keeps | exact hl.sub (by decide) | with_reducible refine fst_keeps (by assumption) ?_ | intro _ _ _ | dsimp only | split)

theorem applyTransition_keeps {l : List Part} {s x : State}  (h : OnlyIn l s x) (hl : Covers [.dom, .ch, .te, .wt, .pin, .pins, .job, .rcd, .sys] l) :
    OnlyIn l s (applyTransition  x) := by
  unfold applyTransition
  repeat' (first | with_reducible assumption | with_reducible apply modDom_keeps | with_reducible apply moveDomain_keeps | exact hl.sub (by decide) | with_reducible refine fst_keeps (by assumption) ?_ | intro _ _ _ | dsimp only | split)

theorem takeRoot_keeps {l : List Part} {s x : State}  (h : OnlyIn l s x) (hl : Covers [.dom, .ch, .te, .wt, .pin, .pins, .job, .rcd, .sys] l) :
    OnlyIn l s (takeRoot  x) := by
  unfold takeRoot
  repeat' (first | with_reducible assumption | with_reducible apply modDom_keeps | with_reducible apply moveDomain_keeps | exact hl.sub (by decide) | with_reducible refine fst_keeps (by assumption) ?_ | intro _ _ _ | dsimp only | split)

theorem applyLink_keeps {l : List Part} {s x : State}  (h : OnlyIn l s x) (hl : Covers [.dom, .ch, .te, .wt, .pin, .pins, .link, .job, .rcd, .sys] l) :
    OnlyIn l s (applyLink  x) := by
  unfold applyLink
  repeat' (first | with_reducible assumption | with_reducible apply modLink_keeps | with_reducible apply setObserve_keeps | with_reducible apply takeRoot_keeps | exact hl.sub (by decide) | with_reducible refine fst_keeps (by assumption) ?_ | intro _ _ _ | dsimp only | split)

theorem loadFlags_keeps {l : List Part} {s x : State}  (h : OnlyIn l s x) (hl : Covers [.ch, .te] l) :
    OnlyIn l s (loadFlags  x) := by
  unfold loadFlags
  repeat' (first | with_reducible assumption | with_reducible apply setFlag_keeps | with_reducible apply forAll_keeps | exact hl.sub (by decide) | with_reducible refine fst_keeps (by assumption) ?_ | intro _ _ _ | dsimp only | split)

theorem moveParts_keeps {l : List Part} {s x : State} {d : Stamp} {f : BitVec 48} (h : OnlyIn l s x) (hl : Covers [.ch, .win, .wt, .pin] l) :
    OnlyIn l s (moveParts d f x) := by
  unfold moveParts
  repeat' (first | with_reducible assumption | with_reducible apply keeps_ch | with_reducible apply keeps_pin | with_reducible apply keeps_win | with_reducible apply keeps_wt | exact hl.sub (by decide) | exact OnlyIn.step (by assumption) (by intro p hp; cases p <;> first | rfl | exact IcKept.refl _ | exact absurd (hl _ (by decide)) hp) | with_reducible refine fst_keeps (by assumption) ?_ | intro _ _ _ | dsimp only | split)

theorem loadInvalidates_keeps {l : List Part} {s x : State}  (h : OnlyIn l s x) (hl : Covers [.wt] l) :
    OnlyIn l s (loadInvalidates  x) := by
  unfold loadInvalidates
  repeat' (first | with_reducible assumption | with_reducible apply keeps_wt | exact hl.sub (by decide) | with_reducible refine fst_keeps (by assumption) ?_ | intro _ _ _ | dsimp only | split)

theorem moveTb_keeps {l : List Part} {s x : State} {v : Stamp} {keep : Bool} (h : OnlyIn l s x) (hl : Covers [.dom, .tb, .ch, .te, .win, .wt, .pin, .pins, .job, .rcd] l) :
    OnlyIn l s (moveTb v keep x) := by
  unfold moveTb
  repeat' (first | with_reducible assumption | with_reducible apply modTb_keeps | with_reducible apply forAll_keeps | with_reducible apply modDom_keeps | with_reducible apply trkLoad_keeps | with_reducible apply moveParts_keeps | with_reducible apply loadFlags_keeps | with_reducible apply loadInvalidates_keeps | with_reducible apply keeps_ch | exact hl.sub (by decide) | with_reducible refine fst_keeps (by assumption) ?_ | intro _ _ _ | dsimp only | split)

theorem tbLoad_keeps {l : List Part} {s x : State}  (h : OnlyIn l s x) (hl : Covers [.tb] l) :
    OnlyIn l s (tbLoad  x) := by
  unfold tbLoad
  repeat' (first | with_reducible assumption | with_reducible apply modTb_keeps | exact hl.sub (by decide) | with_reducible refine fst_keeps (by assumption) ?_ | intro _ _ _ | dsimp only | split)

theorem jobAnswer_keeps {l : List Part} {s x : State} {t : Fin 4} {st : CmdStatus} (h : OnlyIn l s x) (hl : Covers [.job] l) :
    OnlyIn l s (jobAnswer t st x) := by
  unfold jobAnswer
  repeat' (first | with_reducible assumption | with_reducible apply modLine_keeps | with_reducible apply refuse_keeps | exact hl.sub (by decide) | with_reducible refine fst_keeps (by assumption) ?_ | intro _ _ _ | dsimp only | split)

theorem untracked_keeps {l : List Part} {s x : State} {t : Fin 4} {cause : Nat} {ang : Angle} (h : OnlyIn l s x) (hl : Covers [.job] l) :
    OnlyIn l s (untracked t cause ang x) := by
  unfold untracked
  repeat' (first | with_reducible assumption | with_reducible apply modLine_keeps | exact hl.sub (by decide) | with_reducible refine fst_keeps (by assumption) ?_ | intro _ _ _ | dsimp only | split)

theorem detect_keeps {l : List Part} {s x : State} {t : Fin 4} {stamp : Stamp} (h : OnlyIn l s x) (hl : Covers [.job] l) :
    OnlyIn l s (detect t stamp x) := by
  unfold detect
  repeat' (first | with_reducible assumption | with_reducible apply untracked_keeps | with_reducible apply modLine_keeps | exact hl.sub (by decide) | with_reducible refine fst_keeps (by assumption) ?_ | intro _ _ _ | dsimp only | split)

theorem slotReport_keeps {l : List Part} {s x : State} {t : Fin 4} {i : Fin 512} {code : Nat} (h : OnlyIn l s x) (hl : Covers [.job] l) :
    OnlyIn l s (slotReport t i code x) := by
  unfold slotReport
  repeat' (first | with_reducible assumption | with_reducible apply slotVerdict_keeps | with_reducible apply modLine_keeps | with_reducible apply modSlot_keeps | exact hl.sub (by decide) | with_reducible refine fst_keeps (by assumption) ?_ | intro _ _ _ | dsimp only | split)

theorem verdictFor_keeps {l : List Part} {s x : State} {t : Fin 4} {psn : Word} {code : Nat} (h : OnlyIn l s x) (hl : Covers [.job] l) :
    OnlyIn l s (verdictFor t psn code x) := by
  unfold verdictFor
  repeat' (first | with_reducible assumption | with_reducible apply slotReport_keeps | with_reducible apply modLine_keeps | exact hl.sub (by decide) | with_reducible refine fst_keeps (by assumption) ?_ | intro _ _ _ | dsimp only | split)

theorem pinEdge_keeps {l : List Part} {s x : State} {t : Fin 4} {detection : Bool} {stamp : Stamp} (h : OnlyIn l s x) (hl : Covers [.later, .job] l) :
    OnlyIn l s (pinEdge t detection stamp x) := by
  unfold pinEdge
  repeat' (first | with_reducible assumption | with_reducible apply verdictPin_keeps | with_reducible apply modLine_keeps | with_reducible apply defer_keeps | exact hl.sub (by decide) | with_reducible refine fst_keeps (by assumption) ?_ | intro _ _ _ | dsimp only | split)

theorem lineEdges_keeps {l : List Part} {s x : State} {n : Fin 256} {stamp : Stamp} (h : OnlyIn l s x) (hl : Covers [.later, .job] l) :
    OnlyIn l s (lineEdges n stamp x) := by
  unfold lineEdges
  repeat' (first | with_reducible assumption | with_reducible apply forAll_keeps | with_reducible apply pinEdge_keeps | with_reducible apply detect_keeps | exact hl.sub (by decide) | with_reducible refine fst_keeps (by assumption) ?_ | intro _ _ _ | dsimp only | split)

theorem bindSlot_keeps {l : List Part} {s x : State} {t : Fin 4} {i : Fin 512} (h : OnlyIn l s x) (hl : Covers [.te, .well, .job] l) :
    OnlyIn l s (bindSlot t i x) := by
  unfold bindSlot
  repeat' (first | with_reducible assumption | with_reducible apply modLine_keeps | with_reducible apply wellPush_keeps | with_reducible apply foldl_keeps | exact hl.sub (by decide) | with_reducible refine fst_keeps (by assumption) ?_ | intro _ _ _ | dsimp only | split)

theorem printSlot_keeps {l : List Part} {s x : State} {t : Fin 4} {i : Fin 512} (h : OnlyIn l s x) (hl : Covers [.job] l) :
    OnlyIn l s (printSlot t i x) := by
  unfold printSlot
  repeat' (first | with_reducible assumption | with_reducible apply modSlot_keeps | exact hl.sub (by decide) | with_reducible refine fst_keeps (by assumption) ?_ | intro _ _ _ | dsimp only | split)

theorem placeGate_keeps {l : List Part} {s x : State} {t : Fin 4} {v : Slot} (h : OnlyIn l s x) (hl : Covers [.te, .wt] l) :
    OnlyIn l s (placeGate t v x).1 := by
  unfold placeGate
  repeat' (first | with_reducible assumption | with_reducible apply placeEvent_keeps | exact hl.sub (by decide) | with_reducible refine fst_keeps (by assumption) ?_ | intro _ _ _ | dsimp only | split)

theorem decideSlot_keeps {l : List Part} {s x : State} {t : Fin 4} {i : Fin 512} (h : OnlyIn l s x) (hl : Covers [.te, .wt, .job] l) :
    OnlyIn l s (decideSlot t i x) := by
  unfold decideSlot
  repeat' (first | with_reducible assumption | with_reducible apply placeGate_keeps | with_reducible apply pulse_keeps | with_reducible apply modLine_keeps | exact hl.sub (by decide) | with_reducible refine fst_keeps (by assumption) ?_ | intro _ _ _ | dsimp only | split)

theorem takeRecord_keeps {l : List Part} {s x : State} {t : Fin 4} {w : Vector (BitVec 64) 8} {bad : Bool} (h : OnlyIn l s x) (hl : Covers [.later, .job] l) :
    OnlyIn l s (takeRecord t w bad x) := by
  unfold takeRecord
  repeat' (first | with_reducible assumption | with_reducible apply modLine_keeps | with_reducible apply defer_keeps | exact hl.sub (by decide) | with_reducible refine fst_keeps (by assumption) ?_ | intro _ _ _ | dsimp only | split)

theorem writeRing_keeps {l : List Part} {s x : State} {t : Fin 4} {w : BitVec 16} (h : OnlyIn l s x) (hl : Covers [.job] l) :
    OnlyIn l s (writeRing t w x) := by
  unfold writeRing
  repeat' (first | with_reducible assumption | with_reducible apply jobAnswer_keeps | with_reducible apply settleLine_keeps | with_reducible apply modLine_keeps | exact hl.sub (by decide) | with_reducible refine fst_keeps (by assumption) ?_ | intro _ _ _ | dsimp only | split)

theorem jobCommand_keeps {l : List Part} {s x : State} {t : Fin 4} {judge : State → CmdStatus} {f : State → State}
    (hf : OnlyIn l s (f (settleLine t x))) (h : OnlyIn l s x) (hl : Covers [.job] l) : OnlyIn l s (jobCommand t judge f x) := by
  unfold jobCommand
  repeat' (first | assumption | with_reducible apply settleLine_keeps | with_reducible apply jobAnswer_keeps | exact hl.sub (by decide) | dsimp only | split)

theorem jobDisable_keeps {l : List Part} {s x : State} {t : Fin 4} (h : OnlyIn l s x) (hl : Covers [.job] l) :
    OnlyIn l s (jobDisable t x) := by
  unfold jobDisable
  repeat' (first | with_reducible assumption | with_reducible apply modLine_keeps | with_reducible apply closeSlots_keeps | exact hl.sub (by decide) | with_reducible refine fst_keeps (by assumption) ?_ | intro _ _ _ | dsimp only | split)

theorem writeCompletion_keeps {l : List Part} {s x : State} {t : Fin 4} (h : OnlyIn l s x) (hl : Covers [.out, .job] l) :
    OnlyIn l s (writeCompletion t x) := by
  unfold writeCompletion
  repeat' (first | with_reducible assumption | with_reducible apply emit_keeps | with_reducible apply modLine_keeps | with_reducible apply pulsePriv_keeps | exact hl.sub (by decide) | with_reducible refine fst_keeps (by assumption) ?_ | intro _ _ _ | dsimp only | split)

theorem verdictRecord_keeps {l : List Part} {s x : State} {p : Port} {t : Fin 4} {code : Nat} (h : OnlyIn l s x) (hl : Covers [.job, .rcd] l) :
    OnlyIn l s (verdictRecord p t code x) := by
  unfold verdictRecord
  repeat' (first | with_reducible assumption | with_reducible apply recordIn_keeps | with_reducible apply jobAnswer_keeps | with_reducible apply verdictFor_keeps | exact hl.sub (by decide) | with_reducible refine fst_keeps (by assumption) ?_ | intro _ _ _ | dsimp only | split)

theorem enterHorizon_keeps {l : List Part} {s x : State} {n : Fin 256} (h : OnlyIn l s x) (hl : Covers [.dom, .ch, .te, .wt, .pin, .pins, .rcd, .calm] l) :
    OnlyIn l s (enterHorizon n x) := by
  unfold enterHorizon
  repeat' (first | with_reducible assumption | with_reducible apply commitEvent_keeps | with_reducible apply commitEdge_keeps | exact hl.sub (by decide) | with_reducible refine fst_keeps (by assumption) ?_ | intro _ _ _ | dsimp only | split)

theorem chinEdge_keeps {l : List Part} {s x : State} {n : Fin 256} {level : Bool} {stamp : Stamp} (h : OnlyIn l s x) (hl : Covers [.free, .win] l) :
    OnlyIn l s (chinEdge n level stamp x) := by
  unfold chinEdge
  repeat' (first | with_reducible assumption | with_reducible apply winEdge_keeps | exact hl.sub (by decide) | with_reducible refine fst_keeps (by assumption) ?_ | intro _ _ _ | dsimp only | split)

theorem stageTarget_keeps {l : List Part} {s x : State} {p : Port} {n : Fin 256} {v : Word} (h : OnlyIn l s x) (hl : Covers [.ch] l) :
    OnlyIn l s (stageTarget p n v x) := by
  unfold stageTarget
  repeat' (first | with_reducible assumption | with_reducible apply modCh_keeps | exact hl.sub (by decide) | with_reducible refine fst_keeps (by assumption) ?_ | intro _ _ _ | dsimp only | split)

theorem commitTarget_keeps {l : List Part} {s x : State} {p : Port} {n : Fin 256} {v : Word} (h : OnlyIn l s x) (hl : Covers [.dom, .ch, .te, .pin, .pins, .rcd, .calm] l) :
    OnlyIn l s (commitTarget p n v x) := by
  unfold commitTarget
  repeat' (first | with_reducible assumption | with_reducible apply writeTarget_keeps | exact hl.sub (by decide) | with_reducible refine fst_keeps (by assumption) ?_ | intro _ _ _ | dsimp only | split)

theorem chReload_keeps {l : List Part} {s x : State} {n : Fin 256} (h : OnlyIn l s x) (hl : Covers [.later, .ch] l) :
    OnlyIn l s (chReload n x) := by
  unfold chReload
  repeat' (first | with_reducible assumption | with_reducible apply writeCmp_keeps | exact hl.sub (by decide) | with_reducible refine fst_keeps (by assumption) ?_ | intro _ _ _ | dsimp only | split)

theorem clipEdge_keeps {l : List Part} {s x : State} {p : Fin 288} {t : Stamp} {lv : Bool} (h : OnlyIn l s x) (hl : Covers [.pin, .rcd] l) :
    OnlyIn l s (clipEdge p t lv x) := by
  unfold clipEdge
  repeat' (first | with_reducible assumption | with_reducible apply modPin_keeps | with_reducible apply queueEdge_keeps | exact hl.sub (by decide) | with_reducible refine fst_keeps (by assumption) ?_ | intro _ _ _ | dsimp only | split)

theorem budgetWindow_keeps {l : List Part} {s x : State} {p : Fin 288} (h : OnlyIn l s x) (hl : Covers [.pin, .pins, .rcd] l) :
    OnlyIn l s (budgetWindow p x) := by
  unfold budgetWindow
  repeat' (first | with_reducible assumption | with_reducible apply refreshPin_keeps | with_reducible apply modPin_keeps | exact hl.sub (by decide) | with_reducible refine fst_keeps (by assumption) ?_ | intro _ _ _ | dsimp only | split)

theorem pinAnswer_keeps {l : List Part} {s x : State} {st : CmdStatus} (h : OnlyIn l s x) (hl : Covers [.pins] l) :
    OnlyIn l s (pinAnswer st x) := by
  unfold pinAnswer
  repeat' (first | with_reducible assumption | with_reducible apply modPins_keeps | with_reducible apply refuse_keeps | exact hl.sub (by decide) | with_reducible refine fst_keeps (by assumption) ?_ | intro _ _ _ | dsimp only | split)

theorem matrixTo_keeps {l : List Part} {s x : State} {on : Bool} (h : OnlyIn l s x) (hl : Covers [.later, .pins] l) :
    OnlyIn l s (matrixTo on x) := by
  unfold matrixTo
  repeat' (first | with_reducible assumption | with_reducible apply modPins_keeps | with_reducible apply defer_keeps | exact hl.sub (by decide) | with_reducible refine fst_keeps (by assumption) ?_ | intro _ _ _ | dsimp only | split)

theorem pinCommand_keeps {l : List Part} {s x : State} {st : CmdStatus} {f : State → State} (hf : OnlyIn l s (f x)) (h : OnlyIn l s x) (hl : Covers [.pins] l) : OnlyIn l s (pinCommand st f x) := by
  unfold pinCommand
  repeat' (first | assumption | apply pinAnswer_keeps | exact hl.sub (by decide) | split)

theorem setVio_keeps {l : List Part} {s x : State} {b : Fin 8} {band : Option VioBand} (h : OnlyIn l s x) (hl : Covers [.pin, .pins, .rcd] l) :
    OnlyIn l s (setVio b band x) := by
  unfold setVio
  repeat' (first | with_reducible assumption | with_reducible apply refreshPins_keeps | with_reducible apply modPins_keeps | exact hl.sub (by decide) | with_reducible refine fst_keeps (by assumption) ?_ | intro _ _ _ | dsimp only | split)

theorem setVlv_keeps {l : List Part} {s x : State} {ok : Bool} (h : OnlyIn l s x) (hl : Covers [.pin, .pins, .rcd] l) :
    OnlyIn l s (setVlv ok x) := by
  unfold setVlv
  repeat' (first | with_reducible assumption | with_reducible apply refreshPins_keeps | with_reducible apply modPins_keeps | exact hl.sub (by decide) | with_reducible refine fst_keeps (by assumption) ?_ | intro _ _ _ | dsimp only | split)

theorem modSrc_keeps {l : List Part} {s x : State} {i : Fin 32} {n : Nat} {f : Src → Src} (h : OnlyIn l s x) (hl : Covers [.ic] l) :
    OnlyIn l s (modSrc i n f x) := by
  unfold modSrc
  split
  · exact keeps_ic h hl
  · exact modTgt_keeps h hl

theorem claim_keeps {l : List Part} {s x : State} {h0 : Fin 32} {fast : Bool} (h : OnlyIn l s x) (hl : Covers [.ic] l) :
    OnlyIn l s (claim h0 fast x).1 := by
  unfold claim
  repeat' (first | with_reducible assumption | with_reducible apply modTgt_keeps | with_reducible apply modSrc_keeps | exact hl.sub (by decide) | with_reducible refine fst_keeps (by assumption) ?_ | intro _ _ _ | dsimp only | split)

theorem retire_keeps {l : List Part} {s x : State} {h0 : Fin 32} {n : Nat} (h : OnlyIn l s x) (hl : Covers [.ic] l) :
    OnlyIn l s (retire h0 n x) := by
  unfold retire
  repeat' (first | with_reducible assumption | with_reducible apply modTgt_keeps | with_reducible apply modSrc_keeps | exact hl.sub (by decide) | with_reducible refine fst_keeps (by assumption) ?_ | intro _ _ _ | dsimp only | split)

theorem complete_keeps {l : List Part} {s x : State} {h0 : Fin 32} {fast : Bool} {n : Nat} (h : OnlyIn l s x) (hl : Covers [.ic] l) :
    OnlyIn l s (complete h0 fast n x) := by
  unfold complete
  repeat' (first | with_reducible assumption | with_reducible apply retire_keeps | with_reducible apply modTgt_keeps | exact hl.sub (by decide) | with_reducible refine fst_keeps (by assumption) ?_ | intro _ _ _ | dsimp only | split)

theorem icAnswer_keeps {l : List Part} {s x : State} {st : CmdStatus} (h : OnlyIn l s x) (hl : Covers [.ic] l) :
    OnlyIn l s (icAnswer st x) := by
  unfold icAnswer
  repeat' (first | with_reducible assumption | with_reducible apply refuse_keeps | with_reducible apply keeps_ic | exact hl.sub (by decide) | with_reducible refine fst_keeps (by assumption) ?_ | intro _ _ _ | dsimp only | split)

theorem unwind_keeps {l : List Part} {s x : State} {h0 : Fin 32} {fast : Bool} (h : OnlyIn l s x) (hl : Covers [.ic] l) :
    OnlyIn l s (unwind h0 fast x) := by
  unfold unwind
  repeat' (first | with_reducible assumption | with_reducible apply retire_keeps | with_reducible apply modTgt_keeps | with_reducible apply foldl_keeps | exact hl.sub (by decide) | with_reducible refine fst_keeps (by assumption) ?_ | intro _ _ _ | dsimp only | split)

theorem srcCfgWrite_keeps {l : List Part} {s x : State} {k : SrcId} {v : Word} (h : OnlyIn l s x) (hl : Covers [.ic] l) :
    OnlyIn l s (srcCfgWrite k v x) := by
  unfold srcCfgWrite
  repeat' (first | with_reducible assumption | with_reducible apply icAnswer_keeps | with_reducible apply modTgt_keeps | with_reducible apply modSrc_keeps | exact hl.sub (by decide) | with_reducible refine fst_keeps (by assumption) ?_ | intro _ _ _ | dsimp only | split)

theorem sendPme_keeps {l : List Part} {s x : State}  (h : OnlyIn l s x) (hl : Covers [.out, .sys] l) :
    OnlyIn l s (sendPme  x) := by
  unfold sendPme
  repeat' (first | with_reducible assumption | with_reducible apply modSys_keeps | with_reducible apply emit_keeps | exact hl.sub (by decide) | with_reducible refine fst_keeps (by assumption) ?_ | intro _ _ _ | dsimp only | split)

theorem signalPme_keeps {l : List Part} {s x : State}  (h : OnlyIn l s x) (hl : Covers [.out, .sys] l) :
    OnlyIn l s (signalPme  x) := by
  unfold signalPme
  repeat' (first | with_reducible assumption | with_reducible apply sendPme_keeps | with_reducible apply modSys_keeps | exact hl.sub (by decide) | with_reducible refine fst_keeps (by assumption) ?_ | intro _ _ _ | dsimp only | split)

theorem threshold_keeps {l : List Part} {s x : State} {h0 : Fin 32} {fast : Bool} {byTime : Bool} {asleep : Bool} (h : OnlyIn l s x) (hl : Covers [.out, .ic, .sys] l) :
    OnlyIn l s (threshold h0 fast byTime asleep x) := by
  unfold threshold
  repeat' (first | with_reducible assumption | with_reducible apply signalPme_keeps | with_reducible apply modTgt_keeps | with_reducible apply pulsePriv_keeps | exact hl.sub (by decide) | with_reducible refine fst_keeps (by assumption) ?_ | intro _ _ _ | dsimp only | split)

theorem coalesce_keeps {l : List Part} {s x : State} {h0 : Fin 32} {fast : Bool} (h : OnlyIn l s x) (hl : Covers [.out, .ic, .sys] l) :
    OnlyIn l s (coalesce h0 fast x) := by
  unfold coalesce
  repeat' (first | with_reducible assumption | with_reducible apply threshold_keeps | exact hl.sub (by decide) | with_reducible refine fst_keeps (by assumption) ?_ | intro _ _ _ | dsimp only | split)

theorem targetSleep_keeps {l : List Part} {s x : State} {h0 : Fin 32} {v : Word} (h : OnlyIn l s x) (hl : Covers [.out, .ic, .sys] l) :
    OnlyIn l s (targetSleep h0 v x) := by
  unfold targetSleep
  repeat' (first | with_reducible assumption | with_reducible apply threshold_keeps | with_reducible apply modTgt_keeps | exact hl.sub (by decide) | with_reducible refine fst_keeps (by assumption) ?_ | intro _ _ _ | dsimp only | split)

theorem recordWheel_keeps {l : List Part} {s x : State} {t : Fin 4} {level : Bool} {stamp : Stamp} (h : OnlyIn l s x) (hl : Covers [.win, .rcd] l) :
    OnlyIn l s (recordWheel t level stamp x) := by
  unfold recordWheel
  repeat' (first | with_reducible assumption | with_reducible apply recordIn_keeps | with_reducible apply modWin_keeps | exact hl.sub (by decide) | with_reducible refine fst_keeps (by assumption) ?_ | intro _ _ _ | dsimp only | split)

theorem filteredLevel_keeps {l : List Part} {s x : State} {t : Fin 4} {level : Bool} {stamp : Stamp} (h : OnlyIn l s x) (hl : Covers [.win, .wt, .rcd] l) :
    OnlyIn l s (filteredLevel t level stamp x) := by
  unfold filteredLevel
  repeat' (first | with_reducible assumption | with_reducible apply modWt_keeps | with_reducible apply recordWheel_keeps | exact hl.sub (by decide) | with_reducible refine fst_keeps (by assumption) ?_ | intro _ _ _ | dsimp only | split)

theorem filteredTrail_keeps {l : List Part} {s x : State} {t : Fin 4} {stamp : Stamp} (h : OnlyIn l s x) (hl : Covers [.win, .wt, .rcd] l) :
    OnlyIn l s (filteredTrail t stamp x) := by
  unfold filteredTrail
  repeat' (first | with_reducible assumption | with_reducible apply modWt_keeps | with_reducible apply filteredLevel_keeps | exact hl.sub (by decide) | with_reducible refine fst_keeps (by assumption) ?_ | intro _ _ _ | dsimp only | split)

theorem evAnswer_keeps {l : List Part} {s x : State} {t : Fin 4} {st : CmdStatus} (h : OnlyIn l s x) (hl : Covers [.wt] l) :
    OnlyIn l s (evAnswer t st x) := by
  unfold evAnswer
  repeat' (first | with_reducible assumption | with_reducible apply modWt_keeps | exact hl.sub (by decide) | with_reducible refine fst_keeps (by assumption) ?_ | intro _ _ _ | dsimp only | split)

theorem evFlush_keeps {l : List Part} {s x : State} {t : Fin 4} (h : OnlyIn l s x) (hl : Covers [.ch, .te, .wt] l) :
    OnlyIn l s (evFlush t x) := by
  unfold evFlush
  repeat' (first | with_reducible assumption | with_reducible apply discard_keeps | with_reducible apply commitDue_keeps | with_reducible apply evAnswer_keeps | exact hl.sub (by decide) | with_reducible refine fst_keeps (by assumption) ?_ | intro _ _ _ | dsimp only | split)

theorem evCancel_keeps {l : List Part} {s x : State} {t : Fin 4} (h : OnlyIn l s x) (hl : Covers [.ch, .te, .wt] l) :
    OnlyIn l s (evCancel t x) := by
  unfold evCancel
  repeat' (first | with_reducible assumption | with_reducible apply cancelTag_keeps | with_reducible apply evAnswer_keeps | exact hl.sub (by decide) | with_reducible refine fst_keeps (by assumption) ?_ | intro _ _ _ | dsimp only | split)

theorem wtStop_keeps {l : List Part} {s x : State} {t : Fin 4} (h : OnlyIn l s x) (hl : Covers [.ch, .te, .wt, .pin, .pins, .job, .rcd] l) :
    OnlyIn l s (wtStop t x) := by
  unfold wtStop
  repeat' (first | with_reducible assumption | with_reducible apply wtCommand_keeps | with_reducible apply enterStopped_keeps | exact hl.sub (by decide) | with_reducible refine fst_keeps (by assumption) ?_ | intro _ _ _ | dsimp only | split)

theorem wtStart_keeps {l : List Part} {s x : State} {t : Fin 4} (h : OnlyIn l s x) (hl : Covers [.te, .wt, .job] l) :
    OnlyIn l s (wtStart t x) := by
  unfold wtStart
  repeat' (first | with_reducible assumption | with_reducible apply enterSeeking_keeps | with_reducible apply wtCommand_keeps | exact hl.sub (by decide) | with_reducible refine fst_keeps (by assumption) ?_ | intro _ _ _ | dsimp only | split)

theorem wtSetrev_keeps {l : List Part} {s x : State} {t : Fin 4} (h : OnlyIn l s x) (hl : Covers [.wt] l) :
    OnlyIn l s (wtSetrev t x) := by
  unfold wtSetrev
  repeat' (first | with_reducible assumption | with_reducible apply modWt_keeps | with_reducible apply wtCommand_keeps | exact hl.sub (by decide) | with_reducible refine fst_keeps (by assumption) ?_ | intro _ _ _ | dsimp only | split)

theorem beginIntegration_keeps {l : List Part} {s x : State} {c : Fin 2} (h : OnlyIn l s x) (hl : Covers [.sc] l) :
    OnlyIn l s (beginIntegration c x) := by
  unfold beginIntegration
  repeat' (first | with_reducible assumption | with_reducible apply modSc_keeps | exact hl.sub (by decide) | with_reducible refine fst_keeps (by assumption) ?_ | intro _ _ _ | dsimp only | split)

theorem restartFilter_keeps {l : List Part} {s x : State} {c : Fin 2} (h : OnlyIn l s x) (hl : Covers [.sc] l) :
    OnlyIn l s (restartFilter c x) := by
  unfold restartFilter
  repeat' (first | with_reducible assumption | with_reducible apply settle_keeps | with_reducible apply modSc_keeps | with_reducible apply beginIntegration_keeps | exact hl.sub (by decide) | with_reducible refine fst_keeps (by assumption) ?_ | intro _ _ _ | dsimp only | split)

theorem goTo_keeps {l : List Part} {s x : State} {c : Fin 2} {input : BitVec 4} {dump : Bool} (h : OnlyIn l s x) (hl : Covers [.sc] l) :
    OnlyIn l s (goTo c input dump x) := by
  unfold goTo
  repeat' (first | with_reducible assumption | with_reducible apply modSc_keeps | with_reducible apply settle_keeps | exact hl.sub (by decide) | with_reducible refine fst_keeps (by assumption) ?_ | intro _ _ _ | dsimp only | split)

theorem scLevel_keeps {l : List Part} {s x : State} {c : Fin 2} {f : Conv → Conv} (h : OnlyIn l s x) (hl : Covers [.sc] l) :
    OnlyIn l s (scLevel c f x) := by
  unfold scLevel
  repeat' (first | with_reducible assumption | with_reducible apply pulse_keeps | with_reducible apply modSc_keeps | exact hl.sub (by decide) | with_reducible refine fst_keeps (by assumption) ?_ | intro _ _ _ | dsimp only | split)

theorem bufferAdvance_keeps {l : List Part} {s x : State} {c : Fin 2} (h : OnlyIn l s x) (hl : Covers [.sc] l) :
    OnlyIn l s (bufferAdvance c x) := by
  unfold bufferAdvance
  repeat' (first | with_reducible assumption | with_reducible apply scLevel_keeps | exact hl.sub (by decide) | with_reducible refine fst_keeps (by assumption) ?_ | intro _ _ _ | dsimp only | split)

theorem writeBufRd_keeps {l : List Part} {s x : State} {c : Fin 2} {v : Word} (h : OnlyIn l s x) (hl : Covers [.sc] l) :
    OnlyIn l s (writeBufRd c v x) := by
  unfold writeBufRd
  repeat' (first | with_reducible assumption | with_reducible apply scLevel_keeps | exact hl.sub (by decide) | with_reducible refine fst_keeps (by assumption) ?_ | intro _ _ _ | dsimp only | split)

theorem plausRecord_keeps {l : List Part} {s x : State} {c : Fin 2} {b : Option Nat} {r : Int} {ovr : Bool} (h : OnlyIn l s x) (hl : Covers [.scs] l) :
    OnlyIn l s (plausRecord c b r ovr x) := by
  unfold plausRecord
  repeat' (first | with_reducible assumption | with_reducible apply modScs_keeps | with_reducible apply plausFail_keeps | exact hl.sub (by decide) | with_reducible refine fst_keeps (by assumption) ?_ | intro _ _ _ | dsimp only | split)

theorem plausBegin_keeps {l : List Part} {s x : State}  (h : OnlyIn l s x) (hl : Covers [.sc, .scs] l) :
    OnlyIn l s (plausBegin  x) := by
  unfold plausBegin
  repeat' (first | with_reducible assumption | with_reducible apply modScs_keeps | with_reducible apply plausFail_keeps | with_reducible apply forAll_keeps | with_reducible apply injectRequest_keeps | exact hl.sub (by decide) | with_reducible refine fst_keeps (by assumption) ?_ | intro _ _ _ | dsimp only | split)

theorem deliver_keeps {l : List Part} {s x : State} {c : Fin 2} {b : Option Nat} {w : ScRecord} (h : OnlyIn l s x) (hl : Covers [.sc, .scs, .rcd] l) :
    OnlyIn l s (deliver c b w x) := by
  unfold deliver
  repeat' (first | with_reducible assumption | with_reducible apply recordIn_keeps | with_reducible apply modSc_keeps | with_reducible apply plausRecord_keeps | exact hl.sub (by decide) | with_reducible refine fst_keeps (by assumption) ?_ | intro _ _ _ | dsimp only | split)

theorem formRecord_keeps {l : List Part} {s x : State} {c : Fin 2} {raw : Int × Nat} {overload : Option Bool} (h : OnlyIn l s x) (hl : Covers [.sc, .scs, .rcd] l) :
    OnlyIn l s (formRecord c raw overload x) := by
  unfold formRecord
  repeat' (first | with_reducible assumption | with_reducible apply deliver_keeps | with_reducible apply modSc_keeps | exact hl.sub (by decide) | with_reducible refine fst_keeps (by assumption) ?_ | intro _ _ _ | dsimp only | split)

theorem haltConv_keeps {l : List Part} {s x : State} {c : Fin 2} (h : OnlyIn l s x) (hl : Covers [.sc, .scs] l) :
    OnlyIn l s (haltConv c x) := by
  unfold haltConv
  repeat' (first | with_reducible assumption | with_reducible apply plausFail_keeps | with_reducible apply modSc_keeps | exact hl.sub (by decide) | with_reducible refine fst_keeps (by assumption) ?_ | intro _ _ _ | dsimp only | split)

theorem scAnswer_keeps {l : List Part} {s x : State} {c : Fin 2} {st : CmdStatus} (h : OnlyIn l s x) (hl : Covers [.sc] l) :
    OnlyIn l s (scAnswer c st x) := by
  unfold scAnswer
  repeat' (first | with_reducible assumption | with_reducible apply modSc_keeps | with_reducible apply refuse_keeps | exact hl.sub (by decide) | with_reducible refine fst_keeps (by assumption) ?_ | intro _ _ _ | dsimp only | split)

theorem scStart_keeps {l : List Part} {s x : State} {c : Fin 2} (h : OnlyIn l s x) (hl : Covers [.sc, .sys] l) :
    OnlyIn l s (scStart c x) := by
  unfold scStart
  repeat' (first | with_reducible assumption | with_reducible apply endDoze_keeps | with_reducible apply scAnswer_keeps | with_reducible apply modSc_keeps | with_reducible apply goTo_keeps | exact hl.sub (by decide) | with_reducible refine fst_keeps (by assumption) ?_ | intro _ _ _ | dsimp only | split)

theorem scStop_keeps {l : List Part} {s x : State} {c : Fin 2} (h : OnlyIn l s x) (hl : Covers [.sc, .scs] l) :
    OnlyIn l s (scStop c x) := by
  unfold scStop
  repeat' (first | with_reducible assumption | with_reducible apply haltConv_keeps | with_reducible apply scAnswer_keeps | with_reducible apply modSc_keeps | exact hl.sub (by decide) | with_reducible refine fst_keeps (by assumption) ?_ | intro _ _ _ | dsimp only | split)

theorem selfCal_keeps {l : List Part} {s x : State} {c : Fin 2} (h : OnlyIn l s x) (hl : Covers [.later, .sc] l) :
    OnlyIn l s (selfCal c x) := by
  unfold selfCal
  repeat' (first | with_reducible assumption | with_reducible apply stands_keeps | with_reducible apply scAnswer_keeps | with_reducible apply modSc_keeps | with_reducible apply goTo_keeps | exact hl.sub (by decide) | with_reducible refine fst_keeps (by assumption) ?_ | intro _ _ _ | dsimp only | split)

theorem trimCal_keeps {l : List Part} {s x : State} {c : Fin 2} (h : OnlyIn l s x) (hl : Covers [.sc] l) :
    OnlyIn l s (trimCal c x) := by
  unfold trimCal
  repeat' (first | with_reducible assumption | with_reducible apply scAnswer_keeps | with_reducible apply modSc_keeps | exact hl.sub (by decide) | with_reducible refine fst_keeps (by assumption) ?_ | intro _ _ _ | dsimp only | split)

theorem scInject_keeps {l : List Part} {s x : State} {c : Fin 2} (h : OnlyIn l s x) (hl : Covers [.sc] l) :
    OnlyIn l s (scInject c x) := by
  unfold scInject
  repeat' (first | with_reducible assumption | with_reducible apply scAnswer_keeps | with_reducible apply injectRequest_keeps | exact hl.sub (by decide) | with_reducible refine fst_keeps (by assumption) ?_ | intro _ _ _ | dsimp only | split)

theorem scGuarded_keeps {l : List Part} {s x : State} {c : Fin 2} {f : Conv → Conv} (h : OnlyIn l s x) (hl : Covers [.sc] l) :
    OnlyIn l s (scGuarded c f x) := by
  unfold scGuarded
  repeat' (first | with_reducible assumption | with_reducible apply scAnswer_keeps | with_reducible apply modSc_keeps | exact hl.sub (by decide) | with_reducible refine fst_keeps (by assumption) ?_ | intro _ _ _ | dsimp only | split)

theorem writeBufLen_keeps {l : List Part} {s x : State} {c : Fin 2} {v : Word} (h : OnlyIn l s x) (hl : Covers [.sc] l) :
    OnlyIn l s (writeBufLen c v x) := by
  unfold writeBufLen
  repeat' (first | with_reducible assumption | with_reducible apply scGuarded_keeps | exact hl.sub (by decide) | with_reducible refine fst_keeps (by assumption) ?_ | intro _ _ _ | dsimp only | split)

theorem mainsRise_keeps {l : List Part} {s x : State}  (h : OnlyIn l s x) (hl : Covers [.scs] l) :
    OnlyIn l s (mainsRise  x) := by
  unfold mainsRise
  repeat' (first | with_reducible assumption | with_reducible apply modScs_keeps | exact hl.sub (by decide) | with_reducible refine fst_keeps (by assumption) ?_ | intro _ _ _ | dsimp only | split)

theorem mainsLost_keeps {l : List Part} {s x : State}  (h : OnlyIn l s x) (hl : Covers [.sc, .scs] l) :
    OnlyIn l s (mainsLost  x) := by
  unfold mainsLost
  repeat' (first | with_reducible assumption | with_reducible apply modScs_keeps | with_reducible apply modSc_keeps | with_reducible apply forAll_keeps | exact hl.sub (by decide) | with_reducible refine fst_keeps (by assumption) ?_ | intro _ _ _ | dsimp only | split)

theorem clearStatus_keeps {l : List Part} {s x : State} {n : Fin 256} {v : Word} (h : OnlyIn l s x) (hl : Covers [.ch] l) :
    OnlyIn l s (clearStatus n v x) := by
  unfold clearStatus
  repeat' (first | with_reducible assumption | with_reducible apply modCh_keeps | exact hl.sub (by decide) | with_reducible refine fst_keeps (by assumption) ?_ | intro _ _ _ | dsimp only | split)

theorem writeChIe_keeps {l : List Part} {s x : State} {n : Fin 256} {v : Word} (h : OnlyIn l s x) (hl : Covers [.ch] l) :
    OnlyIn l s (writeChIe n v x) := by
  unfold writeChIe
  repeat' (first | with_reducible assumption | with_reducible apply modCh_keeps | exact hl.sub (by decide) | with_reducible refine fst_keeps (by assumption) ?_ | intro _ _ _ | dsimp only | split)

theorem microLoad_keeps {l : List Part} {s x : State} {e : Fin 16} {word : Nat} {dst : Option (Fin 8)} (h : OnlyIn l s x) (hl : Covers [.te, .cis] l) :
    OnlyIn l s (microLoad e word dst x) := by
  unfold microLoad
  repeat' (first | with_reducible assumption | with_reducible apply enqueue_keeps | with_reducible apply modTe_keeps | exact hl.sub (by decide) | with_reducible refine fst_keeps (by assumption) ?_ | intro _ _ _ | dsimp only | split)

theorem microAtomic_keeps {l : List Part} {s x : State} {e : Fin 16} {add : Bool} {word : Nat} {w : Microword} (h : OnlyIn l s x) (hl : Covers [.te] l) :
    OnlyIn l s (microAtomic e add word w x) := by
  unfold microAtomic
  repeat' (first | with_reducible assumption | with_reducible apply modTe_keeps | exact hl.sub (by decide) | with_reducible refine fst_keeps (by assumption) ?_ | intro _ _ _ | dsimp only | split)

theorem microItem_keeps {l : List Part} {s x : State} {e : Fin 16} {pop : Bool} {k : Fin 64} {dst : Option (Fin 8)} (h : OnlyIn l s x) (hl : Covers [.te, .well] l) :
    OnlyIn l s (microItem e pop k dst x) := by
  unfold microItem
  repeat' (first | with_reducible assumption | with_reducible apply wellReport_keeps | with_reducible apply modTe_keeps | with_reducible apply modWell_keeps | exact hl.sub (by decide) | with_reducible refine fst_keeps (by assumption) ?_ | intro _ _ _ | dsimp only | split)

theorem microMem_keeps {l : List Part} {s x : State} {e : Fin 16} {w : Microword} {y : Word} (h : OnlyIn l s x) (hl : Covers [.te, .cis, .well] l) :
    OnlyIn l s (microMem e w y x) := by
  unfold microMem
  repeat' (first | with_reducible assumption | with_reducible apply modTe_keeps | with_reducible apply microItem_keeps | with_reducible apply microLoad_keeps | with_reducible apply microAtomic_keeps | exact hl.sub (by decide) | with_reducible refine fst_keeps (by assumption) ?_ | intro _ _ _ | dsimp only | split)

theorem microOps_keeps {l : List Part} {s x : State} {e : Fin 16} {w : Microword} {a : Word} {b : Word} {y : Word} {n : Fin 256} {pn : Fin 256} (h : OnlyIn l s x) (hl : Covers [.te, .cis, .well] l) :
    OnlyIn l s (microOps e w a b y n pn x) := by
  unfold microOps
  repeat' (first | with_reducible assumption | with_reducible apply modTe_keeps | with_reducible apply microMem_keeps | exact hl.sub (by decide) | with_reducible refine fst_keeps (by assumption) ?_ | intro _ _ _ | dsimp only | split)

theorem acknowledge_keeps {l : List Part} {s x : State} {e : Fin 16} {num : BitVec 6} (h : OnlyIn l s x) :
    OnlyIn l s (acknowledge e num x) := by
  unfold acknowledge
  repeat' (first | with_reducible assumption | with_reducible apply pulsePriv_keeps | with_reducible apply forAll_keeps | with_reducible refine fst_keeps (by assumption) ?_ | intro _ _ _ | dsimp only | split)

theorem microStep_keeps {l : List Part} {s x : State} {e : Fin 16} {w : Microword} (h : OnlyIn l s x) (hl : Covers [.te, .cis, .well] l) :
    OnlyIn l s (microStep e w x) := by
  unfold microStep
  repeat' (first | with_reducible assumption | with_reducible apply modTe_keeps | with_reducible apply microOps_keeps | with_reducible apply acknowledge_keeps | exact hl.sub (by decide) | with_reducible refine fst_keeps (by assumption) ?_ | intro _ _ _ | dsimp only | split)

theorem machineCheck_keeps {l : List Part} {s x : State} {e : Fin 16} {lanes : BitVec 8} (h : OnlyIn l s x) (hl : Covers [.dom, .ch, .te, .wt, .pin, .pins, .rcd, .calm] l) :
    OnlyIn l s (machineCheck e lanes x) := by
  unfold machineCheck
  repeat' (first | with_reducible assumption | with_reducible apply commitDue_keeps | with_reducible apply refreshPins_keeps | with_reducible apply discard_keeps | with_reducible apply modTe_keeps | with_reducible apply forAll_keeps | with_reducible apply raiseFault_keeps | exact hl.sub (by decide) | with_reducible refine fst_keeps (by assumption) ?_ | intro _ _ _ | dsimp only | split)

theorem teAnswer_keeps {l : List Part} {s x : State} {e : Fin 16} {st : CmdStatus} (h : OnlyIn l s x) (hl : Covers [.te] l) :
    OnlyIn l s (teAnswer e st x) := by
  unfold teAnswer
  repeat' (first | with_reducible assumption | with_reducible apply refuse_keeps | with_reducible apply modTe_keeps | exact hl.sub (by decide) | with_reducible refine fst_keeps (by assumption) ?_ | intro _ _ _ | dsimp only | split)

theorem teCommand_keeps {l : List Part} {s x : State} {e : Fin 16} {ok : Bool} {f : State → State} (hf : OnlyIn l s (f x)) (h : OnlyIn l s x) (hl : Covers [.te] l) : OnlyIn l s (teCommand e ok f x) := by
  unfold teCommand
  repeat' (first | assumption | apply teAnswer_keeps | exact hl.sub (by decide) | split)

theorem teStart_keeps {l : List Part} {s x : State} {e : Fin 16} (h : OnlyIn l s x) (hl : Covers [.te, .sys] l) :
    OnlyIn l s (teStart e x) := by
  unfold teStart
  repeat' (first | with_reducible assumption | with_reducible apply endDoze_keeps | with_reducible apply modTe_keeps | with_reducible apply teCommand_keeps | exact hl.sub (by decide) | with_reducible refine fst_keeps (by assumption) ?_ | intro _ _ _ | dsimp only | split)

theorem teStop_keeps {l : List Part} {s x : State} {e : Fin 16} (h : OnlyIn l s x) (hl : Covers [.te] l) :
    OnlyIn l s (teStop e x) := by
  unfold teStop
  repeat' (first | with_reducible assumption | with_reducible apply modTe_keeps | with_reducible apply teCommand_keeps | exact hl.sub (by decide) | with_reducible refine fst_keeps (by assumption) ?_ | intro _ _ _ | dsimp only | split)

theorem teHalt_keeps {l : List Part} {s x : State} {e : Fin 16} (h : OnlyIn l s x) (hl : Covers [.te] l) :
    OnlyIn l s (teHalt e x) := by
  unfold teHalt
  repeat' (first | with_reducible assumption | with_reducible apply modTe_keeps | with_reducible apply teCommand_keeps | exact hl.sub (by decide) | with_reducible refine fst_keeps (by assumption) ?_ | intro _ _ _ | dsimp only | split)

theorem teVerify_keeps {l : List Part} {s x : State} {e : Fin 16} (h : OnlyIn l s x) (hl : Covers [.te] l) :
    OnlyIn l s (teVerify e x) := by
  unfold teVerify
  repeat' (first | with_reducible assumption | with_reducible apply modTe_keeps | with_reducible apply teCommand_keeps | exact hl.sub (by decide) | with_reducible refine fst_keeps (by assumption) ?_ | intro _ _ _ | dsimp only | split)

theorem teClear_keeps {l : List Part} {s x : State} {e : Fin 16} (h : OnlyIn l s x) (hl : Covers [.te, .pin, .pins, .rcd] l) :
    OnlyIn l s (teClear e x) := by
  unfold teClear
  repeat' (first | with_reducible assumption | with_reducible apply refreshPins_keeps | with_reducible apply modTe_keeps | with_reducible apply teCommand_keeps | exact hl.sub (by decide) | with_reducible refine fst_keeps (by assumption) ?_ | intro _ _ _ | dsimp only | split)

theorem doorbell_keeps {l : List Part} {s x : State} {e : Fin 16} {k : Fin 8} {v : Word} (h : OnlyIn l s x) (hl : Covers [.te, .rcd] l) :
    OnlyIn l s (doorbell e k v x) := by
  unfold doorbell
  repeat' (first | with_reducible assumption | with_reducible apply recordIn_keeps | with_reducible apply post_keeps | exact hl.sub (by decide) | with_reducible refine fst_keeps (by assumption) ?_ | intro _ _ _ | dsimp only | split)

theorem requestPost_keeps {l : List Part} {s x : State} {e : Fin 16} {num : Fin 64} {arg : Word} (h : OnlyIn l s x) (hl : Covers [.te] l) :
    OnlyIn l s (requestPost e num arg x) := by
  unfold requestPost
  repeat' (first | with_reducible assumption | with_reducible apply post_keeps | exact hl.sub (by decide) | with_reducible refine fst_keeps (by assumption) ?_ | intro _ _ _ | dsimp only | split)

theorem teRunaway_keeps {l : List Part} {s x : State} {e : Fin 16} (h : OnlyIn l s x) (hl : Covers [.te] l) :
    OnlyIn l s (teRunaway e x) := by
  unfold teRunaway
  repeat' (first | with_reducible assumption | with_reducible apply modTe_keeps | exact hl.sub (by decide) | with_reducible refine fst_keeps (by assumption) ?_ | intro _ _ _ | dsimp only | split)

theorem deliverChan_keeps {l : List Part} {s x : State} {n : Fin 256} {op : Nat} {a : Word} {b : Word} (h : OnlyIn l s x) (hl : Covers [.later, .dom, .ch, .te, .wt, .pin, .pins, .ic, .rcd, .calm] l) :
    OnlyIn l s (deliverChan n op a b x) := by
  unfold deliverChan
  repeat' (first | with_reducible assumption | with_reducible apply writeCmp_keeps | with_reducible apply writeTarget_keeps | with_reducible apply clearStatus_keeps | with_reducible apply writeTop_keeps | with_reducible apply chAnswer_keeps | with_reducible apply chReload_keeps | with_reducible apply armCompare_keeps | with_reducible apply writeChIe_keeps | with_reducible apply noteClears_keeps | with_reducible apply writeCnt_keeps | with_reducible apply stopChannel_keeps | with_reducible apply writeChCfg_keeps | with_reducible apply writeFilt_keeps | with_reducible apply chCommand_keeps | with_reducible apply chStart_keeps | with_reducible apply modCh_keeps | exact hl.sub (by decide) | with_reducible refine fst_keeps (by assumption) ?_ | intro _ _ _ | dsimp only | split)

theorem releaseLoads_keeps {l : List Part} {s x : State} {e : Fin 16} {id : Nat} (h : OnlyIn l s x) (hl : Covers [.te, .cis] l) :
    OnlyIn l s (releaseLoads e id x) := by
  unfold releaseLoads
  repeat' (first | with_reducible assumption | with_reducible apply enqueue_keeps | with_reducible apply modTe_keeps | with_reducible apply foldl_keeps | exact hl.sub (by decide) | with_reducible refine fst_keeps (by assumption) ?_ | intro _ _ _ | dsimp only | split)

theorem deliverCistern_keeps {l : List Part} {s x : State} {e : Fin 16} {word : Nat} {k : AccKind} {use : AccUse} (h : OnlyIn l s x) (hl : Covers [.te, .cis] l) :
    OnlyIn l s (deliverCistern e word k use x) := by
  unfold deliverCistern
  repeat' (first | with_reducible assumption | with_reducible apply enqueue_keeps | with_reducible apply accessFault_keeps | with_reducible apply sendBack_keeps | with_reducible apply modTe_keeps | exact hl.sub (by decide) | with_reducible refine fst_keeps (by assumption) ?_ | intro _ _ _ | dsimp only | split)

theorem deliverTracker_keeps {l : List Part} {s x : State} {e : Fin 16} {t : Fin 4} {op : Nat} {a : Word} {b : Word} {aux : BitVec 24} {chan : Fin 256} (h : OnlyIn l s x) (hl : Covers [.ch, .te, .wt, .pin, .pins, .job, .rcd] l) :
    OnlyIn l s (deliverTracker e t op a b aux chan x) := by
  unfold deliverTracker
  repeat' (first | with_reducible assumption | with_reducible apply wtReseek_keeps | with_reducible apply moveTag_keeps | with_reducible apply wtAnswer_keeps | with_reducible apply cancelTag_keeps | with_reducible apply placeEvent_keeps | exact hl.sub (by decide) | with_reducible refine fst_keeps (by assumption) ?_ | intro _ _ _ | dsimp only | split)

theorem deliverEffect_keeps {l : List Part} {s x : State} {e : Fin 16} {x0 : SideEffect} (h : OnlyIn l s x) (hl : Covers [.later, .dom, .ch, .te, .wt, .pin, .pins, .cis, .well, .ic, .job, .rcd, .calm] l) :
    OnlyIn l s (deliverEffect e x0 x) := by
  unfold deliverEffect
  repeat' (first | with_reducible assumption | with_reducible apply wellDrop_keeps | with_reducible apply post_keeps | with_reducible apply deliverChan_keeps | with_reducible apply deliverTracker_keeps | with_reducible apply deliverCistern_keeps | with_reducible apply wellPush_keeps | with_reducible apply releaseLoads_keeps | with_reducible apply modWell_keeps | exact hl.sub (by decide) | with_reducible refine fst_keeps (by assumption) ?_ | intro _ _ _ | dsimp only | split)

theorem valueArrival_keeps {l : List Part} {s x : State} {e : Fin 16} (h : OnlyIn l s x) (hl : Covers [.te] l) :
    OnlyIn l s (valueArrival e x) := by
  unfold valueArrival
  repeat' (first | with_reducible assumption | with_reducible apply modTe_keeps | exact hl.sub (by decide) | with_reducible refine fst_keeps (by assumption) ?_ | intro _ _ _ | dsimp only | split)

theorem windowWrite_keeps {l : List Part} {s x : State} {e : Fin 16} {f : Engine → Engine} (h : OnlyIn l s x) (hl : Covers [.te] l) :
    OnlyIn l s (windowWrite e f x) := by
  unfold windowWrite
  repeat' (first | with_reducible assumption | with_reducible apply modTe_keeps | exact hl.sub (by decide) | with_reducible refine fst_keeps (by assumption) ?_ | intro _ _ _ | dsimp only | split)

theorem stageDword_keeps {l : List Part} {s x : State} {p : Port} {e : Fin 16} {j : Fin 3} {v : Word} (h : OnlyIn l s x) (hl : Covers [.te] l) :
    OnlyIn l s (stageDword p e j v x) := by
  unfold stageDword
  repeat' (first | with_reducible assumption | with_reducible apply windowWrite_keeps | exact hl.sub (by decide) | with_reducible refine fst_keeps (by assumption) ?_ | intro _ _ _ | dsimp only | split)

theorem storeWord_keeps {l : List Part} {s x : State} {p : Port} {e : Fin 16} {a : Fin 2048} {v : Word} (h : OnlyIn l s x) (hl : Covers [.te] l) :
    OnlyIn l s (storeWord p e a v x) := by
  unfold storeWord
  repeat' (first | with_reducible assumption | with_reducible apply windowWrite_keeps | exact hl.sub (by decide) | with_reducible refine fst_keeps (by assumption) ?_ | intro _ _ _ | dsimp only | split)

theorem windowRead_keeps {l : List Part} {s x : State} {e : Fin 16} {a : Fin 2048} {j : Nat} (h : OnlyIn l s x) (hl : Covers [.te] l) :
    OnlyIn l s (windowRead e a j x).1 := by
  unfold windowRead
  repeat' (first | with_reducible assumption | with_reducible apply modTe_keeps | exact hl.sub (by decide) | with_reducible refine fst_keeps (by assumption) ?_ | intro _ _ _ | dsimp only | split)

theorem latch_keeps {l : List Part} {s x : State} {rid : BitVec 16} {pair : Pair} {v : Word} (h : OnlyIn l s x) (hl : Covers [.shadows] l) :
    OnlyIn l s (latch rid pair v x) := by
  unfold latch
  repeat' (first | with_reducible assumption | with_reducible apply keeps_shadows | exact hl.sub (by decide) | with_reducible refine fst_keeps (by assumption) ?_ | intro _ _ _ | dsimp only | split)

theorem latchFor_keeps {l : List Part} {s x : State} {p : Port} {pair : Pair} {v : Word} (h : OnlyIn l s x) (hl : Covers [.shadows] l) :
    OnlyIn l s (latchFor p pair v x) := by
  unfold latchFor
  repeat' (first | with_reducible assumption | with_reducible apply latch_keeps | exact hl.sub (by decide) | with_reducible refine fst_keeps (by assumption) ?_ | intro _ _ _ | dsimp only | split)

theorem wellPop_keeps {l : List Part} {s x : State} {k : Fin 64} (h : OnlyIn l s x) (hl : Covers [.well] l) :
    OnlyIn l s (wellPop k x) := by
  unfold wellPop
  repeat' (first | with_reducible assumption | with_reducible apply wellReport_keeps | with_reducible apply wellDrop_keeps | with_reducible apply modWell_keeps | exact hl.sub (by decide) | with_reducible refine fst_keeps (by assumption) ?_ | intro _ _ _ | dsimp only | split)

theorem deliverReturn_keeps {l : List Part} {s x : State} {r : Return} (h : OnlyIn l s x) (hl : Covers [.out, .te, .pump] l) :
    OnlyIn l s (deliverReturn r x) := by
  unfold deliverReturn
  repeat' (first | with_reducible assumption | with_reducible apply modTe_keeps | with_reducible apply emit_keeps | with_reducible apply modPump_keeps | exact hl.sub (by decide) | with_reducible refine fst_keeps (by assumption) ?_ | intro _ _ _ | dsimp only | split)

theorem bar2Read_keeps {l : List Part} {s x : State} {rid : BitVec 16} {addr : Nat} {len : Nat} (h : OnlyIn l s x) (hl : Covers [.cis] l) :
    OnlyIn l s (bar2Read rid addr len x) := by
  unfold bar2Read
  repeat' (first | with_reducible assumption | with_reducible apply enqueue_keeps | with_reducible apply foldl_keeps | exact hl.sub (by decide) | with_reducible refine fst_keeps (by assumption) ?_ | intro _ _ _ | dsimp only | split)

theorem bar2Write_keeps {l : List Part} {s x : State} {addr : Nat} {bytes : List (Option Byte)} (h : OnlyIn l s x) (hl : Covers [.cis] l) :
    OnlyIn l s (bar2Write addr bytes x) := by
  unfold bar2Write
  repeat' (first | with_reducible assumption | with_reducible apply enqueue_keeps | with_reducible apply foldl_keeps | exact hl.sub (by decide) | with_reducible refine fst_keeps (by assumption) ?_ | intro _ _ _ | dsimp only | split)

theorem handover_keeps {l : List Part} {s x : State} {b : Fin 8} {v : Word} (h : OnlyIn l s x) (hl : Covers [.later, .cis] l) :
    OnlyIn l s (handover b v x) := by
  unfold handover
  repeat' (first | with_reducible assumption | with_reducible apply modCis_keeps | with_reducible apply deferLast_keeps | with_reducible apply refuse_keeps | exact hl.sub (by decide) | with_reducible refine fst_keeps (by assumption) ?_ | intro _ _ _ | dsimp only | split)

theorem scrubWord_keeps {l : List Part} {s x : State} {w : Nat} (h : OnlyIn l s x) (hl : Covers [.dom, .pins, .cis, .rcd, .calm] l) :
    OnlyIn l s (scrubWord w x) := by
  unfold scrubWord
  repeat' (first | with_reducible assumption | with_reducible apply modBank_keeps | with_reducible apply modCis_keeps | with_reducible apply readWordAt_keeps | exact hl.sub (by decide) | with_reducible refine fst_keeps (by assumption) ?_ | intro _ _ _ | dsimp only | split)

theorem writeScrub_keeps {l : List Part} {s x : State} {v : Word} (h : OnlyIn l s x) (hl : Covers [.cis] l) :
    OnlyIn l s (writeScrub v x) := by
  unfold writeScrub
  repeat' (first | with_reducible assumption | with_reducible apply modCis_keeps | exact hl.sub (by decide) | with_reducible refine fst_keeps (by assumption) ?_ | intro _ _ _ | dsimp only | split)

theorem wellAnswer_keeps {l : List Part} {s x : State} {k : Fin 64} {st : CmdStatus} (h : OnlyIn l s x) (hl : Covers [.well] l) :
    OnlyIn l s (wellAnswer k st x) := by
  unfold wellAnswer
  repeat' (first | with_reducible assumption | with_reducible apply modWell_keeps | with_reducible apply refuse_keeps | exact hl.sub (by decide) | with_reducible refine fst_keeps (by assumption) ?_ | intro _ _ _ | dsimp only | split)

theorem wellCommand_keeps {l : List Part} {s x : State} {k : Fin 64} {st : CmdStatus} {f : Well → Well} (h : OnlyIn l s x) (hl : Covers [.well] l) :
    OnlyIn l s (wellCommand k st f x) := by
  unfold wellCommand
  repeat' (first | with_reducible assumption | with_reducible apply wellAnswer_keeps | with_reducible apply modWell_keeps | exact hl.sub (by decide) | with_reducible refine fst_keeps (by assumption) ?_ | intro _ _ _ | dsimp only | split)

theorem hostPush_keeps {l : List Part} {s x : State} {p : Port} {k : Fin 64} {v : Word} (h : OnlyIn l s x) (hl : Covers [.te, .well] l) :
    OnlyIn l s (hostPush p k v x) := by
  unfold hostPush
  repeat' (first | with_reducible assumption | with_reducible apply wellPush_keeps | exact hl.sub (by decide) | with_reducible refine fst_keeps (by assumption) ?_ | intro _ _ _ | dsimp only | split)

theorem txWrite_keeps {l : List Part} {s x : State} {e : Fin 32} {v : Word} (h : OnlyIn l s x) (hl : Covers [.se] l) :
    OnlyIn l s (txWrite e v x) := by
  unfold txWrite
  repeat' (first | with_reducible assumption | with_reducible apply modSe_keeps | exact hl.sub (by decide) | with_reducible refine fst_keeps (by assumption) ?_ | intro _ _ _ | dsimp only | split)

theorem rxRead_keeps {l : List Part} {s x : State} {e : Fin 32} (h : OnlyIn l s x) (hl : Covers [.se] l) :
    OnlyIn l s (rxRead e x).1 := by
  unfold rxRead
  repeat' (first | with_reducible assumption | with_reducible apply modSe_keeps | exact hl.sub (by decide) | with_reducible refine fst_keeps (by assumption) ?_ | intro _ _ _ | dsimp only | split)

theorem setDir_keeps {l : List Part} {s x : State} {e : Fin 32} {drive : Bool} (h : OnlyIn l s x) (hl : Covers [.pin, .pins, .se, .rcd] l) :
    OnlyIn l s (setDir e drive x) := by
  unfold setDir
  repeat' (first | with_reducible assumption | with_reducible apply refreshPin_keeps | with_reducible apply forAll_keeps | with_reducible apply modSe_keeps | exact hl.sub (by decide) | with_reducible refine fst_keeps (by assumption) ?_ | intro _ _ _ | dsimp only | split)

theorem cutSck_keeps {l : List Part} {s x : State} {k : Nat} {e : Fin 32} (h : OnlyIn l s x) (hl : Covers [.pin, .se] l) :
    OnlyIn l s (cutSck k e x) := by
  unfold cutSck
  repeat' (first | with_reducible assumption | with_reducible apply modSe_keeps | with_reducible apply modPin_keeps | with_reducible apply forAll_keeps | exact hl.sub (by decide) | with_reducible refine fst_keeps (by assumption) ?_ | intro _ _ _ | dsimp only | split)

theorem restartClock_keeps {l : List Part} {s x : State} {e : Fin 32} (h : OnlyIn l s x) (hl : Covers [.pin, .se] l) :
    OnlyIn l s (restartClock e x) := by
  unfold restartClock
  repeat' (first | with_reducible assumption | with_reducible apply cutSck_keeps | with_reducible apply modSe_keeps | exact hl.sub (by decide) | with_reducible refine fst_keeps (by assumption) ?_ | intro _ _ _ | dsimp only | split)

theorem pulseSck_keeps {l : List Part} {s x : State} {e : Fin 32} {shift : Bool} (h : OnlyIn l s x) (hl : Covers [.dom, .pin, .pins, .se, .rcd, .calm] l) :
    OnlyIn l s (pulseSck e shift x) := by
  unfold pulseSck
  repeat' (first | with_reducible assumption | with_reducible apply sckPins_keeps | with_reducible apply modSe_keeps | exact hl.sub (by decide) | with_reducible refine fst_keeps (by assumption) ?_ | intro _ _ _ | dsimp only | split)

theorem issueBarrier_keeps {l : List Part} {s x : State} {e : Fin 32} {restart : Bool} (h : OnlyIn l s x) (hl : Covers [.pin, .se] l) :
    OnlyIn l s (issueBarrier e restart x) := by
  unfold issueBarrier
  repeat' (first | with_reducible assumption | with_reducible apply modSe_keeps | with_reducible apply restartClock_keeps | exact hl.sub (by decide) | with_reducible refine fst_keeps (by assumption) ?_ | intro _ _ _ | dsimp only | split)

theorem issueShift_keeps {l : List Part} {s x : State} {e : Fin 32} {out : Bool} {inp : Bool} (h : OnlyIn l s x) (hl : Covers [.se] l) :
    OnlyIn l s (issueShift e out inp x) := by
  unfold issueShift
  repeat' (first | with_reducible assumption | with_reducible apply modSe_keeps | exact hl.sub (by decide) | with_reducible refine fst_keeps (by assumption) ?_ | intro _ _ _ | dsimp only | split)

theorem putPins_keeps {l : List Part} {s x : State} {e : Fin 32} (h : OnlyIn l s x) (hl : Covers [.dom, .pin, .pins, .se, .rcd, .calm] l) :
    OnlyIn l s (putPins e x) := by
  unfold putPins
  repeat' (first | with_reducible assumption | with_reducible apply modSe_keeps | with_reducible apply shiftPins_keeps | with_reducible apply setDir_keeps | exact hl.sub (by decide) | with_reducible refine fst_keeps (by assumption) ?_ | intro _ _ _ | dsimp only | split)

theorem movWord_keeps {l : List Part} {s x : State} {e : Fin 32} {li : BitVec 8} {si : BitVec 4} (h : OnlyIn l s x) (hl : Covers [.dom, .pin, .pins, .se, .rcd, .calm] l) :
    OnlyIn l s (movWord e li si x) := by
  unfold movWord
  repeat' (first | with_reducible assumption | with_reducible apply modSe_keeps | with_reducible apply shiftPins_keeps | exact hl.sub (by decide) | with_reducible refine fst_keeps (by assumption) ?_ | intro _ _ _ | dsimp only | split)

theorem issue_keeps {l : List Part} {s x : State} {e : Fin 32} {li : BitVec 8} {si : BitVec 4} (h : OnlyIn l s x) (hl : Covers [.dom, .te, .pin, .pins, .se, .rcd, .calm] l) :
    OnlyIn l s (issue e li si x) := by
  unfold issue
  repeat' (first | with_reducible assumption | with_reducible apply issueShift_keeps | with_reducible apply modSe_keeps | with_reducible apply postMask_keeps | with_reducible apply issueBarrier_keeps | with_reducible apply movWord_keeps | with_reducible apply setDir_keeps | with_reducible apply putPins_keeps | with_reducible apply restartClock_keeps | exact hl.sub (by decide) | with_reducible refine fst_keeps (by assumption) ?_ | intro _ _ _ | dsimp only | split)

theorem haltEngine_keeps {l : List Part} {s x : State} {e : Fin 32} (h : OnlyIn l s x) (hl : Covers [.pin, .se] l) :
    OnlyIn l s (haltEngine e x) := by
  unfold haltEngine
  repeat' (first | with_reducible assumption | with_reducible apply cutSck_keeps | with_reducible apply modSe_keeps | exact hl.sub (by decide) | with_reducible refine fst_keeps (by assumption) ?_ | intro _ _ _ | dsimp only | split)

theorem drainDone_keeps {l : List Part} {s x : State} {e : Fin 32} (h : OnlyIn l s x) (hl : Covers [.se] l) :
    OnlyIn l s (drainDone e x) := by
  unfold drainDone
  repeat' (first | with_reducible assumption | with_reducible apply modSe_keeps | exact hl.sub (by decide) | with_reducible refine fst_keeps (by assumption) ?_ | intro _ _ _ | dsimp only | split)

theorem releaseBarrier_keeps {l : List Part} {s x : State} {g : Fin 8} (h : OnlyIn l s x) (hl : Covers [.pin, .se] l) :
    OnlyIn l s (releaseBarrier g x) := by
  unfold releaseBarrier
  repeat' (first | with_reducible assumption | with_reducible apply modSe_keeps | with_reducible apply restartClock_keeps | with_reducible apply foldl_keeps | exact hl.sub (by decide) | with_reducible refine fst_keeps (by assumption) ?_ | intro _ _ _ | dsimp only | split)

theorem seAnswer_keeps {l : List Part} {s x : State} {e : Fin 32} {st : CmdStatus} (h : OnlyIn l s x) (hl : Covers [.se] l) :
    OnlyIn l s (seAnswer e st x) := by
  unfold seAnswer
  repeat' (first | with_reducible assumption | with_reducible apply refuse_keeps | with_reducible apply modSe_keeps | exact hl.sub (by decide) | with_reducible refine fst_keeps (by assumption) ?_ | intro _ _ _ | dsimp only | split)

theorem seCommand_keeps {l : List Part} {s x : State} {e : Fin 32} {st : CmdStatus} {f : State → State} (hf : OnlyIn l s (f x)) (h : OnlyIn l s x) (hl : Covers [.se] l) : OnlyIn l s (seCommand e st f x) := by
  unfold seCommand
  repeat' (first | assumption | apply seAnswer_keeps | exact hl.sub (by decide) | split)

theorem startEngine_keeps {l : List Part} {s x : State} {e : Fin 32} (h : OnlyIn l s x) (hl : Covers [.dom, .pin, .pins, .se, .rcd, .calm] l) :
    OnlyIn l s (startEngine e x) := by
  unfold startEngine
  repeat' (first | with_reducible assumption | with_reducible apply modSe_keeps | with_reducible apply shiftPins_keeps | with_reducible apply setDir_keeps | with_reducible apply restartClock_keeps | exact hl.sub (by decide) | with_reducible refine fst_keeps (by assumption) ?_ | intro _ _ _ | dsimp only | split)

theorem discardFlight_keeps {l : List Part} {s x : State} {e : Fin 32} (h : OnlyIn l s x) (hl : Covers [.pump] l) :
    OnlyIn l s (discardFlight e x) := by
  unfold discardFlight
  repeat' (first | with_reducible assumption | with_reducible apply forAll_keeps | with_reducible apply modPump_keeps | exact hl.sub (by decide) | with_reducible refine fst_keeps (by assumption) ?_ | intro _ _ _ | dsimp only | split)

theorem stopEngine_keeps {l : List Part} {s x : State} {e : Fin 32} (h : OnlyIn l s x) (hl : Covers [.dom, .pin, .pins, .pump, .se, .rcd, .calm] l) :
    OnlyIn l s (stopEngine e x) := by
  unfold stopEngine
  repeat' (first | with_reducible assumption | with_reducible apply cutSck_keeps | with_reducible apply modSe_keeps | with_reducible apply shiftPins_keeps | with_reducible apply setDir_keeps | with_reducible apply discardFlight_keeps | exact hl.sub (by decide) | with_reducible refine fst_keeps (by assumption) ?_ | intro _ _ _ | dsimp only | split)

theorem ShCmd.effect_keeps {l : List Part} {s x : State} {c : ShCmd} {clr : Bool} {e : Fin 32} (h : OnlyIn l s x) (hl : Covers [.later, .dom, .pin, .pins, .pump, .se, .rcd, .calm] l) :
    OnlyIn l s (ShCmd.effect c clr e x) := by
  unfold ShCmd.effect
  repeat' (first | with_reducible assumption | with_reducible apply stands_keeps | with_reducible apply startEngine_keeps | with_reducible apply haltEngine_keeps | with_reducible apply modSe_keeps | with_reducible apply stopEngine_keeps | exact hl.sub (by decide) | with_reducible refine fst_keeps (by assumption) ?_ | intro _ _ _ | dsimp only | split)

theorem engineCommand_keeps {l : List Part} {s x : State} {c : ShCmd} {clr : Bool} {e : Fin 32} (h : OnlyIn l s x) (hl : Covers [.later, .dom, .pin, .pins, .pump, .se, .rcd, .sys, .calm] l) :
    OnlyIn l s (engineCommand c clr e x) := by
  unfold engineCommand
  repeat' (first | with_reducible assumption | with_reducible apply seCommand_keeps | with_reducible apply endDoze_keeps | with_reducible apply ShCmd.effect_keeps | exact hl.sub (by decide) | with_reducible refine fst_keeps (by assumption) ?_ | intro _ _ _ | dsimp only | split)

theorem trigEngine_keeps {l : List Part} {s x : State} {e : Fin 32} (h : OnlyIn l s x) (hl : Covers [.se] l) :
    OnlyIn l s (trigEngine e x) := by
  unfold trigEngine
  repeat' (first | with_reducible assumption | with_reducible apply setTrg_keeps | with_reducible apply seAnswer_keeps | exact hl.sub (by decide) | with_reducible refine fst_keeps (by assumption) ?_ | intro _ _ _ | dsimp only | split)

theorem seRefresh_keeps {l : List Part} {s x : State} {e : Fin 32} (h : OnlyIn l s x) (hl : Covers [.dom, .pin, .pins, .rcd, .calm] l) :
    OnlyIn l s (seRefresh e x) := by
  unfold seRefresh
  repeat' (first | with_reducible assumption | with_reducible apply refreshPin_keeps | with_reducible apply shiftPins_keeps | with_reducible apply forAll_keeps | with_reducible apply sckPins_keeps | exact hl.sub (by decide) | with_reducible refine fst_keeps (by assumption) ?_ | intro _ _ _ | dsimp only | split)

theorem seGuarded_keeps {l : List Part} {s x : State} {e : Fin 32} {ok : Bool} {f : Shift → Shift} (h : OnlyIn l s x) (hl : Covers [.se] l) :
    OnlyIn l s (seGuarded e ok f x) := by
  unfold seGuarded
  repeat' (first | with_reducible assumption | with_reducible apply seAnswer_keeps | with_reducible apply modSe_keeps | exact hl.sub (by decide) | with_reducible refine fst_keeps (by assumption) ?_ | intro _ _ _ | dsimp only | split)

theorem writeWrap_keeps {l : List Part} {s x : State} {e : Fin 32} {v : Word} (h : OnlyIn l s x) (hl : Covers [.later, .se] l) :
    OnlyIn l s (writeWrap e v x) := by
  unfold writeWrap
  repeat' (first | with_reducible assumption | with_reducible apply deferLast_keeps | with_reducible apply modSe_keeps | exact hl.sub (by decide) | with_reducible refine fst_keeps (by assumption) ?_ | intro _ _ _ | dsimp only | split)

theorem seWrite_keeps {l : List Part} {s x : State} {e : Fin 32} {off : Nat} {v : Word} (h : OnlyIn l s x) (hl : Covers [.later, .dom, .pin, .pins, .se, .rcd, .calm] l) :
    OnlyIn l s (seWrite e off v x) := by
  unfold seWrite
  repeat' (first | with_reducible assumption | with_reducible apply writeWrap_keeps | with_reducible apply seAnswer_keeps | with_reducible apply modSe_keeps | with_reducible apply seRefresh_keeps | with_reducible apply deferLast_keeps | with_reducible apply seGuarded_keeps | exact hl.sub (by decide) | with_reducible refine fst_keeps (by assumption) ?_ | intro _ _ _ | dsimp only | split)

theorem pumpAnswer_keeps {l : List Part} {s x : State} {u : Fin 8} {st : CmdStatus} (h : OnlyIn l s x) (hl : Covers [.pump] l) :
    OnlyIn l s (pumpAnswer u st x) := by
  unfold pumpAnswer
  repeat' (first | with_reducible assumption | with_reducible apply modPump_keeps | with_reducible apply refuse_keeps | exact hl.sub (by decide) | with_reducible refine fst_keeps (by assumption) ?_ | intro _ _ _ | dsimp only | split)

theorem pumpCommand_keeps {l : List Part} {s x : State} {u : Fin 8} {st : CmdStatus} {f : Pump → Pump} (h : OnlyIn l s x) (hl : Covers [.pump] l) :
    OnlyIn l s (pumpCommand u st f x) := by
  unfold pumpCommand
  repeat' (first | with_reducible assumption | with_reducible apply pumpAnswer_keeps | with_reducible apply modPump_keeps | exact hl.sub (by decide) | with_reducible refine fst_keeps (by assumption) ?_ | intro _ _ _ | dsimp only | split)

theorem writeTail_keeps {l : List Part} {s x : State} {u : Fin 8} {w : BitVec 16} (h : OnlyIn l s x) (hl : Covers [.pump] l) :
    OnlyIn l s (writeTail u w x) := by
  unfold writeTail
  repeat' (first | with_reducible assumption | with_reducible apply pumpAnswer_keeps | with_reducible apply modPump_keeps | exact hl.sub (by decide) | with_reducible refine fst_keeps (by assumption) ?_ | intro _ _ _ | dsimp only | split)

theorem pumpGuarded_keeps {l : List Part} {s x : State} {u : Fin 8} {f : Pump → Pump} (h : OnlyIn l s x) (hl : Covers [.pump] l) :
    OnlyIn l s (pumpGuarded u f x) := by
  unfold pumpGuarded
  repeat' (first | with_reducible assumption | with_reducible apply pumpAnswer_keeps | with_reducible apply modPump_keeps | exact hl.sub (by decide) | with_reducible refine fst_keeps (by assumption) ?_ | intro _ _ _ | dsimp only | split)

theorem takeDesc_keeps {l : List Part} {s x : State} {u : Fin 8} {w : List Word} (h : OnlyIn l s x) (hl : Covers [.pump] l) :
    OnlyIn l s (takeDesc u w x) := by
  unfold takeDesc
  repeat' (first | with_reducible assumption | with_reducible apply modPump_keeps | exact hl.sub (by decide) | with_reducible refine fst_keeps (by assumption) ?_ | intro _ _ _ | dsimp only | split)

theorem askHost_keeps {l : List Part} {s x : State} {u : Fin 8} {d : Desc} (h : OnlyIn l s x) (hl : Covers [.out, .pump] l) :
    OnlyIn l s (askHost u d x) := by
  unfold askHost
  repeat' (first | with_reducible assumption | with_reducible apply emit_keeps | with_reducible apply modPump_keeps | with_reducible apply foldl_keeps | exact hl.sub (by decide) | with_reducible refine fst_keeps (by assumption) ?_ | intro _ _ _ | dsimp only | split)

theorem convWord_keeps {l : List Part} {s x : State} {u : Fin 8} {c : Fin 2} (h : OnlyIn l s x) (hl : Covers [.sc] l) :
    OnlyIn l s (convWord u c x).1 := by
  unfold convWord
  repeat' (first | with_reducible assumption | with_reducible apply modSc_keeps | exact hl.sub (by decide) | with_reducible refine fst_keeps (by assumption) ?_ | intro _ _ _ | dsimp only | split)

theorem convAdvance_keeps {l : List Part} {s x : State} {d : Desc} {fourth : Bool} (h : OnlyIn l s x) (hl : Covers [.sc] l) :
    OnlyIn l s (convAdvance d fourth x) := by
  unfold convAdvance
  repeat' (first | with_reducible assumption | with_reducible apply bufferAdvance_keeps | exact hl.sub (by decide) | with_reducible refine fst_keeps (by assumption) ?_ | intro _ _ _ | dsimp only | split)

theorem pumpIdle_keeps {l : List Part} {s x : State} {u : Fin 8} (h : OnlyIn l s x) (hl : Covers [.pump] l) :
    OnlyIn l s (pumpIdle u x) := by
  unfold pumpIdle
  repeat' (first | with_reducible assumption | with_reducible apply modPump_keeps | exact hl.sub (by decide) | with_reducible refine fst_keeps (by assumption) ?_ | intro _ _ _ | dsimp only | split)

theorem hostCompletion_keeps {l : List Part} {s x : State} {u : Fin 8} {r : HostRead} (h : OnlyIn l s x) (hl : Covers [.pump] l) :
    OnlyIn l s (hostCompletion u r x) := by
  unfold hostCompletion
  repeat' (first | with_reducible assumption | with_reducible apply failDesc_keeps | with_reducible apply takeDesc_keeps | with_reducible apply modPump_keeps | exact hl.sub (by decide) | with_reducible refine fst_keeps (by assumption) ?_ | intro _ _ _ | dsimp only | split)

theorem upLost_keeps {l : List Part} {s x : State}  (h : OnlyIn l s x) (hl : Covers [.dom, .tb, .link] l) :
    OnlyIn l s (upLost  x) := by
  unfold upLost
  repeat' (first | with_reducible assumption | with_reducible apply modTb_keeps | with_reducible apply modDom_keeps | with_reducible apply modLink_keeps | exact hl.sub (by decide) | with_reducible refine fst_keeps (by assumption) ?_ | intro _ _ _ | dsimp only | split)

theorem leaveUp_keeps {l : List Part} {s x : State} {k : Fin 4} {st : PortState} {cause : BitVec 2} (h : OnlyIn l s x) (hl : Covers [.dom, .tb, .link] l) :
    OnlyIn l s (leaveUp k st cause x) := by
  unfold leaveUp
  repeat' (first | with_reducible assumption | with_reducible apply portTo_keeps | with_reducible apply upLost_keeps | with_reducible apply dropQueue_keeps | exact hl.sub (by decide) | with_reducible refine fst_keeps (by assumption) ?_ | intro _ _ _ | dsimp only | split)

theorem portDown_keeps {l : List Part} {s x : State} {k : Fin 4} {st : PortState} {cause : BitVec 2} (h : OnlyIn l s x) (hl : Covers [.dom, .tb, .link] l) :
    OnlyIn l s (portDown k st cause x) := by
  unfold portDown
  repeat' (first | with_reducible assumption | with_reducible apply leaveUp_keeps | with_reducible apply portTo_keeps | exact hl.sub (by decide) | with_reducible refine fst_keeps (by assumption) ?_ | intro _ _ _ | dsimp only | split)

theorem writeLinkCfg_keeps {l : List Part} {s x : State} {v : Word} (h : OnlyIn l s x) (hl : Covers [.dom, .tb, .link] l) :
    OnlyIn l s (writeLinkCfg v x) := by
  unfold writeLinkCfg
  repeat' (first | with_reducible assumption | with_reducible apply portDown_keeps | with_reducible apply portTo_keeps | with_reducible apply forAll_keeps | with_reducible apply modLink_keeps | exact hl.sub (by decide) | with_reducible refine fst_keeps (by assumption) ?_ | intro _ _ _ | dsimp only | split)

theorem trainingStart_keeps {l : List Part} {s x : State} {k : Fin 4} (h : OnlyIn l s x) (hl : Covers [.link] l) :
    OnlyIn l s (trainingStart k x) := by
  unfold trainingStart
  repeat' (first | with_reducible assumption | with_reducible apply portTo_keeps | exact hl.sub (by decide) | with_reducible refine fst_keeps (by assumption) ?_ | intro _ _ _ | dsimp only | split)

theorem observeNow_keeps {l : List Part} {s x : State}  (h : OnlyIn l s x) (hl : Covers [.dom, .pin, .pins, .link, .rcd] l) :
    OnlyIn l s (observeNow  x) := by
  unfold observeNow
  repeat' (first | with_reducible assumption | with_reducible apply modLink_keeps | with_reducible apply setObserve_keeps | exact hl.sub (by decide) | with_reducible refine fst_keeps (by assumption) ?_ | intro _ _ _ | dsimp only | split)

theorem upJoins_keeps {l : List Part} {s x : State}  (h : OnlyIn l s x) (hl : Covers [.dom, .tb, .pin, .pins, .link, .rcd] l) :
    OnlyIn l s (upJoins  x) := by
  unfold upJoins
  repeat' (first | with_reducible assumption | with_reducible apply modTb_keeps | with_reducible apply observeNow_keeps | with_reducible apply modLink_keeps | exact hl.sub (by decide) | with_reducible refine fst_keeps (by assumption) ?_ | intro _ _ _ | dsimp only | split)

theorem portUp_keeps {l : List Part} {s x : State} {k : Fin 4} {good : Bool} {partnerUp : Bool} {pv : BitVec 2} (h : OnlyIn l s x) (hl : Covers [.dom, .tb, .pin, .pins, .link, .rcd] l) :
    OnlyIn l s (portUp k good partnerUp pv x) := by
  unfold portUp
  repeat' (first | with_reducible assumption | with_reducible apply upJoins_keeps | with_reducible apply portTo_keeps | exact hl.sub (by decide) | with_reducible refine fst_keeps (by assumption) ?_ | intro _ _ _ | dsimp only | split)

theorem timeFault_keeps {l : List Part} {s x : State}  (h : OnlyIn l s x) (hl : Covers [.dom, .ch, .te, .wt, .pin, .pins, .link, .job, .rcd, .calm] l) :
    OnlyIn l s (timeFault  x) := by
  unfold timeFault
  repeat' (first | with_reducible assumption | with_reducible apply commitDue_keeps | with_reducible apply forAll_keeps | with_reducible apply enterLost_keeps | with_reducible apply modLink_keeps | with_reducible apply raiseFault_keeps | exact hl.sub (by decide) | with_reducible refine fst_keeps (by assumption) ?_ | intro _ _ _ | dsimp only | split)

theorem askStep_keeps {l : List Part} {s x : State} {theta : Int} (h : OnlyIn l s x) (hl : Covers [.dom, .pin, .pins, .link, .rcd] l) :
    OnlyIn l s (askStep theta x) := by
  unfold askStep
  repeat' (first | with_reducible assumption | with_reducible apply observeNow_keeps | with_reducible apply modLink_keeps | exact hl.sub (by decide) | with_reducible refine fst_keeps (by assumption) ?_ | intro _ _ _ | dsimp only | split)

theorem measured_keeps {l : List Part} {s x : State} {r1 : Int} {r2 : Int} {parentValid : Bool} (h : OnlyIn l s x) (hl : Covers [.dom, .pin, .pins, .link, .rcd] l) :
    OnlyIn l s (measured r1 r2 parentValid x) := by
  unfold measured
  repeat' (first | with_reducible assumption | with_reducible apply askStep_keeps | with_reducible apply modLink_keeps | exact hl.sub (by decide) | with_reducible refine fst_keeps (by assumption) ?_ | intro _ _ _ | dsimp only | split)

theorem measure_keeps {l : List Part} {s x : State} {r1 : Int} {r2 : Option Int} {parentValid : Bool} (h : OnlyIn l s x) (hl : Covers [.dom, .ch, .te, .wt, .pin, .pins, .link, .job, .rcd, .calm] l) :
    OnlyIn l s (measure r1 r2 parentValid x) := by
  unfold measure
  repeat' (first | with_reducible assumption | with_reducible apply timeFault_keeps | with_reducible apply measured_keeps | with_reducible apply modLink_keeps | exact hl.sub (by decide) | with_reducible refine fst_keeps (by assumption) ?_ | intro _ _ _ | dsimp only | split)

theorem compareDigest_keeps {l : List Part} {s x : State} {c : DownCtl} (h : OnlyIn l s x) (hl : Covers [.link] l) :
    OnlyIn l s (compareDigest c x) := by
  unfold compareDigest
  repeat' (first | with_reducible assumption | with_reducible apply modLink_keeps | exact hl.sub (by decide) | with_reducible refine fst_keeps (by assumption) ?_ | intro _ _ _ | dsimp only | split)

theorem heedRoot_keeps {l : List Part} {s x : State} {c : DownCtl} (h : OnlyIn l s x) (hl : Covers [.dom, .link] l) :
    OnlyIn l s (heedRoot c x) := by
  unfold heedRoot
  repeat' (first | with_reducible assumption | with_reducible apply modDom_keeps | with_reducible apply modLink_keeps | exact hl.sub (by decide) | with_reducible refine fst_keeps (by assumption) ?_ | intro _ _ _ | dsimp only | split)

theorem followTooth_keeps {l : List Part} {s x : State} {t : Fin 4} {v : WheelSlot} {changes : List (TrkState × TrkState × Nat)} (h : OnlyIn l s x) (hl : Covers [.ch, .te, .wt, .rcd] l) :
    OnlyIn l s (followTooth t v changes x) := by
  unfold followTooth
  repeat' (first | with_reducible assumption | with_reducible apply modWt_keeps | with_reducible apply publish_keeps | with_reducible apply commitDue_keeps | with_reducible apply recordTooth_keeps | exact hl.sub (by decide) | with_reducible refine fst_keeps (by assumption) ?_ | intro _ _ _ | dsimp only | split)

theorem followEnter_keeps {l : List Part} {s x : State} {t : Fin 4} {st : TrkState} (h : OnlyIn l s x) (hl : Covers [.wt] l) :
    OnlyIn l s (followEnter t st x) := by
  unfold followEnter
  repeat' (first | with_reducible assumption | with_reducible apply modWt_keeps | with_reducible apply showTrk_keeps | exact hl.sub (by decide) | with_reducible refine fst_keeps (by assumption) ?_ | intro _ _ _ | dsimp only | split)

theorem followSlot_keeps {l : List Part} {s x : State} {t : Fin 4} {v : WheelSlot} (h : OnlyIn l s x) (hl : Covers [.dom, .ch, .te, .wt, .pin, .pins, .job, .rcd, .calm] l) :
    OnlyIn l s (followSlot t v x) := by
  unfold followSlot
  repeat' (first | with_reducible assumption | with_reducible apply modWt_keeps | with_reducible apply commitDue_keeps | with_reducible apply followTooth_keeps | with_reducible apply enterLost_keeps | with_reducible apply followEnter_keeps | exact hl.sub (by decide) | with_reducible refine fst_keeps (by assumption) ?_ | intro _ _ _ | dsimp only | split)

theorem actSlot_keeps {l : List Part} {s x : State} {w : Fin 16} {v : WheelSlot} (h : OnlyIn l s x) (hl : Covers [.dom, .ch, .te, .wt, .pin, .pins, .job, .rcd, .calm] l) :
    OnlyIn l s (actSlot w v x) := by
  unfold actSlot
  repeat' (first | with_reducible assumption | with_reducible apply recordIn_keeps | with_reducible apply forAll_keeps | with_reducible apply followSlot_keeps | exact hl.sub (by decide) | with_reducible refine fst_keeps (by assumption) ?_ | intro _ _ _ | dsimp only | split)

theorem takePath_keeps {l : List Part} {s x : State} {p : BitVec 20} (h : OnlyIn l s x) (hl : Covers [.dom, .tb, .link] l) :
    OnlyIn l s (takePath p x) := by
  unfold takePath
  repeat' (first | with_reducible assumption | with_reducible apply modLink_keeps | with_reducible apply leaveUp_keeps | with_reducible apply forAll_keeps | exact hl.sub (by decide) | with_reducible refine fst_keeps (by assumption) ?_ | intro _ _ _ | dsimp only | split)

theorem actContents_keeps {l : List Part} {s x : State} {k : Fin 4} {f : LinkFrame} (h : OnlyIn l s x) (hl : Covers [.dom, .tb, .ch, .te, .wt, .pin, .pins, .link, .job, .rcd, .calm] l) :
    OnlyIn l s (actContents k f x) := by
  unfold actContents
  repeat' (first | with_reducible assumption | with_reducible apply compareDigest_keeps | with_reducible apply takePath_keeps | with_reducible apply forAll_keeps | with_reducible apply heedRoot_keeps | with_reducible apply measure_keeps | with_reducible apply actSlot_keeps | with_reducible apply forwardMsg_keeps | with_reducible apply deliverMsg_keeps | with_reducible apply foldl_keeps | exact hl.sub (by decide) | with_reducible refine fst_keeps (by assumption) ?_ | intro _ _ _ | dsimp only | split)

theorem followers_keeps {l : List Part} {s x : State}  (h : OnlyIn l s x) (hl : Covers [.dom, .ch, .te, .wt, .pin, .pins, .link, .job, .rcd, .calm] l) :
    OnlyIn l s (followers  x) := by
  unfold followers
  repeat' (first | with_reducible assumption | with_reducible apply commitDue_keeps | with_reducible apply forAll_keeps | with_reducible apply enterLost_keeps | with_reducible apply modLink_keeps | exact hl.sub (by decide) | with_reducible refine fst_keeps (by assumption) ?_ | intro _ _ _ | dsimp only | split)

theorem leaveObserve_keeps {l : List Part} {s x : State}  (h : OnlyIn l s x) (hl : Covers [.dom, .ch, .te, .wt, .pin, .pins, .link, .job, .rcd, .sys] l) :
    OnlyIn l s (leaveObserve  x) := by
  unfold leaveObserve
  repeat' (first | with_reducible assumption | with_reducible apply setObserve_keeps | with_reducible apply modDom_keeps | with_reducible apply moveDomain_keeps | with_reducible apply modLink_keeps | exact hl.sub (by decide) | with_reducible refine fst_keeps (by assumption) ?_ | intro _ _ _ | dsimp only | split)

theorem joinBoundary_keeps {l : List Part} {s x : State}  (h : OnlyIn l s x) (hl : Covers [.dom, .ch, .te, .wt, .pin, .pins, .link, .job, .rcd, .sys] l) :
    OnlyIn l s (joinBoundary  x) := by
  unfold joinBoundary
  repeat' (first | with_reducible assumption | with_reducible apply modLink_keeps | with_reducible apply leaveObserve_keeps | exact hl.sub (by decide) | with_reducible refine fst_keeps (by assumption) ?_ | intro _ _ _ | dsimp only | split)

theorem countMissed_keeps {l : List Part} {s x : State}  (h : OnlyIn l s x) (hl : Covers [.dom, .tb, .link] l) :
    OnlyIn l s (countMissed  x) := by
  unfold countMissed
  repeat' (first | with_reducible assumption | with_reducible apply leaveUp_keeps | with_reducible apply forAll_keeps | with_reducible apply modPort_keeps | with_reducible apply modLink_keeps | exact hl.sub (by decide) | with_reducible refine fst_keeps (by assumption) ?_ | intro _ _ _ | dsimp only | split)

theorem linkBoundary_keeps {l : List Part} {s x : State}  (h : OnlyIn l s x) (hl : Covers [.later, .dom, .tb, .ch, .te, .wt, .pin, .pins, .link, .job, .rcd, .sys, .calm] l) :
    OnlyIn l s (linkBoundary  x) := by
  unfold linkBoundary
  repeat' (first | with_reducible assumption | with_reducible apply countMissed_keeps | with_reducible apply modWt_keeps | with_reducible apply followers_keeps | with_reducible apply forAll_keeps | with_reducible apply defer_keeps | with_reducible apply joinBoundary_keeps | with_reducible apply modLink_keeps | with_reducible apply modPort_keeps | exact hl.sub (by decide) | with_reducible refine fst_keeps (by assumption) ?_ | intro _ _ _ | dsimp only | split)

theorem linkAnswer_keeps {l : List Part} {s x : State} {st : CmdStatus} (h : OnlyIn l s x) (hl : Covers [.link] l) :
    OnlyIn l s (linkAnswer st x) := by
  unfold linkAnswer
  repeat' (first | with_reducible assumption | with_reducible apply modLink_keeps | with_reducible apply refuse_keeps | exact hl.sub (by decide) | with_reducible refine fst_keeps (by assumption) ?_ | intro _ _ _ | dsimp only | split)

theorem linkCommit_keeps {l : List Part} {s x : State}  (h : OnlyIn l s x) (hl : Covers [.link, .calm] l) :
    OnlyIn l s (linkCommit  x) := by
  unfold linkCommit
  repeat' (first | with_reducible assumption | with_reducible apply linkAnswer_keeps | with_reducible apply modCalm_keeps | with_reducible apply modLink_keeps | exact hl.sub (by decide) | with_reducible refine fst_keeps (by assumption) ?_ | intro _ _ _ | dsimp only | split)

theorem linkSend_keeps {l : List Part} {s x : State}  (h : OnlyIn l s x) (hl : Covers [.link] l) :
    OnlyIn l s (linkSend  x) := by
  unfold linkSend
  repeat' (first | with_reducible assumption | with_reducible apply modLink_keeps | with_reducible apply linkAnswer_keeps | exact hl.sub (by decide) | with_reducible refine fst_keeps (by assumption) ?_ | intro _ _ _ | dsimp only | split)

theorem linkRxpop_keeps {l : List Part} {s x : State}  (h : OnlyIn l s x) (hl : Covers [.link] l) :
    OnlyIn l s (linkRxpop  x) := by
  unfold linkRxpop
  repeat' (first | with_reducible assumption | with_reducible apply modLink_keeps | with_reducible apply linkAnswer_keeps | exact hl.sub (by decide) | with_reducible refine fst_keeps (by assumption) ?_ | intro _ _ _ | dsimp only | split)

theorem recLevel_keeps {l : List Part} {s x : State} {f : Recorder → Recorder} (h : OnlyIn l s x) (hl : Covers [.rcd] l) :
    OnlyIn l s (recLevel f x) := by
  unfold recLevel
  repeat' (first | with_reducible assumption | with_reducible apply pulse_keeps | with_reducible apply modRcd_keeps | exact hl.sub (by decide) | with_reducible refine fst_keeps (by assumption) ?_ | intro _ _ _ | dsimp only | split)

theorem recAnswer_keeps {l : List Part} {s x : State} {st : CmdStatus} (h : OnlyIn l s x) (hl : Covers [.rcd] l) :
    OnlyIn l s (recAnswer st x) := by
  unfold recAnswer
  repeat' (first | with_reducible assumption | with_reducible apply modRcd_keeps | with_reducible apply refuse_keeps | exact hl.sub (by decide) | with_reducible refine fst_keeps (by assumption) ?_ | intro _ _ _ | dsimp only | split)

theorem recStart_keeps {l : List Part} {s x : State}  (h : OnlyIn l s x) (hl : Covers [.rcd, .sys] l) :
    OnlyIn l s (recStart  x) := by
  unfold recStart
  repeat' (first | with_reducible assumption | with_reducible apply endDoze_keeps | with_reducible apply recAnswer_keeps | with_reducible apply modRcd_keeps | exact hl.sub (by decide) | with_reducible refine fst_keeps (by assumption) ?_ | intro _ _ _ | dsimp only | split)

theorem timeRecord_keeps {l : List Part} {s x : State}  (h : OnlyIn l s x) (hl : Covers [.rcd] l) :
    OnlyIn l s (timeRecord  x) := by
  unfold timeRecord
  repeat' (first | with_reducible assumption | with_reducible apply modRcd_keeps | exact hl.sub (by decide) | with_reducible refine fst_keeps (by assumption) ?_ | intro _ _ _ | dsimp only | split)

theorem recordingBegin_keeps {l : List Part} {s x : State}  (h : OnlyIn l s x) (hl : Covers [.rcd] l) :
    OnlyIn l s (recordingBegin  x) := by
  unfold recordingBegin
  repeat' (first | with_reducible assumption | with_reducible apply modRcd_keeps | with_reducible apply timeRecord_keeps | exact hl.sub (by decide) | with_reducible refine fst_keeps (by assumption) ?_ | intro _ _ _ | dsimp only | split)

theorem unhold_keeps {l : List Part} {s x : State} {p : Fin 288} (h : OnlyIn l s x) (hl : Covers [.pin, .pins, .rcd] l) :
    OnlyIn l s (unhold p x) := by
  unfold unhold
  repeat' (first | with_reducible assumption | with_reducible apply refreshPin_keeps | with_reducible apply modPin_keeps | exact hl.sub (by decide) | with_reducible refine fst_keeps (by assumption) ?_ | intro _ _ _ | dsimp only | split)

theorem endReplay_keeps {l : List Part} {s x : State}  (h : OnlyIn l s x) (hl : Covers [.pin, .pins, .rcd] l) :
    OnlyIn l s (endReplay  x) := by
  unfold endReplay
  repeat' (first | with_reducible assumption | with_reducible apply unhold_keeps | with_reducible apply forAll_keeps | with_reducible apply modRcd_keeps | exact hl.sub (by decide) | with_reducible refine fst_keeps (by assumption) ?_ | intro _ _ _ | dsimp only | split)

theorem recStop_keeps {l : List Part} {s x : State}  (h : OnlyIn l s x) (hl : Covers [.pin, .pins, .rcd] l) :
    OnlyIn l s (recStop  x) := by
  unfold recStop
  repeat' (first | with_reducible assumption | with_reducible apply endReplay_keeps | with_reducible apply recAnswer_keeps | with_reducible apply modRcd_keeps | exact hl.sub (by decide) | with_reducible refine fst_keeps (by assumption) ?_ | intro _ _ _ | dsimp only | split)

theorem recFreeze_keeps {l : List Part} {s x : State}  (h : OnlyIn l s x) (hl : Covers [.rcd] l) :
    OnlyIn l s (recFreeze  x) := by
  unfold recFreeze
  repeat' (first | with_reducible assumption | with_reducible apply recAnswer_keeps | with_reducible apply modRcd_keeps | exact hl.sub (by decide) | with_reducible refine fst_keeps (by assumption) ?_ | intro _ _ _ | dsimp only | split)

theorem postCountDone_keeps {l : List Part} {s x : State}  (h : OnlyIn l s x) (hl : Covers [.rcd] l) :
    OnlyIn l s (postCountDone  x) := by
  unfold postCountDone
  repeat' (first | with_reducible assumption | with_reducible apply modRcd_keeps | exact hl.sub (by decide) | with_reducible refine fst_keeps (by assumption) ?_ | intro _ _ _ | dsimp only | split)

theorem writeHead_keeps {l : List Part} {s x : State}  (h : OnlyIn l s x) (hl : Covers [.cis, .rcd] l) :
    OnlyIn l s (writeHead  x) := by
  unfold writeHead
  repeat' (first | with_reducible assumption | with_reducible apply enqueue_keeps | with_reducible apply recLevel_keeps | exact hl.sub (by decide) | with_reducible refine fst_keeps (by assumption) ?_ | intro _ _ _ | dsimp only | split)

theorem drainEnd_keeps {l : List Part} {s x : State}  (h : OnlyIn l s x) (hl : Covers [.rcd] l) :
    OnlyIn l s (drainEnd  x) := by
  unfold drainEnd
  repeat' (first | with_reducible assumption | with_reducible apply pulse_keeps | with_reducible apply modRcd_keeps | exact hl.sub (by decide) | with_reducible refine fst_keeps (by assumption) ?_ | intro _ _ _ | dsimp only | split)

theorem recReplay_keeps {l : List Part} {s x : State}  (h : OnlyIn l s x) (hl : Covers [.rcd] l) :
    OnlyIn l s (recReplay  x) := by
  unfold recReplay
  repeat' (first | with_reducible assumption | with_reducible apply recAnswer_keeps | with_reducible apply modRcd_keeps | exact hl.sub (by decide) | with_reducible refine fst_keeps (by assumption) ?_ | intro _ _ _ | dsimp only | split)

theorem rpqAppend_keeps {l : List Part} {s x : State} {v : Word} (h : OnlyIn l s x) (hl : Covers [.rcd] l) :
    OnlyIn l s (rpqAppend v x) := by
  unfold rpqAppend
  repeat' (first | with_reducible assumption | with_reducible apply modRcd_keeps | exact hl.sub (by decide) | with_reducible refine fst_keeps (by assumption) ?_ | intro _ _ _ | dsimp only | split)

theorem diverge_keeps {l : List Part} {s x : State} {kind : Nat} {x0 : Record} {t : Stamp} (h : OnlyIn l s x) (hl : Covers [.pin, .pins, .rcd] l) :
    OnlyIn l s (diverge kind x0 t x) := by
  unfold diverge
  repeat' (first | with_reducible assumption | with_reducible apply modRcd_keeps | with_reducible apply endReplay_keeps | exact hl.sub (by decide) | with_reducible refine fst_keeps (by assumption) ?_ | intro _ _ _ | dsimp only | split)

theorem replayQueueMove_keeps {l : List Part} {s x : State}  (h : OnlyIn l s x) (hl : Covers [.pin, .pins, .rcd] l) :
    OnlyIn l s (replayQueueMove  x) := by
  unfold replayQueueMove
  repeat' (first | with_reducible assumption | with_reducible apply diverge_keeps | with_reducible apply modRcd_keeps | exact hl.sub (by decide) | with_reducible refine fst_keeps (by assumption) ?_ | intro _ _ _ | dsimp only | split)

theorem extraDiverges_keeps {l : List Part} {s x : State} {q : Record × Stamp × Nat} (h : OnlyIn l s x) (hl : Covers [.pin, .pins, .rcd] l) :
    OnlyIn l s (extraDiverges q x) := by
  unfold extraDiverges
  repeat' (first | with_reducible assumption | with_reducible apply diverge_keeps | with_reducible apply modRcd_keeps | exact hl.sub (by decide) | with_reducible refine fst_keeps (by assumption) ?_ | intro _ _ _ | dsimp only | split)

theorem missingDiverges_keeps {l : List Part} {s x : State} {q : Record × Stamp} (h : OnlyIn l s x) (hl : Covers [.pin, .pins, .rcd] l) :
    OnlyIn l s (missingDiverges q x) := by
  unfold missingDiverges
  repeat' (first | with_reducible assumption | with_reducible apply diverge_keeps | with_reducible apply modRcd_keeps | exact hl.sub (by decide) | with_reducible refine fst_keeps (by assumption) ?_ | intro _ _ _ | dsimp only | split)

theorem sourcesAtReset_keeps {l : List Part} {s x : State}  (h : OnlyIn l s x) (hl : Covers [.ic] l) :
    OnlyIn l s (sourcesAtReset  x) := by
  unfold sourcesAtReset
  repeat' (first | with_reducible assumption | with_reducible apply keeps_ic | exact hl.sub (by decide) | with_reducible refine fst_keeps (by assumption) ?_ | intro _ _ _ | dsimp only | split)

theorem startClock_keeps {l : List Part} {s x : State}  (h : OnlyIn l s x) (hl : Covers [.tb] l) :
    OnlyIn l s (startClock  x) := by
  unfold startClock
  repeat' (first | with_reducible assumption | with_reducible apply modTb_keeps | exact hl.sub (by decide) | with_reducible refine fst_keeps (by assumption) ?_ | intro _ _ _ | dsimp only | split)

theorem pllLock_keeps {l : List Part} {s x : State}  (h : OnlyIn l s x) (hl : Covers [.tb, .sys] l) :
    OnlyIn l s (pllLock  x) := by
  unfold pllLock
  repeat' (first | with_reducible assumption | with_reducible apply modSys_keeps | with_reducible apply startClock_keeps | exact hl.sub (by decide) | with_reducible refine fst_keeps (by assumption) ?_ | intro _ _ _ | dsimp only | split)

theorem norefStart_keeps {l : List Part} {s x : State}  (h : OnlyIn l s x) (hl : Covers [.tb, .sys] l) :
    OnlyIn l s (norefStart  x) := by
  unfold norefStart
  repeat' (first | with_reducible assumption | with_reducible apply modSys_keeps | with_reducible apply startClock_keeps | exact hl.sub (by decide) | with_reducible refine fst_keeps (by assumption) ?_ | intro _ _ _ | dsimp only | split)

theorem bootRelease_keeps {l : List Part} {s x : State}  (h : OnlyIn l s x) (hl : Covers [.sys] l) :
    OnlyIn l s (bootRelease  x) := by
  unfold bootRelease
  repeat' (first | with_reducible assumption | with_reducible apply modSys_keeps | exact hl.sub (by decide) | with_reducible refine fst_keeps (by assumption) ?_ | intro _ _ _ | dsimp only | split)

theorem setDstate_keeps {l : List Part} {s x : State} {d : BitVec 2} (h : OnlyIn l s x) (hl : Covers [.sys] l) :
    OnlyIn l s (setDstate d x) := by
  unfold setDstate
  repeat' (first | with_reducible assumption | with_reducible apply modSys_keeps | exact hl.sub (by decide) | with_reducible refine fst_keeps (by assumption) ?_ | intro _ _ _ | dsimp only | split)

theorem modFn_keeps {l : List Part} {s x : State} {g : PciFn → PciFn} (h : OnlyIn l s x) (hl : Covers [.sys] l) :
    OnlyIn l s (modFn g x) := by
  unfold modFn
  repeat' (first | with_reducible assumption | with_reducible apply modSys_keeps | exact hl.sub (by decide) | with_reducible refine fst_keeps (by assumption) ?_ | intro _ _ _ | dsimp only | split)

theorem dlUp_keeps {l : List Part} {s x : State} {width : BitVec 4} {speed : BitVec 4} (h : OnlyIn l s x) (hl : Covers [.sys] l) :
    OnlyIn l s (dlUp width speed x) := by
  unfold dlUp
  repeat' (first | with_reducible assumption | with_reducible apply modSys_keeps | exact hl.sub (by decide) | with_reducible refine fst_keeps (by assumption) ?_ | intro _ _ _ | dsimp only | split)

theorem pwrAnswer_keeps {l : List Part} {s x : State} {st : CmdStatus} (h : OnlyIn l s x) (hl : Covers [.sys] l) :
    OnlyIn l s (pwrAnswer st x) := by
  unfold pwrAnswer
  repeat' (first | with_reducible assumption | with_reducible apply modSys_keeps | with_reducible apply refuse_keeps | exact hl.sub (by decide) | with_reducible refine fst_keeps (by assumption) ?_ | intro _ _ _ | dsimp only | split)

theorem sleepAborted_keeps {l : List Part} {s x : State}  (h : OnlyIn l s x) (hl : Covers [.sys, .calm] l) :
    OnlyIn l s (sleepAborted  x) := by
  unfold sleepAborted
  repeat' (first | with_reducible assumption | with_reducible apply modSys_keeps | with_reducible apply modCalm_keeps | exact hl.sub (by decide) | with_reducible refine fst_keeps (by assumption) ?_ | intro _ _ _ | dsimp only | split)

theorem enterSleep_keeps {l : List Part} {s x : State}  (h : OnlyIn l s x) (hl : Covers [.later, .pins, .sys] l) :
    OnlyIn l s (enterSleep  x) := by
  unfold enterSleep
  repeat' (first | with_reducible assumption | with_reducible apply matrixTo_keeps | with_reducible apply modSys_keeps | with_reducible apply defer_keeps | exact hl.sub (by decide) | with_reducible refine fst_keeps (by assumption) ?_ | intro _ _ _ | dsimp only | split)

theorem sleepRequest_keeps {l : List Part} {s x : State} {deep : Bool} (h : OnlyIn l s x) (hl : Covers [.later, .pins, .sys, .calm] l) :
    OnlyIn l s (sleepRequest deep x) := by
  unfold sleepRequest
  repeat' (first | with_reducible assumption | with_reducible apply sleepAborted_keeps | with_reducible apply enterSleep_keeps | with_reducible apply modSys_keeps | with_reducible apply pwrAnswer_keeps | exact hl.sub (by decide) | with_reducible refine fst_keeps (by assumption) ?_ | intro _ _ _ | dsimp only | split)

theorem leaveDoze_keeps {l : List Part} {s x : State}  (h : OnlyIn l s x) (hl : Covers [.sys] l) :
    OnlyIn l s (leaveDoze  x) := by
  unfold leaveDoze
  repeat' (first | with_reducible assumption | with_reducible apply modSys_keeps | exact hl.sub (by decide) | with_reducible refine fst_keeps (by assumption) ?_ | intro _ _ _ | dsimp only | split)

theorem wakeCommand_keeps {l : List Part} {s x : State}  (h : OnlyIn l s x) (hl : Covers [.sys] l) :
    OnlyIn l s (wakeCommand  x) := by
  unfold wakeCommand
  repeat' (first | with_reducible assumption | with_reducible apply leaveDoze_keeps | with_reducible apply pwrAnswer_keeps | exact hl.sub (by decide) | with_reducible refine fst_keeps (by assumption) ?_ | intro _ _ _ | dsimp only | split)

theorem resetCommand_keeps {l : List Part} {s x : State} {key : BitVec 8} (h : OnlyIn l s x) (hl : Covers [.sys] l) :
    OnlyIn l s (resetCommand key x) := by
  unfold resetCommand
  repeat' (first | with_reducible assumption | with_reducible apply modSys_keeps | with_reducible apply pwrAnswer_keeps | exact hl.sub (by decide) | with_reducible refine fst_keeps (by assumption) ?_ | intro _ _ _ | dsimp only | split)

theorem enterL23_keeps {l : List Part} {s x : State}  (h : OnlyIn l s x) (hl : Covers [.later, .pins, .sys, .calm] l) :
    OnlyIn l s (enterL23  x) := by
  unfold enterL23
  repeat' (first | with_reducible assumption | with_reducible apply modSys_keeps | with_reducible apply sleepRequest_keeps | exact hl.sub (by decide) | with_reducible refine fst_keeps (by assumption) ?_ | intro _ _ _ | dsimp only | split)

theorem vkeepLoss_keeps {l : List Part} {s x : State}  (h : OnlyIn l s x) (hl : Covers [.sys] l) :
    OnlyIn l s (vkeepLoss  x) := by
  unfold vkeepLoss
  repeat' (first | with_reducible assumption | with_reducible apply modSys_keeps | exact hl.sub (by decide) | with_reducible refine fst_keeps (by assumption) ?_ | intro _ _ _ | dsimp only | split)

theorem vanaChange_keeps {l : List Part} {s x : State} {ok : Bool} (h : OnlyIn l s x) (hl : Covers [.sys] l) :
    OnlyIn l s (vanaChange ok x) := by
  unfold vanaChange
  repeat' (first | with_reducible assumption | with_reducible apply modSys_keeps | exact hl.sub (by decide) | with_reducible refine fst_keeps (by assumption) ?_ | intro _ _ _ | dsimp only | split)

theorem pumpHostLoss_keeps {l : List Part} {s x : State} {u : Fin 8} (h : OnlyIn l s x) (hl : Covers [.pump] l) :
    OnlyIn l s (pumpHostLoss u x) := by
  unfold pumpHostLoss
  repeat' (first | with_reducible assumption | with_reducible apply failDesc_keeps | with_reducible apply modPump_keeps | exact hl.sub (by decide) | with_reducible refine fst_keeps (by assumption) ?_ | intro _ _ _ | dsimp only | split)

theorem clearStaging_keeps {l : List Part} {s x : State}  (h : OnlyIn l s x) (hl : Covers [.ch, .te, .well, .job] l) :
    OnlyIn l s (clearStaging  x) := by
  unfold clearStaging
  repeat' (first | with_reducible assumption | with_reducible apply keeps_ch | with_reducible apply keeps_job | with_reducible apply keeps_te | with_reducible apply keeps_well | exact hl.sub (by decide) | exact OnlyIn.step (by assumption) (by intro p hp; cases p <;> first | rfl | exact IcKept.refl _ | exact absurd (hl _ (by decide)) hp) | with_reducible refine fst_keeps (by assumption) ?_ | intro _ _ _ | dsimp only | split)

theorem calibrateAll_keeps {l : List Part} {s x : State} {l0 : List Int} (h : OnlyIn l s x) (hl : Covers [.pins] l) :
    OnlyIn l s (calibrateAll l0 x) := by
  unfold calibrateAll
  repeat' (first | with_reducible assumption | with_reducible apply modPins_keeps | with_reducible apply foldl_keeps | exact hl.sub (by decide) | with_reducible refine fst_keeps (by assumption) ?_ | intro _ _ _ | dsimp only | split)

theorem engineFrames_keeps {l : List Part} {s x : State}  (h : OnlyIn l s x) (hl : Covers [.te] l) :
    OnlyIn l s (engineFrames  x) := by
  unfold engineFrames
  repeat' (first | with_reducible assumption | with_reducible apply keeps_te | exact hl.sub (by decide) | with_reducible refine fst_keeps (by assumption) ?_ | intro _ _ _ | dsimp only | split)

theorem icFrames_keeps {l : List Part} {s x : State}  (h : OnlyIn l s x) (hl : Covers [.ic] l) :
    OnlyIn l s (icFrames  x) := by
  unfold icFrames
  repeat' (first | with_reducible assumption | with_reducible apply keeps_ic | exact hl.sub (by decide) | with_reducible refine fst_keeps (by assumption) ?_ | intro _ _ _ | dsimp only | split)

theorem endBcast_keeps {l : List Part} {s x : State}  (h : OnlyIn l s x) (hl : Covers [.dom] l) :
    OnlyIn l s (endBcast  x) := by
  unfold endBcast
  repeat' (first | with_reducible assumption | with_reducible apply modDom_keeps | exact hl.sub (by decide) | with_reducible refine fst_keeps (by assumption) ?_ | intro _ _ _ | dsimp only | split)

theorem plain_keeps {l : List Part} {s x : State} {v : Word} (h : OnlyIn l s x) :
    OnlyIn l s (plain v x).1 := by
  unfold plain
  repeat' (first | with_reducible assumption | with_reducible refine fst_keeps (by assumption) ?_ | intro _ _ _ | dsimp only | split)

theorem readClear_keeps {l : List Part} {s x : State} {v : Word} {f : State → State} (hf : OnlyIn l s (f x)) : OnlyIn l s (readClear v f x).1 := hf

theorem sysRead_keeps {l : List Part} {s x : State} {off : Nat} (h : OnlyIn l s x) (hl : Covers [.dom, .sys] l) :
    OnlyIn l s (sysRead off x).1 := by
  unfold sysRead
  repeat' (first | with_reducible assumption | with_reducible apply modSys_keeps | with_reducible apply modDom_keeps | with_reducible apply readClear_keeps | with_reducible apply plain_keeps | exact hl.sub (by decide) | with_reducible refine fst_keeps (by assumption) ?_ | intro _ _ _ | dsimp only | split)

theorem pwrWrite_keeps {l : List Part} {s x : State} {v : Word} (h : OnlyIn l s x) (hl : Covers [.later, .pins, .sys, .calm] l) :
    OnlyIn l s (pwrWrite v x) := by
  unfold pwrWrite
  repeat' (first | with_reducible assumption | with_reducible apply resetCommand_keeps | with_reducible apply sleepRequest_keeps | with_reducible apply wakeCommand_keeps | with_reducible apply pwrAnswer_keeps | exact hl.sub (by decide) | with_reducible refine fst_keeps (by assumption) ?_ | intro _ _ _ | dsimp only | split)

theorem dcmdWrite_keeps {l : List Part} {s x : State} {v : Word} (h : OnlyIn l s x) (hl : Covers [.dom, .ch, .te, .wt, .pin, .pins, .job, .rcd, .sys] l) :
    OnlyIn l s (dcmdWrite v x) := by
  unfold dcmdWrite
  repeat' (first | with_reducible assumption | with_reducible apply domAnswer_keeps | with_reducible apply domCommand_keeps | exact hl.sub (by decide) | with_reducible refine fst_keeps (by assumption) ?_ | intro _ _ _ | dsimp only | split)

theorem calmWrite_keeps {l : List Part} {s x : State} {off : Nat} {v : Word} (h : OnlyIn l s x) (hl : Covers [.calm] l) :
    OnlyIn l s (calmWrite off v x) := by
  unfold calmWrite
  repeat' (first | with_reducible assumption | with_reducible apply modCalm_keeps | exact hl.sub (by decide) | with_reducible refine fst_keeps (by assumption) ?_ | intro _ _ _ | dsimp only | split)

theorem modSrcOf_keeps {l : List Part} {s x : State} {k : SrcId} {f : Src → Src} (h : OnlyIn l s x) (hl : Covers [.ic] l) :
    OnlyIn l s (modSrcOf k f x) := by
  unfold modSrcOf
  split
  · exact keeps_ic h hl
  · exact modTgt_keeps h hl

theorem srcStatRead_keeps {l : List Part} {s x : State} {k : SrcId} (h : OnlyIn l s x) (hl : Covers [.ic] l) :
    OnlyIn l s (srcStatRead k x).1 := by
  unfold srcStatRead
  repeat' (first | with_reducible assumption | with_reducible apply modSrcOf_keeps | with_reducible apply readClear_keeps | exact hl.sub (by decide) | with_reducible refine fst_keeps (by assumption) ?_ | intro _ _ _ | dsimp only | split)

theorem srcStatWrite_keeps {l : List Part} {s x : State} {k : SrcId} {v : Word} (h : OnlyIn l s x) (hl : Covers [.ic] l) :
    OnlyIn l s (srcStatWrite k v x) := by
  unfold srcStatWrite
  repeat' (first | with_reducible assumption | with_reducible apply modSrcOf_keeps | exact hl.sub (by decide) | with_reducible refine fst_keeps (by assumption) ?_ | intro _ _ _ | dsimp only | split)

theorem classRead_keeps {l : List Part} {s x : State} {h0 : Fin 32} {fast : Bool} {off : Nat} (h : OnlyIn l s x) (hl : Covers [.ic] l) :
    OnlyIn l s (classRead h0 fast off x).1 := by
  unfold classRead
  repeat' (first | with_reducible assumption | with_reducible apply plain_keeps | with_reducible apply claim_keeps | exact hl.sub (by decide) | with_reducible refine fst_keeps (by assumption) ?_ | intro _ _ _ | dsimp only | split)

theorem classWrite_keeps {l : List Part} {s x : State} {h0 : Fin 32} {fast : Bool} {off : Nat} {v : Word} (h : OnlyIn l s x) (hl : Covers [.ic] l) :
    OnlyIn l s (classWrite h0 fast off v x) := by
  unfold classWrite
  repeat' (first | with_reducible assumption | with_reducible apply modTgt_keeps | with_reducible apply complete_keeps | exact hl.sub (by decide) | with_reducible refine fst_keeps (by assumption) ?_ | intro _ _ _ | dsimp only | split)

theorem targetRead_keeps {l : List Part} {s x : State} {h0 : Fin 32} {off : Nat} (h : OnlyIn l s x) (hl : Covers [.ic] l) :
    OnlyIn l s (targetRead h0 off x).1 := by
  unfold targetRead
  repeat' (first | with_reducible assumption | with_reducible apply srcStatRead_keeps | with_reducible apply classRead_keeps | with_reducible apply modTgt_keeps | with_reducible apply readClear_keeps | with_reducible apply plain_keeps | exact hl.sub (by decide) | with_reducible refine fst_keeps (by assumption) ?_ | intro _ _ _ | dsimp only | split)

theorem targetWrite_keeps {l : List Part} {s x : State} {h0 : Fin 32} {off : Nat} {v : Word} (h : OnlyIn l s x) (hl : Covers [.out, .ic, .sys] l) :
    OnlyIn l s (targetWrite h0 off v x) := by
  unfold targetWrite
  repeat' (first | with_reducible assumption | with_reducible apply targetSleep_keeps | with_reducible apply srcStatWrite_keeps | with_reducible apply classWrite_keeps | with_reducible apply modTgt_keeps | with_reducible apply srcCfgWrite_keeps | exact hl.sub (by decide) | with_reducible refine fst_keeps (by assumption) ?_ | intro _ _ _ | dsimp only | split)

theorem icCmdWrite_keeps {l : List Part} {s x : State} {v : Word} (h : OnlyIn l s x) (hl : Covers [.ic] l) :
    OnlyIn l s (icCmdWrite v x) := by
  unfold icCmdWrite
  repeat' (first | with_reducible assumption | with_reducible apply icAnswer_keeps | with_reducible apply unwind_keeps | exact hl.sub (by decide) | with_reducible refine fst_keeps (by assumption) ?_ | intro _ _ _ | dsimp only | split)

theorem tbWrite_keeps {l : List Part} {s x : State} {off : Nat} {v : Word} (h : OnlyIn l s x) (hl : Covers [.tb] l) :
    OnlyIn l s (tbWrite off v x) := by
  unfold tbWrite
  repeat' (first | with_reducible assumption | with_reducible apply modTb_keeps | with_reducible apply tbLoad_keeps | exact hl.sub (by decide) | with_reducible refine fst_keeps (by assumption) ?_ | intro _ _ _ | dsimp only | split)

theorem chCmdWrite_keeps {l : List Part} {s x : State} {n : Fin 256} {v : Word} (h : OnlyIn l s x) (hl : Covers [.later, .dom, .ch, .te, .wt, .pin, .pins, .rcd, .calm] l) :
    OnlyIn l s (chCmdWrite n v x) := by
  unfold chCmdWrite
  repeat' (first | with_reducible assumption | with_reducible apply chAnswer_keeps | with_reducible apply chReload_keeps | with_reducible apply armCompare_keeps | with_reducible apply stopChannel_keeps | with_reducible apply chCommand_keeps | with_reducible apply chStart_keeps | with_reducible apply modCh_keeps | exact hl.sub (by decide) | with_reducible refine fst_keeps (by assumption) ?_ | intro _ _ _ | dsimp only | split)

theorem chWrite_keeps {l : List Part} {s x : State} {p : Port} {n : Fin 256} {off : Nat} {v : Word} (h : OnlyIn l s x) (hl : Covers [.later, .dom, .ch, .te, .wt, .pin, .pins, .rcd, .calm] l) :
    OnlyIn l s (chWrite p n off v x) := by
  unfold chWrite
  repeat' (first | with_reducible assumption | with_reducible apply writeCmp_keeps | with_reducible apply clearStatus_keeps | with_reducible apply chCmdWrite_keeps | with_reducible apply stageTarget_keeps | with_reducible apply writeTop_keeps | with_reducible apply commitTarget_keeps | with_reducible apply writeChIe_keeps | with_reducible apply writeCnt_keeps | with_reducible apply writeChCfg_keeps | with_reducible apply writeFilt_keeps | with_reducible apply modCh_keeps | exact hl.sub (by decide) | with_reducible refine fst_keeps (by assumption) ?_ | intro _ _ _ | dsimp only | split)

theorem teRead_keeps {l : List Part} {s x : State} {e : Fin 16} {off : Nat} (h : OnlyIn l s x) (hl : Covers [.te] l) :
    OnlyIn l s (teRead e off x).1 := by
  unfold teRead
  repeat' (first | with_reducible assumption | with_reducible apply modTe_keeps | with_reducible apply readClear_keeps | with_reducible apply plain_keeps | exact hl.sub (by decide) | with_reducible refine fst_keeps (by assumption) ?_ | intro _ _ _ | dsimp only | split)

theorem teCmdWrite_keeps {l : List Part} {s x : State} {e : Fin 16} {v : Word} (h : OnlyIn l s x) (hl : Covers [.te, .pin, .pins, .rcd, .sys] l) :
    OnlyIn l s (teCmdWrite e v x) := by
  unfold teCmdWrite
  repeat' (first | with_reducible assumption | with_reducible apply teStop_keeps | with_reducible apply teVerify_keeps | with_reducible apply teStart_keeps | with_reducible apply teClear_keeps | with_reducible apply teAnswer_keeps | with_reducible apply teHalt_keeps | exact hl.sub (by decide) | with_reducible refine fst_keeps (by assumption) ?_ | intro _ _ _ | dsimp only | split)

theorem teWrite_keeps {l : List Part} {s x : State} {e : Fin 16} {off : Nat} {v : Word} (h : OnlyIn l s x) (hl : Covers [.te, .pin, .pins, .rcd, .sys] l) :
    OnlyIn l s (teWrite e off v x) := by
  unfold teWrite
  repeat' (first | with_reducible assumption | with_reducible apply doorbell_keeps | with_reducible apply teCmdWrite_keeps | with_reducible apply modTe_keeps | exact hl.sub (by decide) | with_reducible refine fst_keeps (by assumption) ?_ | intro _ _ _ | dsimp only | split)

theorem mcRead_keeps {l : List Part} {s x : State} {e : Fin 16} {off : Nat} (h : OnlyIn l s x) (hl : Covers [.te] l) :
    OnlyIn l s (mcRead e off x).1 := by
  unfold mcRead
  repeat' (first | with_reducible assumption | with_reducible apply windowRead_keeps | exact hl.sub (by decide) | with_reducible refine fst_keeps (by assumption) ?_ | intro _ _ _ | dsimp only | split)

theorem mcWrite_keeps {l : List Part} {s x : State} {p : Port} {e : Fin 16} {off : Nat} {v : Word} (h : OnlyIn l s x) (hl : Covers [.te] l) :
    OnlyIn l s (mcWrite p e off v x) := by
  unfold mcWrite
  repeat' (first | with_reducible assumption | with_reducible apply storeWord_keeps | with_reducible apply stageDword_keeps | exact hl.sub (by decide) | with_reducible refine fst_keeps (by assumption) ?_ | intro _ _ _ | dsimp only | split)

theorem winRead_keeps {l : List Part} {s x : State} {i : Fin 8} {off : Nat} (h : OnlyIn l s x) :
    OnlyIn l s (winRead i off x).1 := by
  unfold winRead
  repeat' (first | with_reducible assumption | with_reducible apply plain_keeps | with_reducible refine fst_keeps (by assumption) ?_ | intro _ _ _ | dsimp only | split)

theorem wtCmdWrite_keeps {l : List Part} {s x : State} {t : Fin 4} {v : Word} (h : OnlyIn l s x) (hl : Covers [.ch, .te, .wt, .pin, .pins, .job, .rcd] l) :
    OnlyIn l s (wtCmdWrite t v x) := by
  unfold wtCmdWrite
  repeat' (first | with_reducible assumption | with_reducible apply wtReseek_keeps | with_reducible apply wtSetrev_keeps | with_reducible apply wtStart_keeps | with_reducible apply wtAnswer_keeps | with_reducible apply wtStop_keeps | exact hl.sub (by decide) | with_reducible refine fst_keeps (by assumption) ?_ | intro _ _ _ | dsimp only | split)

theorem wtStopped_keeps {l : List Part} {s x : State} {t : Fin 4} {f : Trk → Trk} (h : OnlyIn l s x) (hl : Covers [.wt] l) :
    OnlyIn l s (wtStopped t f x) := by
  unfold wtStopped
  repeat' (first | with_reducible assumption | with_reducible apply modWt_keeps | exact hl.sub (by decide) | with_reducible refine fst_keeps (by assumption) ?_ | intro _ _ _ | dsimp only | split)

theorem wtWrite_keeps {l : List Part} {s x : State} {t : Fin 4} {off : Nat} {v : Word} (h : OnlyIn l s x) (hl : Covers [.ch, .te, .wt, .pin, .pins, .job, .rcd] l) :
    OnlyIn l s (wtWrite t off v x) := by
  unfold wtWrite
  repeat' (first | with_reducible assumption | with_reducible apply modWt_keeps | with_reducible apply wtCmdWrite_keeps | with_reducible apply wtStopped_keeps | exact hl.sub (by decide) | with_reducible refine fst_keeps (by assumption) ?_ | intro _ _ _ | dsimp only | split)

theorem evRead_keeps {l : List Part} {s x : State} {t : Fin 4} {off : Nat} (h : OnlyIn l s x) (hl : Covers [.wt] l) :
    OnlyIn l s (evRead t off x).1 := by
  unfold evRead
  repeat' (first | with_reducible assumption | with_reducible apply modWt_keeps | with_reducible apply readClear_keeps | with_reducible apply plain_keeps | exact hl.sub (by decide) | with_reducible refine fst_keeps (by assumption) ?_ | intro _ _ _ | dsimp only | split)

theorem evWrite_keeps {l : List Part} {s x : State} {t : Fin 4} {off : Nat} {v : Word} (h : OnlyIn l s x) (hl : Covers [.later, .ch, .te, .wt] l) :
    OnlyIn l s (evWrite t off v x) := by
  unfold evWrite
  repeat' (first | with_reducible assumption | with_reducible apply modWt_keeps | with_reducible apply defer_keeps | with_reducible apply evCancel_keeps | with_reducible apply evAnswer_keeps | with_reducible apply evFlush_keeps | exact hl.sub (by decide) | with_reducible refine fst_keeps (by assumption) ?_ | intro _ _ _ | dsimp only | split)

theorem wtBlockWrite_keeps {l : List Part} {s x : State} {off : Nat} {v : Word} (h : OnlyIn l s x) (hl : Covers [.later, .ch, .te, .wt, .pin, .pins, .job, .rcd] l) :
    OnlyIn l s (wtBlockWrite off v x) := by
  unfold wtBlockWrite
  repeat' (first | with_reducible assumption | with_reducible apply wtWrite_keeps | with_reducible apply evWrite_keeps | with_reducible apply writeWin_keeps | exact hl.sub (by decide) | with_reducible refine fst_keeps (by assumption) ?_ | intro _ _ _ | dsimp only | split)

theorem seCmdWrite_keeps {l : List Part} {s x : State} {e : Fin 32} {v : Word} (h : OnlyIn l s x) (hl : Covers [.later, .dom, .pin, .pins, .pump, .se, .rcd, .sys, .calm] l) :
    OnlyIn l s (seCmdWrite e v x) := by
  unfold seCmdWrite
  repeat' (first | with_reducible assumption | with_reducible apply engineCommand_keeps | with_reducible apply trigEngine_keeps | with_reducible apply seAnswer_keeps | exact hl.sub (by decide) | with_reducible refine fst_keeps (by assumption) ?_ | intro _ _ _ | dsimp only | split)

theorem guardSet_keeps {l : List Part} {s x : State} {p : Fin 288} {f : Pin → Pin} (h : OnlyIn l s x) (hl : Covers [.later, .pin] l) :
    OnlyIn l s (guardSet p f x) := by
  unfold guardSet
  repeat' (first | with_reducible assumption | with_reducible apply modPin_keeps | with_reducible apply defer_keeps | exact hl.sub (by decide) | with_reducible refine fst_keeps (by assumption) ?_ | intro _ _ _ | dsimp only | split)

theorem guardRead_keeps {l : List Part} {s x : State} {p : Fin 288} {off : Nat} (h : OnlyIn l s x) (hl : Covers [.pin] l) :
    OnlyIn l s (guardRead p off x).1 := by
  unfold guardRead
  repeat' (first | with_reducible assumption | with_reducible apply modPin_keeps | with_reducible apply readClear_keeps | with_reducible apply plain_keeps | exact hl.sub (by decide) | with_reducible refine fst_keeps (by assumption) ?_ | intro _ _ _ | dsimp only | split)

theorem guardWrite_keeps {l : List Part} {s x : State} {p : Fin 288} {off : Nat} {v : Word} (h : OnlyIn l s x) (hl : Covers [.later, .pin] l) :
    OnlyIn l s (guardWrite p off v x) := by
  unfold guardWrite
  repeat' (first | with_reducible assumption | with_reducible apply guardSet_keeps | with_reducible apply modPin_keeps | exact hl.sub (by decide) | with_reducible refine fst_keeps (by assumption) ?_ | intro _ _ _ | dsimp only | split)

theorem guardBlockRead_keeps {l : List Part} {s x : State} {off : Nat} (h : OnlyIn l s x) (hl : Covers [.pin] l) :
    OnlyIn l s (guardBlockRead off x).1 := by
  unfold guardBlockRead
  repeat' (first | with_reducible assumption | with_reducible apply plain_keeps | with_reducible apply guardRead_keeps | exact hl.sub (by decide) | with_reducible refine fst_keeps (by assumption) ?_ | intro _ _ _ | dsimp only | split)

theorem guardBlockWrite_keeps {l : List Part} {s x : State} {off : Nat} {v : Word} (h : OnlyIn l s x) (hl : Covers [.later, .pin, .pins] l) :
    OnlyIn l s (guardBlockWrite off v x) := by
  unfold guardBlockWrite
  repeat' (first | with_reducible assumption | with_reducible apply guardWrite_keeps | with_reducible apply modPins_keeps | exact hl.sub (by decide) | with_reducible refine fst_keeps (by assumption) ?_ | intro _ _ _ | dsimp only | split)

theorem pinBlockRead_keeps {l : List Part} {s x : State} {off : Nat} (h : OnlyIn l s x) (hl : Covers [.pins] l) :
    OnlyIn l s (pinBlockRead off x).1 := by
  unfold pinBlockRead
  repeat' (first | with_reducible assumption | with_reducible apply modPins_keeps | with_reducible apply readClear_keeps | with_reducible apply plain_keeps | exact hl.sub (by decide) | with_reducible refine fst_keeps (by assumption) ?_ | intro _ _ _ | dsimp only | split)

theorem pinCmdWrite_keeps {l : List Part} {s x : State} {v : Word} (h : OnlyIn l s x) (hl : Covers [.later, .pins] l) :
    OnlyIn l s (pinCmdWrite v x) := by
  unfold pinCmdWrite
  repeat' (first | with_reducible assumption | with_reducible apply pinCommand_keeps | with_reducible apply pinAnswer_keeps | with_reducible apply matrixTo_keeps | exact hl.sub (by decide) | with_reducible refine fst_keeps (by assumption) ?_ | intro _ _ _ | dsimp only | split)

theorem wellPeek_keeps {l : List Part} {s x : State} {k : Fin 64} (h : OnlyIn l s x) (hl : Covers [.well] l) :
    OnlyIn l s (wellPeek k x).1 := by
  unfold wellPeek
  repeat' (first | with_reducible assumption | with_reducible apply wellReport_keeps | with_reducible apply modWell_keeps | exact hl.sub (by decide) | with_reducible refine fst_keeps (by assumption) ?_ | intro _ _ _ | dsimp only | split)

theorem wellCmdWrite_keeps {l : List Part} {s x : State} {k : Fin 64} {v : Word} (h : OnlyIn l s x) (hl : Covers [.well] l) :
    OnlyIn l s (wellCmdWrite k v x) := by
  unfold wellCmdWrite
  repeat' (first | with_reducible assumption | with_reducible apply wellAnswer_keeps | with_reducible apply wellCommand_keeps | exact hl.sub (by decide) | with_reducible refine fst_keeps (by assumption) ?_ | intro _ _ _ | dsimp only | split)

theorem wellStage_keeps {l : List Part} {s x : State} {p : Port} {k : Fin 64} {v : Word} (h : OnlyIn l s x) (hl : Covers [.well] l) :
    OnlyIn l s (wellStage p k v x) := by
  unfold wellStage
  repeat' (first | with_reducible assumption | with_reducible apply modWell_keeps | exact hl.sub (by decide) | with_reducible refine fst_keeps (by assumption) ?_ | intro _ _ _ | dsimp only | split)

theorem wellWrite_keeps {l : List Part} {s x : State} {p : Port} {k : Fin 64} {off : Nat} {v : Word} (h : OnlyIn l s x) (hl : Covers [.te, .well] l) :
    OnlyIn l s (wellWrite p k off v x) := by
  unfold wellWrite
  repeat' (first | with_reducible assumption | with_reducible apply hostPush_keeps | with_reducible apply wellStage_keeps | with_reducible apply wellCmdWrite_keeps | with_reducible apply wellAnswer_keeps | with_reducible apply modWell_keeps | exact hl.sub (by decide) | with_reducible refine fst_keeps (by assumption) ?_ | intro _ _ _ | dsimp only | split)

theorem pumpRead_keeps {l : List Part} {s x : State} {u : Fin 8} {off : Nat} (h : OnlyIn l s x) (hl : Covers [.pump] l) :
    OnlyIn l s (pumpRead u off x).1 := by
  unfold pumpRead
  repeat' (first | with_reducible assumption | with_reducible apply readClear_keeps | with_reducible apply modPump_keeps | with_reducible apply plain_keeps | exact hl.sub (by decide) | with_reducible refine fst_keeps (by assumption) ?_ | intro _ _ _ | dsimp only | split)

theorem pumpCmdWrite_keeps {l : List Part} {s x : State} {u : Fin 8} {v : Word} (h : OnlyIn l s x) (hl : Covers [.pump, .sys] l) :
    OnlyIn l s (pumpCmdWrite u v x) := by
  unfold pumpCmdWrite
  repeat' (first | with_reducible assumption | with_reducible apply pumpCommand_keeps | with_reducible apply pumpAnswer_keeps | with_reducible apply endDoze_keeps | exact hl.sub (by decide) | with_reducible refine fst_keeps (by assumption) ?_ | intro _ _ _ | dsimp only | split)

theorem pumpWrite_keeps {l : List Part} {s x : State} {u : Fin 8} {off : Nat} {v : Word} (h : OnlyIn l s x) (hl : Covers [.pump, .sys] l) :
    OnlyIn l s (pumpWrite u off v x) := by
  unfold pumpWrite
  repeat' (first | with_reducible assumption | with_reducible apply pumpCmdWrite_keeps | with_reducible apply pumpGuarded_keeps | with_reducible apply writeTail_keeps | with_reducible apply modPump_keeps | exact hl.sub (by decide) | with_reducible refine fst_keeps (by assumption) ?_ | intro _ _ _ | dsimp only | split)

theorem bankRead_keeps {l : List Part} {s x : State} {b : Fin 8} {off : Nat} (h : OnlyIn l s x) (hl : Covers [.cis] l) :
    OnlyIn l s (bankRead b off x).1 := by
  unfold bankRead
  repeat' (first | with_reducible assumption | with_reducible apply modBank_keeps | with_reducible apply readClear_keeps | with_reducible apply plain_keeps | exact hl.sub (by decide) | with_reducible refine fst_keeps (by assumption) ?_ | intro _ _ _ | dsimp only | split)

theorem bankWrite_keeps {l : List Part} {s x : State} {b : Fin 8} {off : Nat} {v : Word} (h : OnlyIn l s x) (hl : Covers [.later, .cis] l) :
    OnlyIn l s (bankWrite b off v x) := by
  unfold bankWrite
  repeat' (first | with_reducible assumption | with_reducible apply modBank_keeps | with_reducible apply handover_keeps | exact hl.sub (by decide) | with_reducible refine fst_keeps (by assumption) ?_ | intro _ _ _ | dsimp only | split)

theorem cisRead_keeps {l : List Part} {s x : State} {off : Nat} (h : OnlyIn l s x) (hl : Covers [.cis] l) :
    OnlyIn l s (cisRead off x).1 := by
  unfold cisRead
  repeat' (first | with_reducible assumption | with_reducible apply bankRead_keeps | with_reducible apply modCis_keeps | with_reducible apply readClear_keeps | with_reducible apply plain_keeps | exact hl.sub (by decide) | with_reducible refine fst_keeps (by assumption) ?_ | intro _ _ _ | dsimp only | split)

theorem cisWrite_keeps {l : List Part} {s x : State} {off : Nat} {v : Word} (h : OnlyIn l s x) (hl : Covers [.later, .cis] l) :
    OnlyIn l s (cisWrite off v x) := by
  unfold cisWrite
  repeat' (first | with_reducible assumption | with_reducible apply modCis_keeps | with_reducible apply bankWrite_keeps | with_reducible apply writeScrub_keeps | exact hl.sub (by decide) | with_reducible refine fst_keeps (by assumption) ?_ | intro _ _ _ | dsimp only | split)

theorem lineRead_keeps {l : List Part} {s x : State} {p : Port} {t : Fin 4} {off : Nat} (h : OnlyIn l s x) (hl : Covers [.job] l) :
    OnlyIn l s (lineRead p t off x).1 := by
  unfold lineRead
  repeat' (first | with_reducible assumption | with_reducible apply modLine_keeps | with_reducible apply readClear_keeps | with_reducible apply plain_keeps | exact hl.sub (by decide) | with_reducible refine fst_keeps (by assumption) ?_ | intro _ _ _ | dsimp only | split)

theorem lineGuarded_keeps {l : List Part} {s x : State} {t : Fin 4} {f : Line → Line} (h : OnlyIn l s x) (hl : Covers [.job] l) :
    OnlyIn l s (lineGuarded t f x) := by
  unfold lineGuarded
  repeat' (first | with_reducible assumption | with_reducible apply modLine_keeps | with_reducible apply jobAnswer_keeps | exact hl.sub (by decide) | with_reducible refine fst_keeps (by assumption) ?_ | intro _ _ _ | dsimp only | split)

theorem jobCmdWrite_keeps {l : List Part} {s x : State} {t : Fin 4} {v : Word} (h : OnlyIn l s x) (hl : Covers [.job] l) :
    OnlyIn l s (jobCmdWrite t v x) := by
  unfold jobCmdWrite
  repeat' (first | with_reducible assumption | with_reducible apply jobAnswer_keeps | with_reducible apply modLine_keeps | with_reducible apply jobCommand_keeps | with_reducible apply jobDisable_keeps | with_reducible apply settleLine_keeps | exact hl.sub (by decide) | with_reducible refine fst_keeps (by assumption) ?_ | intro _ _ _ | dsimp only | split)

theorem vrecPsn_keeps {l : List Part} {s x : State} {p : Port} {t : Fin 4} {v : Word} (h : OnlyIn l s x) (hl : Covers [.job] l) :
    OnlyIn l s (vrecPsn p t v x) := by
  unfold vrecPsn
  repeat' (first | with_reducible assumption | with_reducible apply modLine_keeps | exact hl.sub (by decide) | with_reducible refine fst_keeps (by assumption) ?_ | intro _ _ _ | dsimp only | split)

theorem lineWrite_keeps {l : List Part} {s x : State} {p : Port} {t : Fin 4} {off : Nat} {v : Word} (h : OnlyIn l s x) (hl : Covers [.job, .rcd] l) :
    OnlyIn l s (lineWrite p t off v x) := by
  unfold lineWrite
  repeat' (first | with_reducible assumption | with_reducible apply vrecPsn_keeps | with_reducible apply writeRing_keeps | with_reducible apply lineGuarded_keeps | with_reducible apply modLine_keeps | with_reducible apply verdictRecord_keeps | with_reducible apply jobCmdWrite_keeps | exact hl.sub (by decide) | with_reducible refine fst_keeps (by assumption) ?_ | intro _ _ _ | dsimp only | split)

theorem jobBlockRead_keeps {l : List Part} {s x : State} {p : Port} {off : Nat} (h : OnlyIn l s x) (hl : Covers [.job] l) :
    OnlyIn l s (jobBlockRead p off x).1 := by
  unfold jobBlockRead
  repeat' (first | with_reducible assumption | with_reducible apply lineRead_keeps | with_reducible apply plain_keeps | exact hl.sub (by decide) | with_reducible refine fst_keeps (by assumption) ?_ | intro _ _ _ | dsimp only | split)

theorem jobBlockWrite_keeps {l : List Part} {s x : State} {p : Port} {off : Nat} {v : Word} (h : OnlyIn l s x) (hl : Covers [.job, .rcd] l) :
    OnlyIn l s (jobBlockWrite p off v x) := by
  unfold jobBlockWrite
  repeat' (first | with_reducible assumption | with_reducible apply lineWrite_keeps | exact hl.sub (by decide) | with_reducible refine fst_keeps (by assumption) ?_ | intro _ _ _ | dsimp only | split)

theorem convRead_keeps {l : List Part} {s x : State} {c : Fin 2} {off : Nat} (h : OnlyIn l s x) (hl : Covers [.sc] l) :
    OnlyIn l s (convRead c off x).1 := by
  unfold convRead
  repeat' (first | with_reducible assumption | with_reducible apply modSc_keeps | with_reducible apply readClear_keeps | with_reducible apply plain_keeps | exact hl.sub (by decide) | with_reducible refine fst_keeps (by assumption) ?_ | intro _ _ _ | dsimp only | split)

theorem scCmdWrite_keeps {l : List Part} {s x : State} {c : Fin 2} {v : Word} (h : OnlyIn l s x) (hl : Covers [.later, .sc, .scs, .sys] l) :
    OnlyIn l s (scCmdWrite c v x) := by
  unfold scCmdWrite
  repeat' (first | with_reducible assumption | with_reducible apply trimCal_keeps | with_reducible apply scAnswer_keeps | with_reducible apply selfCal_keeps | with_reducible apply scInject_keeps | with_reducible apply scStop_keeps | with_reducible apply scStart_keeps | exact hl.sub (by decide) | with_reducible refine fst_keeps (by assumption) ?_ | intro _ _ _ | dsimp only | split)

theorem convWrite_keeps {l : List Part} {s x : State} {c : Fin 2} {off : Nat} {v : Word} (h : OnlyIn l s x) (hl : Covers [.later, .sc, .scs, .sys] l) :
    OnlyIn l s (convWrite c off v x) := by
  unfold convWrite
  repeat' (first | with_reducible assumption | with_reducible apply scCmdWrite_keeps | with_reducible apply modSc_keeps | with_reducible apply scGuarded_keeps | with_reducible apply writeBufLen_keeps | with_reducible apply writeBufRd_keeps | exact hl.sub (by decide) | with_reducible refine fst_keeps (by assumption) ?_ | intro _ _ _ | dsimp only | split)

theorem scBlockRead_keeps {l : List Part} {s x : State} {off : Nat} (h : OnlyIn l s x) (hl : Covers [.sc, .scs] l) :
    OnlyIn l s (scBlockRead off x).1 := by
  unfold scBlockRead
  repeat' (first | with_reducible assumption | with_reducible apply modScs_keeps | with_reducible apply convRead_keeps | with_reducible apply readClear_keeps | with_reducible apply plain_keeps | exact hl.sub (by decide) | with_reducible refine fst_keeps (by assumption) ?_ | intro _ _ _ | dsimp only | split)

theorem scBlockWrite_keeps {l : List Part} {s x : State} {off : Nat} {v : Word} (h : OnlyIn l s x) (hl : Covers [.later, .sc, .scs, .sys] l) :
    OnlyIn l s (scBlockWrite off v x) := by
  unfold scBlockWrite
  repeat' (first | with_reducible assumption | with_reducible apply modScs_keeps | with_reducible apply convWrite_keeps | exact hl.sub (by decide) | with_reducible refine fst_keeps (by assumption) ?_ | intro _ _ _ | dsimp only | split)

theorem linkRead_keeps {l : List Part} {s x : State} {off : Nat} (h : OnlyIn l s x) (hl : Covers [.link] l) :
    OnlyIn l s (linkRead off x).1 := by
  unfold linkRead
  repeat' (first | with_reducible assumption | with_reducible apply modPort_keeps | with_reducible apply modLink_keeps | with_reducible apply readClear_keeps | with_reducible apply plain_keeps | exact hl.sub (by decide) | with_reducible refine fst_keeps (by assumption) ?_ | intro _ _ _ | dsimp only | split)

theorem linkCmdWrite_keeps {l : List Part} {s x : State} {v : Word} (h : OnlyIn l s x) (hl : Covers [.link, .calm] l) :
    OnlyIn l s (linkCmdWrite v x) := by
  unfold linkCmdWrite
  repeat' (first | with_reducible assumption | with_reducible apply linkSend_keeps | with_reducible apply linkRxpop_keeps | with_reducible apply linkAnswer_keeps | with_reducible apply linkCommit_keeps | exact hl.sub (by decide) | with_reducible refine fst_keeps (by assumption) ?_ | intro _ _ _ | dsimp only | split)

theorem linkWrite_keeps {l : List Part} {s x : State} {off : Nat} {v : Word} (h : OnlyIn l s x) (hl : Covers [.dom, .tb, .link, .calm] l) :
    OnlyIn l s (linkWrite off v x) := by
  unfold linkWrite
  repeat' (first | with_reducible assumption | with_reducible apply writeLinkCfg_keeps | with_reducible apply linkCmdWrite_keeps | with_reducible apply modLink_keeps | exact hl.sub (by decide) | with_reducible refine fst_keeps (by assumption) ?_ | intro _ _ _ | dsimp only | split)

theorem recRead_keeps {l : List Part} {s x : State} {off : Nat} (h : OnlyIn l s x) (hl : Covers [.rcd] l) :
    OnlyIn l s (recRead off x).1 := by
  unfold recRead
  repeat' (first | with_reducible assumption | with_reducible apply modRcd_keeps | with_reducible apply readClear_keeps | with_reducible apply plain_keeps | exact hl.sub (by decide) | with_reducible refine fst_keeps (by assumption) ?_ | intro _ _ _ | dsimp only | split)

theorem recGuarded_keeps {l : List Part} {s x : State} {f : Recorder → Recorder} (h : OnlyIn l s x) (hl : Covers [.rcd] l) :
    OnlyIn l s (recGuarded f x) := by
  unfold recGuarded
  repeat' (first | with_reducible assumption | with_reducible apply recAnswer_keeps | with_reducible apply modRcd_keeps | exact hl.sub (by decide) | with_reducible refine fst_keeps (by assumption) ?_ | intro _ _ _ | dsimp only | split)

theorem recCmdWrite_keeps {l : List Part} {s x : State} {v : Word} (h : OnlyIn l s x) (hl : Covers [.pin, .pins, .rcd, .sys] l) :
    OnlyIn l s (recCmdWrite v x) := by
  unfold recCmdWrite
  repeat' (first | with_reducible assumption | with_reducible apply recReplay_keeps | with_reducible apply recFreeze_keeps | with_reducible apply recStart_keeps | with_reducible apply recAnswer_keeps | with_reducible apply recStop_keeps | exact hl.sub (by decide) | with_reducible refine fst_keeps (by assumption) ?_ | intro _ _ _ | dsimp only | split)

theorem recWrite_keeps {l : List Part} {s x : State} {off : Nat} {v : Word} (h : OnlyIn l s x) (hl : Covers [.pin, .pins, .rcd, .sys] l) :
    OnlyIn l s (recWrite off v x) := by
  unfold recWrite
  repeat' (first | with_reducible assumption | with_reducible apply recCmdWrite_keeps | with_reducible apply modRcd_keeps | with_reducible apply rpqAppend_keeps | with_reducible apply recGuarded_keeps | with_reducible apply recLevel_keeps | exact hl.sub (by decide) | with_reducible refine fst_keeps (by assumption) ?_ | intro _ _ _ | dsimp only | split)

theorem spiStatusByte_keeps {l : List Part} {s x : State}  (h : OnlyIn l s x) (hl : Covers [.out, .sys] l) :
    OnlyIn l s (spiStatusByte  x) := by
  unfold spiStatusByte
  repeat' (first | with_reducible assumption | with_reducible apply modSys_keeps | with_reducible apply emit_keeps | exact hl.sub (by decide) | with_reducible refine fst_keeps (by assumption) ?_ | intro _ _ _ | dsimp only | split)

theorem spiError_keeps {l : List Part} {s x : State}  (h : OnlyIn l s x) (hl : Covers [.sys] l) :
    OnlyIn l s (spiError  x) := by
  unfold spiError
  repeat' (first | with_reducible assumption | with_reducible apply modSys_keeps | exact hl.sub (by decide) | with_reducible refine fst_keeps (by assumption) ?_ | intro _ _ _ | dsimp only | split)

end Sys2Proof.Machine
end

