-- ==== Sys2Proof/Laws/Memory.lean ====
section
/-! SUPPORT. Laws/Memory: every operation that changes the Cistern's bytes keeps their canonical form. -/

namespace Sys2Proof.Machine

/-- Cells in form from `hi` are in form from any lower place. -/
theorem Memory.wfFrom_mono {lo hi : Nat} {m : List Host.Cell} (h : lo ≤ hi) (w : Memory.wfFrom hi m = true) :
    Memory.wfFrom lo m = true := by
  cases m with
  | nil => rfl
  | cons c r =>
    simp only [Memory.wfFrom, Bool.and_eq_true, decide_eq_true_eq] at w ⊢
    exact ⟨⟨by omega, w.1.2⟩, w.2⟩

theorem Memory.put_wfFrom {lo a : Nat} {v : Byte} {m : List Host.Cell} (h : lo ≤ a) (w : Memory.wfFrom lo m = true) :
    Memory.wfFrom lo (Memory.put m a v) = true := by
  induction m generalizing lo with
  | nil =>
    unfold Memory.put
    split
    · rfl
    · simp_all [Memory.wfFrom]
  | cons c r ih =>
    obtain ⟨b, x⟩ := c
    simp only [Memory.wfFrom, Bool.and_eq_true, decide_eq_true_eq] at w
    unfold Memory.put
    split
    · split
      · simpa [Memory.wfFrom] using w
      · have := w.1; simp only [Memory.wfFrom, Bool.and_eq_true, decide_eq_true_eq]
        exact ⟨⟨h, by assumption⟩, ⟨by omega, this.2⟩, w.2⟩
    · split
      · split
        · exact Memory.wfFrom_mono (by omega) w.2
        · subst b; simp only [Memory.wfFrom, Bool.and_eq_true, decide_eq_true_eq]
          exact ⟨⟨h, by assumption⟩, w.2⟩
      · simp only [Memory.wfFrom, Bool.and_eq_true, decide_eq_true_eq]
        exact ⟨w.1, ih (by omega) w.2⟩

/-- A word written leaves the bytes in their form. -/
theorem Memory.putWord_wf {m : List Host.Cell} {w : Nat} {v : BitVec 64} (h : Memory.wf m = true) :
    Memory.wf (Memory.putWord m w v) = true := by
  unfold Memory.putWord
  generalize List.range 8 = l
  induction l generalizing m with
  | nil => exact h
  | cons i l ih => exact ih (Memory.put_wfFrom (Nat.zero_le _) h)

/-- A store leaves the bytes in their form. -/
theorem Cistern.store_wf {c : Cistern} {w : Nat} {v : BitVec 64} {p : Bool} (h : Memory.wf c.mem = true) :
    Memory.wf (c.store w v p).mem = true := Memory.putWord_wf h

/-- The memory of the reset state is in its form. -/
theorem reset_wf : Memory.wf State.reset.cis.mem = true := (rfl)

end Sys2Proof.Machine
end

