-- ==== Sys2Proof/WellFormed.lean ====
section
/-! DEFINITION. WellFormed: the operands that a command of the table can carry, where their types do not
bound them already. -/

namespace Sys2Proof

/-- A BAR0 offset of a register (R9, R24). -/
def regAddrOk (a : Nat) : Bool := decide (a < 0x40_0000) && decide (a % 4 = 0)

/-- The byte enables of an access; the sideband always moves whole words (R11, R404). -/
def bytesOk (p : Port) (be : BitVec 4) : Bool := match p with | .pcie _ => true | .spi => decide (be = 0xF)

/-- An offset of `PIN_OSEL`, `PIN_IO`, `PIN_CHIN` or `PIN_SEIN` (R252). -/
def matrixAddrOk (a : Nat) : Bool :=
  decide (a % 4 = 0) &&
  (decide (0x2C_1000 ≤ a ∧ a < 0x2C_1480) || decide (0x2C_2000 ≤ a ∧ a < 0x2C_2480) ||
   decide (0x2C_3000 ≤ a ∧ a < 0x2C_3400) || decide (0x2C_4000 ≤ a ∧ a < 0x2C_4800 ∧ a % 0x40 < 0x30))

/-- A register of a shift engine that a write can change, but for commands, wrap and queue (Table 7.12). -/
def seOffsetOk (o : Nat) : Bool :=
  decide (o % 4 = 0) &&
  (decide (o = 0 ∨ o = 0x08 ∨ o = 0x10) || decide (0x1C ≤ o ∧ o ≤ 0x30) || decide (o = 0x3C) || decide (0x80 ≤ o ∧ o < 0x100))

/-- An access of `n` bytes lies in the Cistern's window (R24) and is no longer than a page of the link's requests. -/
def windowOk (a n : Nat) : Bool := decide (0 < n) && decide (n ≤ 4096) && decide (a + n ≤ 0x100_0000)

/-- The device negotiates width 1, 2 or 4 and one of three speeds (Table 14.11). -/
def dlOk (width speed : BitVec 4) : Bool :=
  decide (width = 1 ∨ width = 2 ∨ width = 4) && decide (speed = 1 ∨ speed = 2 ∨ speed = 3)

/-- The operands of a command are such as the table's row admits. -/
def wellFormed (i : Instr) : Bool :=
  match i with
  | .frameBoundary calErr => decide (calErr.length = 10)
  | .rcRead p addr be => regAddrOk addr && bytesOk p be
  | .registerWrite p addr be _ => regAddrOk addr && bytesOk p be
  | .requestPost _ num _ => !decide (56 ≤ num.val ∧ num.val ≤ 62)
  | .seRegisterWrite _ _ off _ => seOffsetOk off
  | .pinMatrixWrite _ addr _ => matrixAddrOk addr
  | .bar2Read _ addr len => windowOk addr len
  | .bar2Write addr bytes => windowOk addr bytes.length
  | .hostReadCompletion _ (.data l) => decide (0 < l.length) && decide (l.length ≤ 128)
  | .linkFrameReceive _ f => decide (f.msgs.length ≤ 4)
  | .dlActive w v => dlOk w v
  | _ => true

end Sys2Proof
end

