-- ==== Sys2Proof/Tests/Slice0.lean ====
section
/-! SUPPORT. Tests: a concrete state for every statement of the obligations, an ill-formed term for every check of
WellFormed, and small runs of one command whose results are read off the spec. -/

namespace Sys2Proof.Tests
open Machine Claims

/-! Witnesses: each theorem takes a statement and applies it at concrete states and operands that meet its
hypotheses, clause by clause. -/

/-- The command answers a next state. -/
def Runs (c : Instr) (s : State) : Prop := ∃ t, exec c s = .next t
theorem ends_runs {c : Instr} {s : State} {P : State → Prop} (h : Ends c s P) : Runs c s :=
  let ⟨_, e, _⟩ := h; ⟨_, e⟩
theorem does_runs {c : Instr} {s : State} {P : State → Prop} (h : Does c s P) : Runs c s :=
  let ⟨_, e, _⟩ := h; ⟨_, e⟩

/-- A device after start-up. -/
def up : State :=
  { State.reset with
    tb := { running := true, clk := 70000, now := 0x60_0040 }, cis := { init := 0 }, sys := { ready := true } }
def p0 : Port := .pcie 0

theorem witness_StepIdle (h : Says.StepIdle) : ∃ t, step up = .next t ∧ t.tb.now = up.tb.now + 64 ∧ OnlyIn [.tb] up t :=
  let ⟨t, e, _, _, r⟩ := h up rfl; ⟨t, e, by rw [r.1 rfl], r.2 rfl rfl⟩
theorem witness_TimePasses (h : Says.TimePasses) :
    (advance 3 up).tb.clk = 70003 ∧ OnlyIn [.tb] up (advance 3 up) ∧ (runClk 70000 up).tb.clk = 70000 ∧ (runTo 0x60_00BF up).tb.now = 0x60_0080 :=
  ⟨(h 3 up rfl).1, ((h 3 up rfl).2.2.2.1 rfl rfl).1, (h 70000 up rfl).2.2.2.2.1 (Nat.le_refl _),
   by have := (h 0 up rfl).2.2.2.2.2 0x60_00BF (by decide)
      have c : coarse (runTo 0x60_00BF up).tb.now = (runTo 0x60_00BF up).tb.now := by decide
      rw [← c, this]; decide⟩
theorem witness_StepKeepsInv (h : Obligations.StepKeepsInv) (r : Says.ResetHasInv) (n : Says.NoStepStops) :
    ∃ t, step State.reset = .next t ∧ Safety.Inv t := let ⟨t, e⟩ := n State.reset; ⟨t, e, h _ t r e⟩
def inDom (d : DomState) : State := { up with dom := { state := d } }
theorem witness_DomainCommandSchedules (h : Says.DomainCommandSchedules) :
    Runs (.domainArm p0) (inDom .config) ∧ Runs (.domainRun p0) (inDom .armed) ∧ Runs (.domainDisarm .spi) (inDom .armed) ∧
    Runs (.domainHold p0) (inDom .run) ∧ Runs (.domainStop p0) (inDom .run) ∧ Runs (.domainStop p0) (inDom .hold) ∧
    Runs (.domainRun p0) (inDom .hold) :=
  ⟨does_runs (h (.domainArm, .config, .armed) (by simp [Says.scheduled]) p0 (inDom .config) rfl rfl (by decide) (by decide) rfl rfl rfl (by decide)),
   does_runs (h (.domainRun, .armed, .run) (by simp [Says.scheduled]) p0 (inDom .armed) rfl rfl (by decide) (by decide) rfl rfl rfl (by decide)),
   does_runs (h (.domainDisarm, .armed, .config) (by simp [Says.scheduled]) .spi (inDom .armed) rfl rfl (by decide) (by decide) rfl rfl rfl (by decide)),
   does_runs (h (.domainHold, .run, .hold) (by simp [Says.scheduled]) p0 (inDom .run) rfl rfl (by decide) (by decide) rfl rfl rfl (by decide)),
   does_runs (h (.domainStop, .run, .armed) (by simp [Says.scheduled]) p0 (inDom .run) rfl rfl (by decide) (by decide) rfl rfl rfl (by decide)),
   does_runs (h (.domainStop, .hold, .armed) (by simp [Says.scheduled]) p0 (inDom .hold) rfl rfl (by decide) (by decide) rfl rfl rfl (by decide)),
   does_runs (h (.domainRun, .hold, .run) (by simp [Says.scheduled]) p0 (inDom .hold) rfl rfl (by decide) (by decide) rfl rfl rfl (by decide))⟩
set_option maxRecDepth 4000 in
theorem inDom_permit : permit (inDom .safe) = true := by decide
def below (d : Domain) : State :=
  { up with dom := d, link := { ports := (Vector.replicate 4 {}).set 0 { state := .up } }, sys := { ready := true, ie := 0x1_0000 } }
set_option maxRecDepth 4000 in
theorem below_permit : permit (below { safeWait := true }) = true := by decide
theorem witness_DomainClearSchedules (h : Says.DomainClearSchedules) :
    Runs (.domainClear p0) (inDom .safe) ∧ Runs (.domainClear p0) (below { safeWait := true }) :=
  ⟨does_runs ((h p0 (inDom .safe) rfl rfl (by decide) (.inl rfl) rfl inDom_permit).1 (by decide)),
   ends_runs ((h p0 (below { safeWait := true }) rfl rfl (by decide) (.inr rfl) rfl below_permit).2 (by decide))⟩
theorem witness_DomainSafeWaits (h : Says.DomainSafeWaits) : Runs (.domainSafe .spi) (inDom .run) :=
  does_runs (h .spi (inDom .run) rfl rfl (by decide) (by decide) rfl)
theorem witness_DomainCommandRefused (h : Says.DomainCommandRefused) :
    Runs (.domainHold p0) (inDom .config) ∧ Runs (.domainRun p0) (below { state := .armed }) ∧ Runs (.domainArm p0) { inDom .config with dom := { mask := 0x20 }, link := { stat := 1 } } ∧
    Runs (.domainSafe p0) (inDom .safe) ∧ Runs (.domainClear p0) (inDom .run) :=
  ⟨ends_runs ((h p0 (inDom .config) rfl).1 .domainHold (by simp) (.inl (by decide))),
   ends_runs ((h p0 (below { state := .armed }) rfl).1 .domainRun (by simp) (.inr (.inr (.inr (by decide))))),
   ends_runs ((h p0 { inDom .config with dom := { mask := 0x20 }, link := { stat := 1 } } rfl).2.1 (by decide)),
   ends_runs ((h p0 (inDom .safe) rfl).2.2.1 (.inl rfl)), ends_runs ((h p0 (inDom .run) rfl).2.2.2 (.inl ⟨by decide, rfl⟩))⟩
theorem witness_EveryCommandEnds (h : Says.EveryCommandEnds) : Runs (.domainHold p0) up := let ⟨_, e, _⟩ := h (.domainHold p0) up; ⟨_, e⟩

def atFrame (d : Domain) : State := { up with tb := { running := true, frameDue := true, now := 0x60_0000 }, dom := d }
theorem witness_CommandEnds (h : Says.CommandEnds) :
    OnlyIn [] up (finish up) ∧ (finish (atFrame { state := .run, safeNow := true })).dom.state = .safe ∧
    (finish { atFrame { safeNow := true } with rcd := { state := .replay } }).dom.state = .config :=
  ⟨(h up).2.1 rfl, by rw [((h (atFrame { state := .run, safeNow := true })).2.2.1 rfl (by decide)).1],
   by rw [((h { atFrame { safeNow := true } with rcd := { state := .replay } }).2.2.2 rfl (by decide)).1]; rfl⟩
theorem witness_DomainTransitionTakesEffect (h : Says.DomainTransitionTakesEffect) :
    Runs .domainTransitionEffect (atFrame { state := .run, safeWait := true }) ∧
    Runs .domainTransitionEffect (atFrame { state := .run, pend := true, pstate := .hold, eff := 0x61 }) ∧
    Runs .domainTransitionEffect (atFrame { state := .run, pend := true, pstate := .hold, eff := 0x5F, late := 255 }) :=
  ⟨ends_runs ((h (atFrame { state := .run, safeWait := true }) (atFrame { state := .run, safeWait := true }) rfl (by decide) rfl).1 rfl rfl (by decide)),
   ends_runs ((h (atFrame { state := .run, pend := true, pstate := .hold, eff := 0x61 }) (runTo 0x61_0000 (atFrame { state := .run, pend := true, pstate := .hold, eff := 0x61 })) rfl (by decide) (by decide)).2.1 rfl rfl (by decide) rfl (by decide)),
   ends_runs ((h (atFrame { state := .run, pend := true, pstate := .hold, eff := 0x5F, late := 255 }) (atFrame { state := .run, pend := true, pstate := .hold, eff := 0x5F, late := 255 }) rfl (by decide) rfl).2.2 rfl rfl (by decide) rfl (by decide) (by decide))⟩
theorem witness_FrameBoundaryActs (h : Says.FrameBoundaryActs) :
    Runs (.frameBoundary []) (atFrame { pend := true, pstate := .armed, eff := 0x60 }) ∧ Runs (.frameBoundary [3]) (atFrame {}) :=
  ⟨ends_runs (h [] _ (atFrame { pend := true, pstate := .armed, eff := 0x60 }) rfl rfl rfl rfl (by decide) rfl rfl rfl rfl rfl (by decide) (by decide) (by decide)),
   ends_runs (h [3] _ (atFrame {}) rfl rfl rfl rfl (by decide) rfl rfl rfl rfl rfl (by decide) (by decide) (by decide))⟩
def hostUp (d : DomState) : State := { up with dom := { state := d }, sys := { ready := true, dlact := true, sren := true, vkeepOk := true } }
theorem witness_HostLossActs (h : Says.HostLossActs) :
    Runs .hostLoss (hostUp .run) ∧ Runs .hostLoss { hostUp .safe with pump := up.pump.set 1 { hostOut := [3] } } :=
  ⟨ends_runs (h (hostUp .run) rfl rfl (by decide) (by decide)),
   ends_runs (h { hostUp .safe with pump := up.pump.set 1 { hostOut := [3] } } rfl rfl (by decide) (by decide))⟩


def tbAt (b : Bool) (d : DomState) (v : Word) : State :=
  { up with tb := { running := true, src := b, now := 0x60_0040, setLo := v, setHi := 5 }, dom := { state := d } }
theorem witness_TbLoadJudged (h : Obligations.TbLoadJudged) :
    Runs (.tbLoad p0) (tbAt false .config 0x1_FFFF) ∧ Runs (.tbLoad p0) (tbAt false .armed 0) ∧ Runs (.tbLoad p0) (tbAt true .config 0) ∧
    Runs (.tbLoad p0) { up with tb := { running := true, loadPend := true } } :=
  ⟨does_runs ((h p0 (tbAt false .config 0x1_FFFF) rfl rfl).1 rfl rfl rfl), does_runs ((h p0 (tbAt false .armed 0) rfl rfl).2 (.inl (by decide))),
   does_runs ((h p0 (tbAt true .config 0) rfl rfl).2 (.inr (.inl rfl))),
   does_runs ((h p0 { up with tb := { running := true, loadPend := true } } rfl rfl).2 (.inr (.inr rfl)))⟩
def loading : State :=
  { up with tb := { running := true, frameDue := true, now := 0x60_0000, loadPend := true, loadVal := 0x10_0000 }, dom := { state := .armed, pend := true, pstate := .run, eff := 0x70 } }
theorem witness_TbLoadTakesEffect (h : Says.TbLoadTakesEffect) : Runs .tbLoadEffect loading := ends_runs (h loading loading rfl rfl rfl)

def chan (n : Fin 256) (c : Chan) : State := modCh n (fun _ => c) up
theorem witness_CounterSteps (h : Says.CounterSteps) :
    Runs (.counterStep 7) (chan 7 { cfg := 0x00400000, run := true, nextStep := 70000, cnt := 9, top := 9, heldTop := some 4, pre := 0 }) ∧
    Runs (.counterStep 7) (chan 7 { cfg := 0x100C0000, run := true, nextStep := 70007, cnt := 8, cmp := 9 }) ∧
    Runs (.counterStep 6) (chan 6 { cfg := 0x60040000, run := true, nextStep := 70000, cnt := 0xFFFF_FFFF, cmp := 0 }) :=
  ⟨ends_runs (h 7 (chan 7 { cfg := 0x00400000, run := true, nextStep := 70000, cnt := 9, top := 9, heldTop := some 4, pre := 0 }) _ rfl rfl rfl (.inr (by decide)) rfl),
   ends_runs (h 7 (chan 7 { cfg := 0x100C0000, run := true, nextStep := 70007, cnt := 8, cmp := 9 }) _ rfl rfl rfl (.inr (by decide)) rfl),
   ends_runs (h 6 (chan 6 { cfg := 0x60040000, run := true, nextStep := 70000, cnt := 0xFFFF_FFFF, cmp := 0 }) _ rfl rfl rfl (.inl rfl) rfl)⟩
theorem witness_ChannelRegistersWritten (h : Says.ChannelRegistersWritten) :
    Runs (.chCntWrite p0 3 5) up ∧ Runs (.chTopWrite p0 3 5) (chan 3 { run := true }) ∧ Runs (.chTopWrite .spi 3 5) (chan 3 {}) ∧
    Runs (.chFiltWrite p0 3 0x00FF_E01F) up ∧ Runs (.chFiltWrite p0 3 0xFF00_0000) (chan 3 { filt := 0xFF00_2000 }) ∧
    Runs (.chTgtLoWrite p0 3 5) up ∧ Runs (.chTgtLoWrite .spi 3 5) up ∧ Runs (.chTgtLoWrite p0 3 5) (chan 3 { cfg := 0x70000000 }) :=
  ⟨does_runs (h p0 3 5 up rfl rfl).1, does_runs (h p0 3 5 (chan 3 { run := true }) rfl rfl).2.1, does_runs (h .spi 3 5 (chan 3 {}) rfl rfl).2.1,
   does_runs (h p0 3 0x00FF_E01F up rfl rfl).2.2.1, does_runs (h p0 3 0xFF00_0000 (chan 3 { filt := 0xFF00_2000 }) rfl rfl).2.2.1,
   does_runs (h p0 3 5 up rfl rfl).2.2.2, does_runs (h .spi 3 5 up rfl rfl).2.2.2, does_runs (h p0 3 5 (chan 3 { cfg := 0x70000000 }) rfl rfl).2.2.2⟩
theorem witness_ChannelComparesWritten (h : Says.ChannelComparesWritten) :
    Runs (.chCmpWrite p0 3 5) up ∧ Runs (.chCmpWrite p0 3 5) (chan 3 { cfg := 0x10240000, run := true, cnt := 5 }) ∧
    Runs (.chCmpWrite p0 2 5) (chan 2 { cfg := 0x60200000, run := true }) ∧
    Runs (.chTgtHiWrite .spi 3 5) up ∧ Runs (.chTgtHiWrite p0 3 5) (chan 3 { cfg := 0x70000000 }) ∧
    Runs (.chTgtHiWrite p0 3 0) (chan 3 { cfg := 0x08000000, run := true, armed := true, stagePcie := 0x60_0041 }) :=
  ⟨ends_runs (h p0 3 5 up rfl).1, ends_runs (h p0 3 5 (chan 3 { cfg := 0x10240000, run := true, cnt := 5 }) rfl).1,
   ends_runs (h p0 2 5 (chan 2 { cfg := 0x60200000, run := true }) rfl).1,
   ends_runs ((h .spi 3 5 up rfl).2.1 (by decide) (by decide)), ends_runs ((h p0 3 5 (chan 3 { cfg := 0x70000000 }) rfl).2.2.2 rfl),
   ends_runs ((h p0 3 0 (chan 3 { cfg := 0x08000000, run := true, armed := true, stagePcie := 0x60_0041 }) rfl).2.2.1 (by decide) ⟨rfl, rfl, by decide⟩)⟩
theorem witness_NextCycleActs (h : Says.NextCycleActs) :
    bit (advance 1 { chan 3 { cfg := 0x00200000, eff := 0x00200000, run := true, cnt := 5, cmp := 5 } with later := [.compare 3] }).ch[3].flags 0 = true ∧
    (advance 1 { chan 3 { cfg := 5 } with later := [.chCfg 3] }).ch[3].eff = 5 ∧
    OnlyIn [.tb, .later] { chan 3 { cnt := 4, cmp := 5 } with later := [.compare 3] } (advance 1 { chan 3 { cnt := 4, cmp := 5 } with later := [.compare 3] }) ∧
    ((advance 1 { up with later := [.evFree 3 2047] }).wt[3].entry 2047).st = .free ∧
    (advance 1 { up with later := [.evCfg 3], wt := up.wt.set 3 { evcfg := 9 } }).wt[3].evNow = 9 ∧
    (advance 1 { up with later := [.seReg 31 0x2C 7] }).se[31].cmpv = 7 ∧ (advance 1 { up with later := [.owner 7 0x4000_0000] }).cis.banks[7].own = 0x4000_0000 :=
  ⟨((h 3 { chan 3 { cfg := 0x00200000, eff := 0x00200000, run := true, cnt := 5, cmp := 5 } with later := [.compare 3] } _ rfl rfl rfl).1 rfl).1 rfl rfl (by decide) (by decide) (by decide),
   (h 3 { chan 3 { cfg := 5 } with later := [.chCfg 3] } _ rfl rfl rfl).2.2.1 rfl,
   ((h 3 { chan 3 { cnt := 4, cmp := 5 } with later := [.compare 3] } _ rfl rfl rfl).1 rfl).2 (.inl rfl),
   ((h 3 { up with later := [.evFree 3 2047] } _ rfl rfl rfl).2.2.2.1 3 2047 rfl).1,
   (h 3 { up with later := [.evCfg 3], wt := up.wt.set 3 { evcfg := 9 } } _ rfl rfl rfl).2.2.2.2.1 3 rfl,
   ((h 3 { up with later := [.seReg 31 0x2C 7] } _ rfl rfl rfl).2.2.2.2.2.1 31 0x2C 7 rfl).2.1 rfl,
   congrArg Bank.own ((h 3 { up with later := [.owner 7 0x4000_0000] } _ rfl rfl rfl).2.2.2.2.2.2 7 0x4000_0000 rfl).1⟩
def holding (v : EvEntry) : State := { chan 3 { cfg := 0x78000000, run := true, event := some ⟨1, 5, .set, 0, 7⟩ } with wt := up.wt.set 1 { table := [{}, {}, {}, {}, {}, v] } }
theorem witness_ChannelCommandsAccepted (h : Says.ChannelCommandsAccepted) :
    Runs (.chStart p0 3) up ∧ Runs (.chStart p0 3) (chan 3 { cfg := 0x7F800000 }) ∧ Runs (.chStop p0 3) (chan 3 { run := true, armed := true }) ∧
    Runs (.chStop p0 3) (chan 3 { cfg := 0x08000000, run := true, armed := true, horizon := true }) ∧
    Runs (.chStop p0 3) (holding { st := .committed }) ∧ Runs (.chStop p0 3) (holding { st := .issued }) ∧
    Runs (.chArm p0 3) (chan 3 { cfg := 0x08000000, run := true, tgt := 0x70_0000 }) ∧ Runs (.chArm p0 3) (chan 3 { cfg := 0x08000000, run := true, tgt := 0x60_0041 }) ∧
    Runs (.chDisarm p0 3) (chan 3 { armed := true }) ∧ Runs (.chReload p0 3) (chan 3 { pre := 8 }) :=
  have a (c : Chan) (o : hostOk p0 (chan 3 c) = true) := h p0 3 (chan 3 c) o
  ⟨ends_runs ((h p0 3 up rfl).1 rfl (by decide) (by decide) (by decide) (by decide)),
   ends_runs ((a { cfg := 0x7F800000 } rfl).1 rfl (by decide) (by decide) (by decide) (by decide)),
   ends_runs ((a { run := true, armed := true } rfl).2.1 rfl (by decide) (by decide)),
   ends_runs ((a { cfg := 0x08000000, run := true, armed := true, horizon := true } rfl).2.1 rfl (by decide) (by decide)),
   ends_runs (((h p0 3 (holding { st := .committed }) rfl).2.2.1 ⟨1, 5, .set, 0, 7⟩ rfl rfl rfl).1 (by decide)),
   ends_runs (((h p0 3 (holding { st := .issued }) rfl).2.2.1 ⟨1, 5, .set, 0, 7⟩ rfl rfl rfl).2 (by decide)),
   ends_runs ((a { cfg := 0x08000000, run := true, tgt := 0x70_0000 } rfl).2.2.2.1 rfl rfl (by decide) rfl rfl),
   ends_runs ((a { cfg := 0x08000000, run := true, tgt := 0x60_0041 } rfl).2.2.2.1 rfl rfl (by decide) rfl rfl),
   ends_runs ((a { armed := true } rfl).2.2.2.2.1 rfl rfl (by decide)),
   ends_runs ((a { pre := 8 } rfl).2.2.2.2.2 rfl)⟩
theorem witness_ChannelCommandsRefused (h : Says.ChannelCommandsRefused) :
    Runs (.chStart p0 3) (chan 3 { run := true, ie := 0x1_0000 }) ∧ Runs (.chStop p0 3) up ∧
    Runs (.chArm p0 3) up ∧ Runs (.chArm p0 3) (chan 3 { run := true }) ∧ Runs (.chArm p0 3) (chan 3 { cfg := 0x78000000, run := true }) ∧
    Runs (.chArm p0 3) (chan 3 { cfg := 0x08000000, run := true, armed := true }) ∧ Runs (.chArm p0 3) (chan 3 { cfg := 0x08000000, run := true, pulse := true }) ∧
    Runs (.chDisarm p0 3) up ∧ Runs (.chReload p0 3) (chan 3 { cfg := 0x08000000 }) ∧ Runs (.chStart p0 3) (chan 3 { cfg := 0x90000000 }) ∧
    Runs (.chStart p0 2) (chan 2 { cfg := 0x60000000 }) :=
  ⟨ends_runs ((h p0 3 (chan 3 { run := true, ie := 0x1_0000 }) rfl).1 (.inl rfl)), ends_runs ((h p0 3 up rfl).2.1 (.inl rfl)),
   ends_runs ((h p0 3 up rfl).2.2.1 (.inl rfl)), ends_runs ((h p0 3 (chan 3 { run := true }) rfl).2.2.1 (.inr (.inl rfl))),
   ends_runs ((h p0 3 (chan 3 { cfg := 0x78000000, run := true }) rfl).2.2.1 (by decide)),
   ends_runs ((h p0 3 (chan 3 { cfg := 0x08000000, run := true, armed := true }) rfl).2.2.1 (by decide)),
   ends_runs ((h p0 3 (chan 3 { cfg := 0x08000000, run := true, pulse := true }) rfl).2.2.1 (by decide)),
   ends_runs ((h p0 3 up rfl).2.2.2.1 (.inl rfl)), ends_runs ((h p0 3 (chan 3 { cfg := 0x08000000 }) rfl).2.2.2.2.1 rfl),
   ends_runs ((h p0 3 (chan 3 { cfg := 0x90000000 }) rfl).2.2.2.2.2 rfl (by decide) (.inl (by decide))),
   ends_runs ((h p0 2 (chan 2 { cfg := 0x60000000 }) rfl).2.2.2.2.2 rfl (by decide) (.inr (.inl rfl)))⟩
theorem witness_SharedCompareActs (h : Says.SharedCompareActs) :
    Runs (.placementHorizon 3) (chan 3 { cfg := 0x08000000, run := true, armed := true, tgt := 0x60_0141 }) ∧
    Runs (.placementHorizon 3) (chan 3 { cfg := 0x08000000, run := true, armed := true, tgt := 0x60_0041 }) :=
  ⟨ends_runs (h 3 (chan 3 { cfg := 0x08000000, run := true, armed := true, tgt := 0x60_0141 }) _ rfl rfl rfl rfl rfl rfl rfl),
   ends_runs (h 3 (chan 3 { cfg := 0x08000000, run := true, armed := true, tgt := 0x60_0041 }) _ rfl rfl rfl rfl rfl rfl rfl)⟩
theorem witness_TargetEdgeActs (h : Says.TargetEdgeActs) :
    Runs (.targetEdge 3) (chan 3 { cfg := 0x08000000, armed := true, horizon := true, edgeAt := 0x60_0041, act := .toggle, out := true }) ∧
    Runs (.targetEdge 3) (chan 3 { cfg := 0x08000000, armed := true, horizon := true, edgeAt := 0x60_0141, act := .pulse, actWidth := 9 }) :=
  ⟨ends_runs (h 3 (chan 3 { cfg := 0x08000000, armed := true, horizon := true, edgeAt := 0x60_0041, act := .toggle, out := true }) _ rfl rfl rfl rfl rfl),
   ends_runs (h 3 (chan 3 { cfg := 0x08000000, armed := true, horizon := true, edgeAt := 0x60_0141, act := .pulse, actWidth := 9 }) _ rfl rfl rfl rfl rfl)⟩
theorem witness_PulseEnds (h : Says.PulseEnds) :
    Runs (.pulseEnd 3) (chan 3 { cfg := 0x08000000, armed := true, horizon := true, pulse := true, out := true, endAt := 0x60_0041 }) ∧
    Runs (.pulseEnd 3) (chan 3 { cfg := 0x30000000, run := true, pulse := true, suppr := true, isLocal := true, once := true, endClk := 70001 }) ∧
    Runs (.pulseEnd 3) (chan 3 { run := true, pulse := true, out := true, isLocal := true, endClk := 70000 }) :=
  ⟨ends_runs ((h 3 (chan 3 { cfg := 0x08000000, armed := true, horizon := true, pulse := true, out := true, endAt := 0x60_0041 }) _ rfl rfl rfl).2 rfl rfl),
   ends_runs ((h 3 (chan 3 { cfg := 0x30000000, run := true, pulse := true, suppr := true, isLocal := true, once := true, endClk := 70001 }) (runClk 70001 _) rfl rfl rfl).1 rfl rfl),
   ends_runs ((h 3 (chan 3 { run := true, pulse := true, out := true, isLocal := true, endClk := 70000 }) _ rfl rfl rfl).1 rfl rfl)⟩
def capturing (c : Chan) : State := modPins (fun q => { q with chin := q.chin.set 3 17 }) (chan 3 { c with run := true })
def hearing (c : Chan) : State :=
  { modPins (fun q => { q with chin := q.chin.set 3 289 }) (chan 3 { c with run := true }) with win := up.win.set 1 { cfg := 0x4000_0000 } }
theorem witness_CaptureTaken (h : Obligations.CaptureTaken) :
    Runs (.capture 3 true 0x5F_FFFF) (capturing { cfg := 0x48000000, flags := 4 }) ∧ Runs (.capture 3 false 0x5F_FFFF) (capturing { cfg := 0x48004000, level := true }) ∧
    Runs (.capture 3 true 0x5F_FFFF) (capturing { cfg := 0x48002000 }) ∧ Runs (.capture 3 true 0x5F_FFFF) (capturing { cfg := 0x48006000 }) ∧
    Runs (.capture 3 true 0x5F_FFFF) (chan 3 {}) ∧ Runs (.capture 3 true 0x5F_FFFF) (capturing { cfg := 0x48006000, level := true }) ∧
    Runs (.capture 3 true 0x5F_FFFF) (hearing { cfg := 0x48006000 }) ∧
    (chinEdge 3 true 0x5F_FFFF (hearing {})).win[(1 : Fin 8)].leadAt = some 0x5F_FFFF :=
  ⟨ends_runs (((h 3 true 0x5F_FFFF (capturing { cfg := 0x48000000, flags := 4 }) _).2.2.2.2 (by decide) rfl (by decide) rfl rfl (by decide) rfl (by decide)).1 (by decide) (by decide)),
   ends_runs (((h 3 false 0x5F_FFFF (capturing { cfg := 0x48004000, level := true }) _).2.2.2.2 (by decide) rfl (by decide) rfl rfl (by decide) rfl (by decide)).1 (by decide) (by decide)),
   ends_runs (((h 3 true 0x5F_FFFF (capturing { cfg := 0x48002000 }) _).2.2.2.2 (by decide) rfl (by decide) rfl rfl (by decide) rfl (by decide)).2.2 (by decide)),
   ends_runs (((h 3 true 0x5F_FFFF (capturing { cfg := 0x48006000 }) _).2.2.2.2 (by decide) rfl (by decide) rfl rfl (by decide) rfl (by decide)).2.2 (by decide)),
   ends_runs ((h 3 true 0x5F_FFFF (chan 3 {}) up).1 (.inr ⟨rfl, rfl⟩)),
   ends_runs ((h 3 true 0x5F_FFFF (capturing { cfg := 0x48006000, level := true }) _).2.2.2.1 (by decide) rfl (by decide) rfl rfl rfl),
   ends_runs (((h 3 true 0x5F_FFFF (hearing { cfg := 0x48006000 }) _).2.2.2.2 (by decide) rfl (by decide) rfl rfl (by decide) rfl (by decide)).2.2 (by decide)),
   ((h 3 true 0x5F_FFFF (hearing {}) up).2.2.1 1 rfl).2.1 rfl⟩

def pinned (p : Fin 288) (x : Pin) : State := modPin p (fun _ => x) up
/-- A pin of channel 0 behind the matrix, which is on. -/
def routed (p : Fin 288) (x : Pin) (d : DomState) : State :=
  { modPins (fun q => { q with en := true, vioOk := 0xFF, vlvOk := true }) (pinned p { x with osel := 0x1000_0000 }) with dom := { state := d } }
theorem witness_EdgeReachesBall (h : Says.EdgeReachesBall) :
    Runs (.outputEdgeAtBall 287) (pinned 287 { edges := [(0x60_0050, true), (0x60_0041, true), (0x60_0060, false)], io := 0x200 }) ∧
    Runs (.outputEdgeAtBall 3) (routed 3 { edges := [(0x60_0081, false)], io := 0x200, row := 8, ball := .high } .run) ∧
    Runs (.outputEdgeAtBall 3) { routed 3 { edges := [(0x60_0041, true)], row := 8 } .run with rcd := { state := .replay } } ∧
    Runs (.outputEdgeAtBall 3) (routed 3 { edges := [(0x60_0041, false)], row := 8, ball := .high } .safe) :=
  ⟨ends_runs ((h 287 [(0x60_0050, true)] [(0x60_0060, false)] (0x60_0041, true)
     (pinned 287 { edges := [(0x60_0050, true), (0x60_0041, true), (0x60_0060, false)], io := 0x200 }) _ rfl rfl
     (by intro f hf; obtain rfl := List.mem_singleton.1 hf; rfl) (by intro f hf; obtain rfl := List.mem_singleton.1 hf; rfl) rfl rfl).1 (.inl rfl) |>.1 (.inl (by decide))),
   ends_runs ((h 3 [] [] (0x60_0081, false) (routed 3 { edges := [(0x60_0081, false)], io := 0x200, row := 8, ball := .high } .run) _ rfl rfl
     (fun _ hf => nomatch hf) (fun _ hf => nomatch hf) rfl rfl).1 (.inl (by decide)) |>.1 (.inl (by decide))),
   ends_runs ((h 3 [] [] (0x60_0041, true) { routed 3 { edges := [(0x60_0041, true)], row := 8 } .run with rcd := { state := .replay } } _ rfl rfl
     (fun _ hf => nomatch hf) (fun _ hf => nomatch hf) rfl rfl).1 (.inl (by decide)) |>.2 (by decide) (by decide)),
   ends_runs ((h 3 [] [] (0x60_0041, false) (routed 3 { edges := [(0x60_0041, false)], row := 8, ball := .high } .safe) _ rfl rfl
     (fun _ hf => nomatch hf) (fun _ hf => nomatch hf) rfl rfl).2 rfl (by decide) (by decide))⟩
def clipping (w : Option Stamp) (r : Nat) (d : DomState) : State :=
  routed 3 { pulses := [⟨0x60_0000, w, some 0x60_0041, true, true, none, false⟩], clip := 255, gcfg := 0x2400_0000, during := some (true, true), row := r, passNow := true } d
def clippedEarly : State := pinned 287 { pulses := [{ lead := 0x60_0300 }, { lead := 0x60_0000, clipAt := some 0x60_0041, till := some 0x60_0041, cut := true }] }
theorem witness_GuardClipActs (h : Says.GuardClipActs) :
    Runs (.guardClip 287) (pinned 287 { pulses := [⟨0x60_0000, none, some 0x60_0041, true, true, none, false⟩], clip := 255 }) ∧
    Runs (.guardClip 3) (clipping (some 0x42) 8 .safe) ∧ Runs (.guardClip 3) (clipping (some 0x41) 8 .run) ∧
    Runs (.guardClip 287) clippedEarly :=
  ⟨ends_runs (((h 287 0x60_0041 (pinned 287 { pulses := [⟨0x60_0000, none, some 0x60_0041, true, true, none, false⟩], clip := 255 }) _ rfl rfl rfl).1
     _ [] rfl rfl rfl (by decide)).1 (fun _ e => nomatch e) (.inl rfl)),
   ends_runs (((h 3 0x60_0041 (clipping (some 0x42) 8 .safe) _ rfl rfl rfl).1 _ [] rfl rfl rfl (by decide)).1 (by rintro _ ⟨⟩; decide) (.inr (by decide))),
   ends_runs (((h 3 0x60_0041 (clipping (some 0x41) 8 .run) _ rfl rfl rfl).1 _ [] rfl rfl rfl (by decide)).2 0x41 rfl (by decide) (by decide)),
   ends_runs ((h 287 0x60_0041 clippedEarly _ rfl rfl rfl).2 _ [{ lead := 0x60_0300 }] [] rfl rfl rfl (by decide) (by decide) rfl)⟩
def openSince (lead : Stamp) : Pulse := { lead := lead, counts := true }
theorem witness_BudgetWindowBegins (h : Says.BudgetWindowBegins) :
    Runs (.budgetWindow 3) (pinned 3 { forced := true, used := 9, bwexpNow := 4, gcfg := 0x2406_0000, budget := 7 }) ∧
    Runs (.budgetWindow 3) (pinned 3 { used := 9, bwexpNow := 5, gcfg := 0x2405_0000, pulses := [openSince 0x5F_FFFF], benNow := true, budgetNow := 5 }) :=
  ⟨ends_runs (h 3 (pinned 3 { forced := true, used := 9, bwexpNow := 4, gcfg := 0x2406_0000, budget := 7 }) (by decide)),
   ends_runs (h 3 (pinned 3 { used := 9, bwexpNow := 5, gcfg := 0x2405_0000, pulses := [openSince 0x5F_FFFF], benNow := true, budgetNow := 5 }) (by decide))⟩
def overBudget (m : Word) (b : Bool) : State :=
  { routed 3 { window := 0x60, row := 8, benNow := b, budgetNow := 120, used := 50, pulses := [openSince 0x60_0000], force := 255 } .run with
    dom := { state := .run, mask := m } }
theorem witness_BudgetForces (h : Says.BudgetForces) :
    Runs (.budgetForce 3) (overBudget 2 true) ∧ Runs (.budgetForce 3) (overBudget 0 true) ∧ Runs (.budgetForce 3) (overBudget 0 false) ∧
    ((overBudget 0 true).pin[(3 : Fin 288)]).forceAt = some 0x60_0046 ∧ ((overBudget 0 true).pin[(3 : Fin 288)]).usedAt 0x60_0046 = 120 :=
  have w := ((h 3 (overBudget 0 true)).2.2.2 (openSince 0x60_0000) rfl rfl rfl).1 rfl (by decide)
  ⟨ends_runs ((h 3 (overBudget 2 true)).1 0x60_0046 _ rfl rfl rfl rfl),
   ends_runs ((h 3 (overBudget 0 true)).1 0x60_0046 _ rfl rfl rfl rfl),
   ends_runs ((h 3 (overBudget 0 false)).2.1 rfl), w.1, w.2 (by decide) (by decide)⟩
def switching (b : Bool) : State :=
  { modPins (fun q => { q with en := !b, cmdEn := b, vioOk := 0xFF }) (pinned 3 { row := 3, ball := .high }) with later := [.matrix] }
set_option maxRecDepth 4000 in
theorem witness_MatrixSwitches (h : Says.MatrixSwitches) :
    Runs (.pinEnable p0) up ∧ Runs (.pinDisable p0) (switching true) ∧
    Runs (.pinDisable p0) { switching true with dom := { state := .run, observe := true } } ∧
    Runs (.pinEnable p0) (inDom .run) ∧ Runs (.pinDisable p0) { modPins (fun q => { q with ie := 0x100 }) up with dom := {} } ∧
    (advance 1 (switching true)).pins.en = true ∧ (advance 1 (switching false)).pin[(3 : Fin 288)].ball = .undriven 1 :=
  ⟨ends_runs ((h p0 up rfl).1 (.inl rfl) |>.1 rfl),
   ends_runs ((h p0 (switching true) rfl).1 (.inl rfl) |>.2 rfl),
   ends_runs ((h p0 { switching true with dom := { state := .run, observe := true } } rfl).1 (.inr rfl) |>.2 rfl),
   ends_runs ((h p0 (inDom .run) rfl).2.1 (.inl (by decide))),
   ends_runs ((h p0 { modPins (fun q => { q with ie := 0x100 }) up with dom := {} } rfl).2.2.1 (.inr rfl)),
   ((h p0 (switching true) rfl).2.2.2 rfl rfl).1,
   (((h p0 (switching false) rfl).2.2.2 rfl rfl).2.2 rfl rfl 3).2 (by decide)⟩
def matrixIs (b : Bool) : State := { modPins (fun q => { q with en := b, vioOk := 0xFF }) up with dom := { state := .run } }
theorem witness_MatrixWrites (h : Says.MatrixWrites) :
    Runs (.pinMatrixWrite p0 (0x2C_1000 + 4 * 287) 0xFFFF_FFFF) up ∧ Runs (.pinMatrixWrite p0 (0x2C_2000 + 4 * 287) 0xFFFF_FFFF) up ∧
    Runs (.pinMatrixWrite p0 (0x2C_2000 + 4 * 0) 0x0000_0BFF) (matrixIs false) ∧
    Runs (.pinMatrixWrite p0 (0x2C_3000 + 4 * 255) 0xFFFF_FF27) up ∧ Runs (.pinMatrixWrite p0 (0x2C_3000 + 4 * 255) 0x128) up ∧
    Runs (.pinMatrixWrite p0 (0x2C_4000 + 0x40 * 31 + 4 * 11) 0x127) up ∧
    Runs (.pinMatrixWrite p0 (0x2C_1000 + 4 * 287) 0) (matrixIs true) ∧
    Runs (.pinMatrixWrite p0 (0x2C_4000 + 0x40 * 31 + 4 * 11) 0) (matrixIs true) :=
  ⟨ends_runs ((h p0 287 255 31 11 0xFFFF_FFFF up rfl).1 (.inl rfl)).1, ends_runs ((h p0 287 255 31 11 0xFFFF_FFFF up rfl).1 (.inl rfl)).2.1,
   ends_runs ((h p0 0 255 31 11 0x0000_0BFF (matrixIs false) rfl).1 (.inr (.inr rfl))).2.1,
   ends_runs ((h p0 287 255 31 11 0xFFFF_FF27 up rfl).1 (.inl rfl)).2.2.1, ends_runs ((h p0 287 255 31 11 0x128 up rfl).1 (.inl rfl)).2.2.1,
   ends_runs ((h p0 287 255 31 11 0x127 up rfl).1 (.inl rfl)).2.2.2,
   ends_runs ((h p0 287 255 31 11 0 (matrixIs true) rfl).2 (by decide) rfl rfl _ (.head _)),
   ends_runs ((h p0 287 255 31 11 0 (matrixIs true) rfl).2 (by decide) rfl rfl _ (.tail _ (.tail _ (.tail _ (.head _)))))⟩
theorem witness_IoSupplies (h : Says.IoSupplies) :
    Runs (.vioLoss 7) (modPins (fun q => { q with vioOk := 0x80 }) (pinned 255 { row := 3, ball := .high })) ∧ Runs (.vioReturn ⟨7, .v33⟩) up ∧
    Runs (.vioReturn ⟨7, .v18⟩) (modPins (fun q => { q with vioOk := 0x80 }) up) ∧
    Runs .vlvLoss (modPins (fun q => { q with vlvOk := true }) (pinned 287 { row := 3, ball := .high })) ∧ Runs .vlvReturn up :=
  ⟨ends_runs ((h 7 .v18 (modPins (fun q => { q with vioOk := 0x80 }) (pinned 255 { row := 3, ball := .high }))).1 (by decide)),
   ends_runs ((h 7 .v33 up).2.1 (by decide)),
   ends_runs ((h 7 .v18 (modPins (fun q => { q with vioOk := 0x80 }) up)).2.2.1 (by decide)),
   ends_runs ((h 7 .v18 (modPins (fun q => { q with vlvOk := true }) (pinned 287 { row := 3, ball := .high }))).2.2.2.1 rfl), ends_runs ((h 7 .v18 up).2.2.2.2 rfl)⟩

def cascade (k : Fin 128) : State := modCh (hiChan k) (fun _ => { cfg := 0x6000_0000, cnt := 3, cap := 4 }) (modCh (loChan k) (fun _ => { cnt := 5, cap := 6 }) up)
theorem witness_LowReadLatches (h : Says.LowReadLatches) :
    Runs (.lowReadLatch 0 .tbNow) up ∧ Runs (.lowReadLatch 0 .tbFrame) { up with shadows := List.replicate 8 ⟨7, .tbNow, 5, true⟩ } ∧
    Runs (.lowReadLatch 0 (.chCapt 255)) up ∧ Runs (.lowReadLatch 0 (.chTgt 255)) up ∧ Runs (.lowReadLatch 0 (.chCnt 127)) (cascade 127) ∧
    Runs (.lowReadLatch 0 (.chCap 127)) (cascade 127) ∧ Runs (.lowReadLatch 0 (.wtTooth 3)) { up with shadows := [⟨0, .tbNow, 5, true⟩] } :=
  ⟨does_runs (h 0 .tbNow _ up rfl rfl rfl), does_runs (h 0 .tbFrame _ { up with shadows := List.replicate 8 ⟨7, .tbNow, 5, true⟩ } rfl rfl rfl),
   does_runs (h 0 (.chCapt 255) _ up rfl rfl rfl), does_runs (h 0 (.chTgt 255) _ up rfl rfl rfl),
   does_runs (h 0 (.chCnt 127) _ (cascade 127) rfl rfl ⟨rfl, by decide⟩), does_runs (h 0 (.chCap 127) _ (cascade 127) rfl rfl ⟨rfl, by decide⟩),
   does_runs (h 0 (.wtTooth 3) _ { up with shadows := [⟨0, .tbNow, 5, true⟩] } rfl rfl rfl)⟩
def shadowed : State := { up with shadows := [⟨1, .tbNow, 4, true⟩, ⟨0, .tbNow, 5, true⟩] }
theorem witness_HighReadTakesShadow (h : Says.HighReadTakesShadow) :
    Runs (.highReadShadow 0 .tbNow) shadowed ∧ Runs (.highReadShadow 0 .tbFrame) shadowed ∧ Runs (.highReadShadow 2 (.chCnt 127)) (cascade 127) :=
  ⟨does_runs ((h 0 .tbNow 5 [⟨1, .tbNow, 4, true⟩] [] shadowed rfl rfl (by simp)).1 rfl (by decide)),
   does_runs ((h 0 .tbFrame 5 [] [] shadowed rfl rfl (by simp)).2 (by decide)),
   does_runs ((h 2 (.chCnt 127) 5 [] [] (cascade 127) rfl rfl (by simp; decide)).2 (by decide))⟩
def refused3 : State := { modCh 3 (fun c => { c with supcnt := 9, cmd := ⟨.locked, 7⟩ }) up with dom := { cmd := ⟨.argInvalid, 255⟩ } }
theorem witness_ReadClearRegisters (h : Says.ReadClearRegisters) :
    Runs (.rcRead p0 (0x8_0004 + 64 * 3) 15) refused3 ∧ Runs (.rcRead p0 0x10C 15) refused3 ∧ Runs (.rcRead .spi 0x10C 1) refused3 :=
  ⟨does_runs (h p0 3 15 refused3 rfl rfl).1, does_runs (h p0 3 15 refused3 rfl rfl).2, does_runs (h .spi 3 1 refused3 rfl rfl).2⟩
theorem witness_RegisterWrites (h : Says.RegisterWrites) :
    Runs (.registerWrite p0 0x110 7 5) up ∧ Runs (.registerWrite p0 (0x8_0014 + 64 * 255) 0xF 5) up ∧ Runs (.registerWrite p0 (0x8_001C + 64 * 255) 0xF 5) up ∧
    Runs (.registerWrite p0 (0x8_0034 + 64 * 255) 0xF 5) up ∧ Runs (.registerWrite p0 0xC 0xF 5) up ∧ Runs (.registerWrite p0 0x110 0xF 5) up ∧
    Runs (.registerWrite p0 0x110 0xF 5) { up with sys := { ready := true, lock := true } } ∧ Runs (.registerWrite .spi 0x114 0xF 3) up :=
  ⟨does_runs ((h p0 255 5 up rfl rfl).1 0x110 7 (by decide)), does_runs (h p0 255 5 up rfl rfl).2.1, does_runs (h p0 255 5 up rfl rfl).2.2.1,
   does_runs (h p0 255 5 up rfl rfl).2.2.2.1, does_runs (h p0 255 5 up rfl rfl).2.2.2.2.1, does_runs (h p0 255 5 up rfl rfl).2.2.2.2.2.1,
   does_runs (h p0 255 5 { up with sys := { ready := true, lock := true } } rfl rfl).2.2.2.2.2.1, does_runs (h .spi 255 3 up rfl rfl).2.2.2.2.2.2⟩
theorem witness_SpiRegisters (h : Says.SpiRegisters) :
    Runs .spiStatus up ∧ Runs .spiBadCommand up ∧ Runs (.spiRegisterRead (BitVec.ofNat 24 (0x8_000C + 64 * (255 : Fin 256).val)) ⟨[true], false⟩) up ∧
    Runs (.spiRegisterRead (BitVec.ofNat 24 (0x8_000C + 64 * (255 : Fin 256).val)) ⟨[false], true⟩) up ∧
    Runs (.spiRegisterWrite (BitVec.ofNat 24 (0x8_0014 + 64 * (255 : Fin 256).val)) [5] false) up ∧
    Runs (.spiRegisterRead 0x0F_FFFD ⟨[false], false⟩) up ∧ Runs (.spiRegisterWrite 0x0F_FFFE [5, 6] true) up :=
  ⟨does_runs (h 255 5 up rfl rfl).1, does_runs (h 255 5 up rfl rfl).2.1, does_runs ((h 255 5 up rfl rfl).2.2.1 true false),
   does_runs ((h 255 5 up rfl rfl).2.2.1 false true), does_runs ((h 255 5 up rfl rfl).2.2.2.1 false),
   does_runs ((h 255 5 up rfl rfl).2.2.2.2.1 0x0F_FFFD [false] false (by decide)),
   does_runs ((h 255 5 up rfl rfl).2.2.2.2.2 0x0F_FFFE [5, 6] true (by decide))⟩
def stored24 : State := modCis (fun c => { c with mem := [(0xFF_FFF9, 3)], flipped := [(7, 1)], poison := [9] }) up
theorem witness_SpiCistern (h : Says.SpiCistern) :
    Runs (.spiCisternRead 0xFF_FFF8 ⟨[false], false⟩) stored24 ∧ Runs (.spiCisternRead 0xFF_FFFC ⟨[false], false⟩) stored24 ∧
    Runs (.spiCisternWrite 0xFF_FFFC [0x1234_5678] false) stored24 ∧ Runs (.spiCisternWrite 0 [0] false) up :=
  have a (x : BitVec 24) (v : Word) (i : bit stored24.cis.init (bankOf (x.toNat / 8)) = false)
      (o : fld (stored24.cis.banks[bankOf (x.toNat / 8)]).own 31 30 ≤ 1) (c : Says.clean stored24 (x.toNat / 8)) (m : x.toNat % 4 = 0) :=
    h x v stored24 rfl rfl rfl rfl rfl (by intro r hr; exact nomatch hr) (by decide) i o c m (by decide)
  ⟨does_runs (a 0xFF_FFF8 5 rfl (by decide) ⟨by decide, by decide⟩ rfl).1, does_runs (a 0xFF_FFFC 5 rfl (by decide) ⟨by decide, by decide⟩ rfl).1,
   does_runs (a 0xFF_FFFC 0x1234_5678 rfl (by decide) ⟨by decide, by decide⟩ rfl).2,
   does_runs (h 0 0 up rfl rfl rfl rfl rfl (by intro r hr; exact nomatch hr) (by decide) rfl (by decide) ⟨by decide, by decide⟩ rfl (by decide)).2⟩

def eng (e : Fin 16) (x : Engine) : State := modTe e (fun _ => x) up
def q0 : Entry := { num := 5, arg := 6, deadline := 0x70, seq := 0 }
theorem witness_EngineCommandsAccepted (h : Says.EngineCommandsAccepted) :
    Runs (.teStart p0 15) (eng 15 {}) ∧ Runs (.teStart p0 15) (eng 15 { state := .halted, ready := [q0] }) ∧
    Runs (.teStop p0 15) (eng 15 { state := .run, ready := [{ q0 with running := true }], sb := [.st 3 4], dq := [.st 5 6], disc := 255 }) ∧
    Runs (.teHalt p0 15) (eng 15 { state := .run, ready := [{ q0 with running := true }], sb := [.st 3 4], dq := [.st 5 6], lc := 4 }) ∧
    Runs (.teHalt p0 15) (eng 15 { state := .halted, ownHalt := some up.tb.clk }) ∧
    Runs (.teVerify p0 15) (eng 15 { state := .mchk, vdone := true }) ∧ Runs (.teClear p0 15) (eng 15 { state := .mchk, vgood := true, lc := 4 }) ∧
    Runs (.teStart p0 15) (eng 15 { state := .run, ie := 0x200 }) ∧ Runs (.teStop p0 15) (eng 15 {}) ∧
    Runs (.teHalt p0 15) (eng 15 { state := .halted, ownHalt := some 3 }) ∧ Runs (.teVerify p0 15) (eng 15 {}) ∧ Runs (.teClear p0 15) (eng 15 { state := .mchk }) :=
  ⟨ends_runs ((h p0 15 (eng 15 {}) rfl).1 (.inl rfl)), ends_runs ((h p0 15 (eng 15 { state := .halted, ready := [q0] }) rfl).1 (.inr rfl)),
   ends_runs ((h p0 15 (eng 15 { state := .run, ready := [{ q0 with running := true }], sb := [.st 3 4], dq := [.st 5 6], disc := 255 }) rfl).2.1 (.inl rfl)),
   ends_runs ((h p0 15 (eng 15 { state := .run, ready := [{ q0 with running := true }], sb := [.st 3 4], dq := [.st 5 6], lc := 4 }) rfl).2.2.1 rfl),
   ends_runs ((h p0 15 (eng 15 { state := .halted, ownHalt := some up.tb.clk }) rfl).2.2.2.1 rfl rfl rfl),
   ends_runs ((h p0 15 (eng 15 { state := .mchk, vdone := true }) rfl).2.2.2.2.1 rfl rfl),
   ends_runs ((h p0 15 (eng 15 { state := .mchk, vgood := true, lc := 4 }) rfl).2.2.2.2.2.1 rfl rfl),
   ends_runs ((h p0 15 (eng 15 { state := .run, ie := 0x200 }) rfl).2.2.2.2.2.2.1 rfl (.inl rfl)), ends_runs ((h p0 15 (eng 15 {}) rfl).2.2.2.2.2.2.2.1 (.inl rfl)),
   ends_runs ((h p0 15 (eng 15 { state := .halted, ownHalt := some 3 }) rfl).2.2.2.2.2.2.2.2.1 (.inr (.inr (by decide)))),
   ends_runs ((h p0 15 (eng 15 {}) rfl).2.2.2.2.2.2.2.2.2.1 (by decide)), ends_runs ((h p0 15 (eng 15 { state := .mchk }) rfl).2.2.2.2.2.2.2.2.2.2 (by decide))⟩
theorem witness_VerifyEnds (h : Says.VerifyEnds) :
    Runs (.verifyDone 15) (eng 15 { state := .mchk, vstart := some 68000, store := [(3, 1, 1)] }) ∧
    Runs (.verifyDone 15) (eng 15 { state := .mchk, vstart := some 68000, store := [(3, 1, 0)] }) ∧
    Runs (.verifyDone 15) (eng 15 { state := .mchk, vstart := some 68000, vwrite := true }) :=
  ⟨ends_runs (h 15 68000 (eng 15 { state := .mchk, vstart := some 68000, store := [(3, 1, 1)] }) _ rfl rfl (by decide) rfl),
   ends_runs (h 15 68000 (eng 15 { state := .mchk, vstart := some 68000, store := [(3, 1, 0)] }) _ rfl rfl (by decide) rfl),
   ends_runs (h 15 68000 (eng 15 { state := .mchk, vstart := some 68000, vwrite := true }) _ rfl rfl (by decide) rfl)⟩
def disp5 (d : Word) : Vector Word 64 := (Vector.replicate 64 0).set 47 d
theorem witness_RequestEntersReadySet (h : Obligations.RequestEntersReadySet) :
    Runs (.requestPost 15 63 9) (eng 15 { disc := 255 }) ∧ Runs (.teDoorbellWrite p0 15 7 9) (eng 15 { state := .run }) ∧
    Runs (.teDoorbellWrite p0 15 7 9) (eng 15 { state := .run, disp := disp5 0x8010_07FF, ready := List.replicate 64 q0 }) ∧
    Runs (.requestPost 15 47 9) (eng 15 { state := .run, disp := disp5 0x8010_07FF, ready := List.replicate 63 q0, nextSeq := 64 }) ∧
    Runs (.teDoorbellWrite .spi 15 7 9) (eng 15 { state := .halted, disp := disp5 0x8001_07FF, ready := [q0, { num := 47, arg := 9, deadline := 0x70, seq := 2 }], nextSeq := 3 }) :=
  ⟨ends_runs ((h _ 15 63 9 (eng 15 { disc := 255 }) (.inl ⟨rfl, by decide⟩)).1 (.inl rfl)),
   ends_runs (((h _ 15 47 9 (eng 15 { state := .run }) (.inr ⟨p0, 7, rfl, rfl, rfl⟩)).2 (.inl rfl)).1 (by decide)),
   ends_runs (((h _ 15 47 9 (eng 15 { state := .run, disp := disp5 0x8010_07FF, ready := List.replicate 64 q0 }) (.inr ⟨p0, 7, rfl, rfl, rfl⟩)).2
     (.inl rfl)).2.1 (by decide) (by decide) (by decide)),
   ends_runs (((h _ 15 47 9 (eng 15 { state := .run, disp := disp5 0x8010_07FF, ready := List.replicate 63 q0, nextSeq := 64 }) (.inl ⟨rfl, by decide⟩)).2
     (.inl rfl)).2.2.1 (by decide) (by decide) (by decide)),
   ends_runs (((h _ 15 47 9 (eng 15 { state := .halted, disp := disp5 0x8001_07FF, ready := [q0, { num := 47, arg := 9, deadline := 0x70, seq := 2 }], nextSeq := 3 })
     (.inr ⟨.spi, 7, rfl, rfl, rfl⟩)).2 (.inr rfl)).2.2.2 (by decide) [q0] [] { num := 47, arg := 9, deadline := 0x70, seq := 2 } rfl (by decide) (by decide) (by decide))⟩
/-- An engine in cycle 256 of the frame. -/
def past (e : Fin 16) (x : Engine) : State := { eng e x with tb := { running := true, clk := 70000, now := 0x60_4000 } }
def busyWith (n : Nat) : List Entry := { q0 with seq := 0, running := true } :: (List.range n).map fun k => { q0 with seq := k + 1, slot := true, arg := 9 }
theorem witness_PreemptionTested (h : Says.PreemptionTested) :
    Runs (.requestPost 15 47 8) (past 15 { state := .run, disp := disp5 0xC001_07FF, ready := busyWith 3, nextSeq := 4 }) ∧
    Runs (.teDoorbellWrite p0 15 7 8) (past 15 { state := .run, disp := disp5 0xC001_07FF, ready := busyWith 4, nextSeq := 5 }) ∧
    Runs (.requestPost 15 47 8) (eng 15 { state := .run, disp := disp5 0xC001_07FF, ready := busyWith 3, nextSeq := 4 }) :=
  ⟨ends_runs ((h _ 15 47 8 _ (past 15 { state := .run, disp := disp5 0xC001_07FF, ready := busyWith 3, nextSeq := 4 }) (.inl ⟨rfl, by decide⟩)
     rfl rfl (by decide) (by decide) (by decide) (by decide) (by decide) (by decide)).1 rfl (by decide) |>.1 (by decide) rfl),
   ends_runs ((h _ 15 47 8 _ (past 15 { state := .run, disp := disp5 0xC001_07FF, ready := busyWith 4, nextSeq := 5 }) (.inr ⟨p0, 7, rfl, rfl, rfl⟩)
     rfl rfl (by decide) (by decide) (by decide) (by decide) (by decide) (by decide)).1 rfl (by decide) |>.2 (by decide)),
   ends_runs ((h _ 15 47 8 _ (eng 15 { state := .run, disp := disp5 0xC001_07FF, ready := busyWith 3, nextSeq := 4 }) (.inl ⟨rfl, by decide⟩)
     rfl rfl (by decide) (by decide) (by decide) (by decide) (by decide) (by decide)).2 (.inr (by decide)))⟩
def two (q : Entry) : Engine := { state := .run, ready := [{ q0 with seq := 1 }, q], lc := 7, nextSeq := 3, sb := [] }
def fresh3 : Entry := { num := 3, arg := 9, deadline := 0x6F, seq := 2, posted := 70001, entry := 44 }
def saved3 : Entry := { num := 3, arg := 9, deadline := 0xFFFF_FFFF, seq := 2, ctx := some { lc := 3, pc := 2 }, slot := true }
theorem witness_DispatchLoadsFirst (h : Says.DispatchLoadsFirst) :
    Runs (.dispatch 15) (past 15 { two fresh3 with free := 70002 }) ∧ Runs (.dispatch 15) (past 15 { two saved3 with free := 70000 }) :=
  ⟨ends_runs (h 15 [{ q0 with seq := 1 }] [] fresh3 1 (past 15 { two fresh3 with free := 70002 }) _ rfl rfl rfl (by decide)
     ⟨_, .head _, rfl, rfl⟩ (by decide) (by decide) rfl (by decide) rfl rfl rfl (by decide) (by simp [q0, fresh3, Says.earlier])),
   ends_runs (h 15 [{ q0 with seq := 1 }] [] saved3 1 (past 15 { two saved3 with free := 70000 }) _ rfl rfl rfl (by decide)
     ⟨_, .head _, rfl, rfl⟩ (by decide) (by decide) rfl (by decide) rfl rfl rfl (by decide) (by simp [q0, saved3, Says.earlier]))⟩
def run (q : Entry) : Engine :=
  { state := .run, ready := [{ q with seq := 0, running := true }, { q0 with seq := 1, deadline := 3 }, { q0 with seq := 2, deadline := 1 }],
    preempt := some 1, preemptAt := 70001, free := 70000, sb := [.st 3 4], dq := [.st 5 6], snap := { lc := 9, pc := 4 }, nextSeq := 3 }
theorem witness_PreemptionAbandons (h : Says.PreemptionAbandons) : Runs (.preemption 15) (past 15 (run q0)) :=
  ends_runs (h 15 { q0 with running := true } { q0 with seq := 1, deadline := 3 } (past 15 (run q0)) _ rfl rfl rfl rfl (by decide) rfl rfl
    (by decide) (by decide) (by decide) rfl rfl (by decide))
def keeping (f : Bool) : State :=
  eng 15 { hk := true, state := .run, framereq := f, disp := (Vector.replicate 64 0).set 63 0x8001_0005, wdog := 2, crossed := 2,
           ready := [{ q0 with waitf := some 0x60, running := true }, { q0 with seq := 1, waitf := some 0x61 }], nextSeq := 2 }
theorem witness_HousekeepingEnds (h : Says.HousekeepingEnds) :
    Runs (.housekeepingEnd 15) (keeping false) ∧ Runs (.housekeepingEnd 15) (keeping true) :=
  ⟨ends_runs (h 15 (keeping false) _ rfl rfl rfl (by decide) rfl rfl), ends_runs (h 15 (keeping true) _ rfl rfl rfl (by decide) rfl rfl)⟩
theorem witness_RunawayAbandons (h : Says.RunawayAbandons) : Runs (.runaway 15) (past 15 { run q0 with runaway := true, fdisc := 255 }) :=
  ends_runs (h 15 { q0 with running := true } (past 15 { run q0 with runaway := true, fdisc := 255 }) rfl rfl (by decide) rfl)
theorem witness_MachineCheckTaken (h : Says.MachineCheckTaken) :
    Runs (.machineCheck 15) (past 15 { run q0 with pc := 0x7FF, store := [(0x7FF, 0x101, 1)] }) :=
  ends_runs (h 15 (past 15 { run q0 with pc := 0x7FF, store := [(0x7FF, 0x101, 1)] }) _ rfl rfl (by decide) rfl rfl (by decide) (by decide) (by decide))
def draining (d : SideEffect) (w : Well) : State :=
  modWell 63 (fun _ => w) (modCis (fun c => { c with banks := Vector.replicate 8 { own := 0x8000_8000 } }) (eng 15 { dq := [d, .st 1 1], dqAt := 70001 }))
theorem witness_DrainQueueDelivers (h : Says.DrainQueueDelivers) :
    Runs (.drainQueueDelivery 15) (draining (.st (0x1F_FFFF) 5) {}) ∧
    Runs (.drainQueueDelivery 15) (draining (.pop 63 true) { en := true, cfg := 0x007C_0000, items := [mkItem 3 0, mkItem 4 0] }) ∧
    Runs (.drainQueueDelivery 15) (draining (.pop 63 true) { en := true, items := [mkItem 3 0] }) ∧
    Runs (.drainQueueDelivery 15) (draining (.push 63 8) { en := true, cfg := 0x7C00_0000, items := List.replicate 14 (mkItem 3 0) }) ∧
    Runs (.drainQueueDelivery 15) (draining (.chan 255 0x14 8 9) {}) ∧
    Runs (.drainQueueDelivery 15) (modSys (fun q => { q with pwr := .doze }) (draining (.chan 255 0x14 8 9) {})) :=
  ⟨ends_runs (((h 15 [.st 1 1] (0x1F_FFFF) 5 0 0 0 0 (draining (.st (0x1F_FFFF) 5) {}) _).2 rfl rfl (by decide) rfl rfl).1 rfl (by decide)),
   ends_runs (((h 15 [.st 1 1] 0 0 63 0 0 0 (draining (.pop 63 true) { en := true, cfg := 0x007C_0000, items := [mkItem 3 0, mkItem 4 0] }) _).2 rfl rfl (by decide) rfl rfl).2.1 rfl rfl (by decide)),
   ends_runs (((h 15 [.st 1 1] 0 0 63 0 0 0 (draining (.pop 63 true) { en := true, items := [mkItem 3 0] }) _).2 rfl rfl (by decide) rfl rfl).2.2.1 rfl (.inr (by decide))),
   ends_runs (((h 15 [.st 1 1] 0 8 63 0 0 0 (draining (.push 63 8) { en := true, cfg := 0x7C00_0000, items := List.replicate 14 (mkItem 3 0) }) _).2 rfl rfl (by decide) rfl rfl).2.2.2.1 rfl rfl
     (by decide) rfl (by decide) (by decide)),
   ends_runs (((h 15 [.st 1 1] 0 0 0 255 8 9 (draining (.chan 255 0x14 8 9) {}) _).2 rfl rfl (by decide) rfl rfl).2.2.2.2 rfl),
   ends_runs ((h 15 [] 0 0 0 255 8 9 (modSys (fun q => { q with pwr := .doze }) (draining (.chan 255 0x14 8 9) {})) up).1 (by decide))⟩
theorem witness_PendingValueArrives (h : Says.PendingValueArrives) :
    Runs (.pendingValueArrival 15) (eng 15 { run q0 with pend := [⟨1, some 6, true, false, some 0, none, none⟩, ⟨2, some 7, true, false, some 0, none, some (0x1_0000_0005, true)⟩] }) ∧
    Runs (.pendingValueArrival 15) (eng 15 { run q0 with pend := [⟨1, some 6, true, false, some 0, none, none⟩, ⟨2, some 7, true, false, none, none, some (0x1_0000_0005, true)⟩] }) :=
  ⟨ends_runs ((h 15 ⟨2, some 7, true, false, some 0, none, some (0x1_0000_0005, true)⟩ [⟨1, some 6, true, false, some 0, none, none⟩] [] 0x1_0000_0005 true
     (eng 15 { run q0 with pend := [⟨1, some 6, true, false, some 0, none, none⟩, ⟨2, some 7, true, false, some 0, none, some (0x1_0000_0005, true)⟩] }) rfl (by decide) (by decide) rfl).2.1 7 0 rfl rfl rfl rfl),
   ends_runs ((h 15 ⟨2, some 7, true, false, none, none, some (0x1_0000_0005, true)⟩ [⟨1, some 6, true, false, some 0, none, none⟩] [] 0x1_0000_0005 true
     (eng 15 { run q0 with pend := [⟨1, some 6, true, false, some 0, none, none⟩, ⟨2, some 7, true, false, none, none, some (0x1_0000_0005, true)⟩] }) rfl (by decide) (by decide) rfl).2.2 rfl rfl)⟩

def coded (d : EngState) : State := eng 15 { state := d, store := [(3, 1, 1), (2047, 5, 0)], inj := 6, vgood := true }
theorem witness_MicrocodeWindow (h : Obligations.MicrocodeWindow) :
    Runs (.microcodeDwordStage p0 15 2047 2 5) (coded .stopped) ∧ Runs (.microcodeWordStore .spi 15 2047 5) (coded .halted) ∧
    Runs (.microcodeWordStore p0 15 2 5) (coded .mchk) ∧ Runs (.microcodeDwordStage p0 15 2047 2 5) (coded .run) ∧
    Runs (.microcodeWordStore p0 15 2047 5) (coded .run) ∧ Runs (.microcodeParityRead p0 15 3) (coded .stopped) :=
  ⟨does_runs ((h p0 15 2047 2 5 (coded .stopped) rfl rfl (by decide)).1 (by decide)),
   does_runs ((h .spi 15 2047 2 5 (coded .halted) rfl rfl (by decide)).2.1 (by decide)),
   does_runs ((h p0 15 2 2 5 (coded .mchk) rfl rfl (by decide)).2.1 (by decide)),
   does_runs ((h p0 15 2047 2 5 (coded .run) rfl rfl (by decide)).2.2.1 rfl _ (.head _)),
   does_runs ((h p0 15 2047 2 5 (coded .run) rfl rfl (by decide)).2.2.1 rfl _ (.tail _ (.head _))),
   does_runs (h p0 15 3 0 0 (coded .stopped) rfl rfl (by decide)).2.2.2⟩


/-- A microword by its fields: position, value. -/
def mw (l : List (Nat × Nat)) : Microword := BitVec.ofNat 128 (l.foldl (fun t p => t + p.2 * 2 ^ p.1) 0)
/-- Engine 15 is about to execute `w`; its registers hold multiples of `m`. -/
def micro (m : Nat) (w : Microword) (x : Engine) : State :=
  modTe 15 (fun _ => { x with
    state := .run, pc := 0x7FF, ready := { q0 with running := true } :: x.ready, store := [(0x7FF, w, parityBits w)]
    g := Vector.ofFn fun i => BitVec.ofNat 32 (i.val * m) })
    (modCis (fun c => { c with banks := Vector.replicate 8 { own := 0x8000_8000 } }) { up with tb := { running := true, clk := 70000, now := 0x60_4000 } })
def aluWord (k : Nat) : Microword := mw [(102, k), (97, 9), (92, 1), (87, 2), (108, 3)]
def carry : Engine := { flags := 0xFF24, lc := 3, nextSeq := 1 }
theorem witness_AluComputes (h : Obligations.AluComputes) :
    Runs (.aluNop 15) (micro 0x1111_1111 (aluWord 0) carry) ∧ Runs (.aluAdc 15) (micro 0x1111_1111 (aluWord 4) carry) ∧
    Runs (.aluCmp 15) (micro 0x1111_1111 (aluWord 19) carry) ∧ Runs (.aluRor 15) (micro 0x1111_1111 (aluWord 18) carry) ∧
    Runs (.aluSel 15) (micro 0x1111_1111 (aluWord 31) carry) ∧ Runs (.aluPassb 15) (micro 0x1111_1111 (mw [(102, 2), (92, 9), (87, 17)]) carry) :=
  have a (k : Nat) (r : Says.runsWord 15 (aluWord k) (Says.yOf 15 (aluWord k) (micro 0x1111_1111 (aluWord k) carry)) (micro 0x1111_1111 (aluWord k) carry))
    (m : uMem (aluWord k) = 0) := h 15 (aluWord k) (micro 0x1111_1111 (aluWord k) carry) r m
  ⟨ends_runs (a 0 ⟨rfl, by decide, by decide, rfl, rfl, rfl, rfl, by decide, by decide⟩ rfl (.aluNop, 0) (by simp [Says.aluRows]) rfl),
   ends_runs (a 4 ⟨rfl, by decide, by decide, rfl, rfl, rfl, rfl, by decide, by decide⟩ rfl (.aluAdc, 4) (by simp [Says.aluRows]) rfl),
   ends_runs (a 19 ⟨rfl, by decide, by decide, rfl, rfl, rfl, rfl, by decide, by decide⟩ rfl (.aluCmp, 19) (by simp [Says.aluRows]) rfl),
   ends_runs (a 18 ⟨rfl, by decide, by decide, rfl, rfl, rfl, rfl, by decide, by decide⟩ rfl (.aluRor, 18) (by simp [Says.aluRows]) rfl),
   ends_runs (a 31 ⟨rfl, by decide, by decide, rfl, rfl, rfl, rfl, by decide, by decide⟩ rfl (.aluSel, 31) (by simp [Says.aluRows]) rfl),
   ends_runs (h 15 (mw [(102, 2), (92, 9), (87, 17)]) (micro 0x1111_1111 (mw [(102, 2), (92, 9), (87, 17)]) carry)
     ⟨rfl, by decide, by decide, rfl, rfl, rfl, rfl, by decide, by decide⟩ rfl (.aluPassb, 2) (by simp [Says.aluRows]) rfl)⟩
theorem witness_SourcesOfTable (h : Says.SourcesOfTable) :
    source (micro 1 (mw [(76, 15), (86, 1)]) carry) 15 (mw [(76, 15), (86, 1)]) 30 = 0 :=
  (h 15 (mw [(76, 15), (86, 1)]) { q0 with running := true } (micro 1 (mw [(76, 15), (86, 1)]) carry) rfl).2.2.2.2.1
def seqWord (k : Nat) (more : List (Nat × Nat)) : Microword := mw ([(124, k), (113, 0x7F5), (102, 1), (97, 5), (87, 16)] ++ more)
theorem witness_SequencerBranches (h : Says.SequencerBranches) :
    Runs (.seqNext 15) (micro 3 (seqWord 0 []) carry) ∧ Runs (.seqGoto 15) (micro 3 (seqWord 1 []) carry) ∧
    Runs (.seqBrt 15) (micro 3 (seqWord 2 [(108, 15)]) carry) ∧ Runs (.seqBrt 15) (micro 0 (seqWord 2 [(108, 15)]) carry) ∧
    Runs (.seqBrf 15) (micro 0 (seqWord 3 [(108, 1)]) carry) ∧ Runs (.seqDisp 15) (micro 3 (seqWord 4 []) carry) ∧
    Runs (.seqLoop 15) (micro 3 (seqWord 5 [(64, 1)]) carry) ∧ Runs (.seqLoop 15) (micro 0 (seqWord 5 []) carry) :=
  have a (m k : Nat) (l : List (Nat × Nat)) (r : Says.runsWord 15 (seqWord k l) (Says.yOf 15 (seqWord k l) (micro m (seqWord k l) carry)) (micro m (seqWord k l) carry))
    (y : uYield (seqWord k l) = false) := h 15 (seqWord k l) (micro m (seqWord k l) carry) r (fun e => absurd e (by simp [y]))
  ⟨ends_runs ((a 3 0 [] ⟨rfl, by decide, by decide, rfl, rfl, rfl, rfl, by decide, by decide⟩ rfl).1 rfl),
   ends_runs ((a 3 1 [] ⟨rfl, by decide, by decide, rfl, rfl, rfl, rfl, by decide, by decide⟩ rfl).2.1 rfl),
   ends_runs ((a 3 2 [(108, 15)] ⟨rfl, by decide, by decide, rfl, rfl, rfl, rfl, by decide, by decide⟩ rfl).2.2.1 rfl),
   ends_runs ((a 0 2 [(108, 15)] ⟨rfl, by decide, by decide, rfl, rfl, rfl, rfl, by decide, by decide⟩ rfl).2.2.1 rfl),
   ends_runs ((a 0 3 [(108, 1)] ⟨rfl, by decide, by decide, rfl, rfl, rfl, rfl, by decide, by decide⟩ rfl).2.2.2.1 rfl),
   ends_runs ((a 3 4 [] ⟨rfl, by decide, by decide, rfl, rfl, rfl, rfl, by decide, by decide⟩ rfl).2.2.2.2.1 rfl),
   ends_runs ((a 3 5 [(64, 1)] ⟨rfl, by decide, by decide, rfl, rfl, rfl, rfl, by decide, by decide⟩ rfl).2.2.2.2.2 rfl).1,
   ends_runs ((a 0 5 [] ⟨rfl, by decide, by decide, rfl, rfl, rfl, rfl, by decide, by decide⟩ rfl).2.2.2.2.2 rfl).2⟩
theorem witness_SequencerEnds (h : Says.SequencerEnds) :
    Runs (.seqWaitf 15) (micro 3 (seqWord 6 []) { carry with sb := [.st 3 4] }) ∧ Runs (.seqExit 15) (micro 3 (seqWord 7 []) carry) ∧
    Runs (.seqHalt 15) (micro 3 (seqWord 8 []) { carry with ready := [{ q0 with seq := 9 }] }) :=
  ⟨ends_runs ((h 15 (seqWord 6 []) { q0 with running := true } (micro 3 (seqWord 6 []) { carry with sb := [.st 3 4] }) ⟨rfl, by decide, by decide, rfl, rfl, rfl, rfl, by decide, by decide⟩
     (by decide) rfl (by decide)).1 rfl),
   ends_runs ((h 15 (seqWord 7 []) { q0 with running := true } (micro 3 (seqWord 7 []) carry) ⟨rfl, by decide, by decide, rfl, rfl, rfl, rfl, by decide, by decide⟩
     (by decide) rfl (by decide)).2.1 rfl),
   ends_runs ((h 15 (seqWord 8 []) { q0 with running := true } (micro 3 (seqWord 8 []) { carry with ready := [{ q0 with seq := 9 }] }) ⟨rfl, by decide, by decide, rfl, rfl, rfl, rfl, by decide, by decide⟩
     (by decide) rfl (by decide)).2.2 rfl)⟩
def chopWord (k : Nat) : Microword := mw [(80, k), (76, 15), (86, 1), (97, 5), (92, 6)]
theorem witness_ChannelReadsLoad (h : Says.ChannelReadsLoad) :
    Runs (.chopRdCmd 15) (micro 3 (chopWord 0x0F) carry) ∧ Runs (.chopRdCnt64 15) (micro 3 (chopWord 0x0D) carry) :=
  ⟨ends_runs (h 15 (chopWord 0x0F) 253 (micro 3 (chopWord 0x0F) carry) ⟨rfl, by decide, by decide, rfl, rfl, rfl, rfl, by decide, by decide⟩ (.inl rfl) (by decide)
     (.chopRdCmd, 0x0F, fun s n => s.ch[n].cmdWord.setWidth 64) (by simp [Says.chopReads]) rfl),
   ends_runs (h 15 (chopWord 0x0D) 253 (micro 3 (chopWord 0x0D) carry) ⟨rfl, by decide, by decide, rfl, rfl, rfl, rfl, by decide, by decide⟩ (.inl rfl) (by decide)
     (.chopRdCnt64, 0x0D, fun s n => s.ch[2 * (n.val / 2) + 1].cnt ++ s.ch[2 * (n.val / 2)].cnt) (by simp [Says.chopReads]) rfl)⟩
theorem witness_ChannelWritesBuffered (h : Says.ChannelWritesBuffered) :
    Runs (.chopRdCmd 15) (micro 3 (chopWord 0x0F) carry) ∧ Runs (.chopTgtArm 15) (micro 3 (chopWord 0x25) carry) :=
  ⟨ends_runs (h 15 (chopWord 0x0F) 253 (micro 3 (chopWord 0x0F) carry) ⟨rfl, by decide, by decide, rfl, rfl, rfl, rfl, by decide, by decide⟩ (by decide)
     (.chopRdCmd, 0x0F) (by simp [Says.chopEffects]) rfl),
   ends_runs (h 15 (chopWord 0x25) 253 (micro 3 (chopWord 0x25) carry) ⟨rfl, by decide, by decide, rfl, rfl, rfl, rfl, by decide, by decide⟩ (by decide)
     (.chopTgtArm, 0x25) (by simp [Says.chopEffects]) rfl)⟩
def memWord (k dst : Nat) (more : List (Nat × Nat)) : Microword := mw ([(72, k), (102, 1), (97, 15), (87, dst)] ++ more)
theorem witness_CisternOperations (h : Says.CisternOperations) :
    Runs (.memLd 15) (micro 0x11_1111 (memWord 1 15 []) carry) ∧ Runs (.memLd 15) (micro 0x11_1111 (memWord 1 2 []) { carry with sb := [.st (2 ^ 21 - 1) 77] }) ∧
    Runs (.memSt 15) (micro 0x11_1111 (memWord 2 17 [(80, 0x11)]) carry) ∧ Runs (.memAdd 15) (micro 0x11_1111 (memWord 3 15 []) carry) ∧
    Runs (.memSwap 15) (micro 0x11_1111 (memWord 4 14 [(80, 0x11)]) carry) :=
  have a (k dst : Nat) (l : List (Nat × Nat)) (x : Engine) (r : Says.runsWord 15 (memWord k dst l)
    (Says.yOf 15 (memWord k dst l) (micro 0x11_1111 (memWord k dst l) x)) (micro 0x11_1111 (memWord k dst l) x)) := h 15 _ _ r
  ⟨ends_runs ((a 1 15 [] carry ⟨rfl, by decide, by decide, rfl, rfl, rfl, rfl, by decide, by decide⟩).1 rfl rfl),
   ends_runs ((a 1 2 [] { carry with sb := [.st (2 ^ 21 - 1) 77] } ⟨rfl, by decide, by decide, rfl, rfl, rfl, rfl, by decide, by decide⟩).2.1 rfl 77 (by decide)),
   ends_runs ((a 2 17 [(80, 0x11)] carry ⟨rfl, by decide, by decide, rfl, rfl, rfl, rfl, by decide, by decide⟩).2.2.1 rfl),
   ends_runs ((a 3 15 [] carry ⟨rfl, by decide, by decide, rfl, rfl, rfl, rfl, by decide, by decide⟩).2.2.2.1 rfl),
   ends_runs ((a 4 14 [(80, 0x11)] carry ⟨rfl, by decide, by decide, rfl, rfl, rfl, rfl, by decide, by decide⟩).2.2.2.2 rfl)⟩
def welled (w : Microword) (y : Well) : State := modWell 63 (fun _ => y) (micro 0x11_1111 w carry)
theorem witness_WellOperations (h : Says.WellOperations) :
    Runs (.memPop 15) (welled (memWord 5 4 []) { en := true, cfg := 0x007C_0000, items := [mkItem 3 1] }) ∧
    Runs (.memPop 15) (welled (memWord 5 4 [(80, 0x11)]) { en := true, cfg := 0x007C_0000, idle := 5 }) ∧
    Runs (.memPeek 15) (welled (memWord 7 4 []) { en := true, cfg := 0x007C_0000, items := [⟨5, 0, true⟩] }) ∧
    Runs (.memPush 15) (welled (memWord 6 17 []) {}) ∧ Runs (.memCnt 15) (welled (memWord 8 4 []) { items := [mkItem 3 1] }) :=
  have a (k dst : Nat) (l : List (Nat × Nat)) (y : Well) (r : Says.runsWord 15 (memWord k dst l)
    (Says.yOf 15 (memWord k dst l) (welled (memWord k dst l) y)) (welled (memWord k dst l) y)) := h 15 (memWord k dst l) 63 (welled (memWord k dst l) y) r
  ⟨ends_runs ((a 5 4 [] { en := true, cfg := 0x007C_0000, items := [mkItem 3 1] } ⟨rfl, by decide, by decide, rfl, rfl, rfl, rfl, by decide, by decide⟩ (by decide)).1 rfl ⟨rfl, by decide⟩ _ _ rfl),
   ends_runs ((a 5 4 [(80, 0x11)] { en := true, cfg := 0x007C_0000, idle := 5 } ⟨rfl, by decide, by decide, rfl, rfl, rfl, rfl, by decide, by decide⟩ (by decide)).2.1 rfl ⟨rfl, by decide⟩ rfl),
   ends_runs ((a 7 4 [] { en := true, cfg := 0x007C_0000, items := [⟨5, 0, true⟩] } ⟨rfl, by decide, by decide, rfl, rfl, rfl, rfl, by decide, by decide⟩ (by decide)).2.2.1 rfl ⟨rfl, by decide⟩ _ _ rfl),
   ends_runs ((a 6 17 [] {} ⟨rfl, by decide, by decide, rfl, rfl, rfl, rfl, by decide, by decide⟩ (by decide)).2.2.2.1 rfl),
   ends_runs ((a 8 4 [] { items := [mkItem 3 1] } ⟨rfl, by decide, by decide, rfl, rfl, rfl, rfl, by decide, by decide⟩ (by decide)).2.2.2.2 rfl)⟩
def flgWord (k : Nat) (more : List (Nat × Nat)) : Microword := mw ([(64, k), (97, 5), (0, 0x7D_0035)] ++ more)
theorem witness_FlagOperations (h : Says.FlagOperations) :
    Runs (.flgCommit 15) (micro 3 (flgWord 1 [(80, 0x11)]) { carry with sb := [.st 3 4] }) ∧ Runs (.flgSignal 15) (micro 3 (flgWord 2 [(80, 0x11)]) carry) ∧
    Runs (.flgSetf 15) (micro 3 (flgWord 4 []) carry) ∧ Runs (.flgClrf 15) (micro 3 (flgWord 8 [(102, 1), (87, 17)]) carry) ∧
    Runs (.flgSetf 15) (micro 3 (flgWord 12 []) carry) ∧ Runs (.flgClrf 15) (micro 3 (flgWord 12 []) carry) ∧
    Runs (.flgYield 15) (micro 3 (flgWord 16 []) { carry with ready := [{ q0 with seq := 9, deadline := 3 }] }) ∧
    Runs (.flgYield 15) (micro 3 (flgWord 16 []) carry) :=
  have a (k : Nat) (l : List (Nat × Nat)) (x : Engine) (r : Says.runsWord 15 (flgWord k l)
    (Says.yOf 15 (flgWord k l) (micro 3 (flgWord k l) x)) (micro 3 (flgWord k l) x)) := h 15 (flgWord k l) { q0 with running := true } (micro 3 (flgWord k l) x) r rfl
  ⟨ends_runs ((a 1 [(80, 0x11)] { carry with sb := [.st 3 4] } ⟨rfl, by decide, by decide, rfl, rfl, rfl, rfl, by decide, by decide⟩).1 rfl),
   ends_runs ((a 2 [(80, 0x11)] carry ⟨rfl, by decide, by decide, rfl, rfl, rfl, rfl, by decide, by decide⟩).2.1 rfl),
   ends_runs ((a 4 [] carry ⟨rfl, by decide, by decide, rfl, rfl, rfl, rfl, by decide, by decide⟩).2.2.1 rfl rfl),
   ends_runs ((a 8 [(102, 1), (87, 17)] carry ⟨rfl, by decide, by decide, rfl, rfl, rfl, rfl, by decide, by decide⟩).2.2.2.1 rfl rfl),
   ends_runs ((a 12 [] carry ⟨rfl, by decide, by decide, rfl, rfl, rfl, rfl, by decide, by decide⟩).2.2.2.2.1 rfl rfl).1,
   ends_runs ((a 12 [] carry ⟨rfl, by decide, by decide, rfl, rfl, rfl, rfl, by decide, by decide⟩).2.2.2.2.1 rfl rfl).2,
   ends_runs ((a 16 [] { carry with ready := [{ q0 with seq := 9, deadline := 3 }] } ⟨rfl, by decide, by decide, rfl, rfl, rfl, rfl, by decide, by decide⟩).2.2.2.2.2 rfl),
   ends_runs ((a 16 [] carry ⟨rfl, by decide, by decide, rfl, rfl, rfl, rfl, by decide, by decide⟩).2.2.2.2.2 rfl)⟩
def tkWord (k : Nat) : Microword := mw [(24, k), (30, 3), (97, 5), (92, 6), (0, 0xF1_2345), (86, 1), (65, 1)]
theorem witness_TrackerOperations (h : Says.TrackerOperations) :
    Runs (.tkRdAngle 15) (micro 3 (tkWord 1) carry) ∧ Runs (.tkEvPlace 15) (micro 3 (tkWord 0x10) carry) ∧ Runs (.tkReseek 15) (micro 3 (tkWord 0x18) carry) :=
  ⟨ends_runs ((h 15 (tkWord 1) (micro 3 (tkWord 1) carry) ⟨rfl, by decide, by decide, rfl, rfl, rfl, rfl, by decide, by decide⟩).1 (.tkRdAngle, 1, fun s x _ => x.speed ++ x.published s.tb.now)
     (by simp [Says.trackerReads]) rfl),
   ends_runs ((h 15 (tkWord 0x10) (micro 3 (tkWord 0x10) carry) ⟨rfl, by decide, by decide, rfl, rfl, rfl, rfl, by decide, by decide⟩).2 (.tkEvPlace 15, 0x10) (by simp) rfl),
   ends_runs ((h 15 (tkWord 0x18) (micro 3 (tkWord 0x18) carry) ⟨rfl, by decide, by decide, rfl, rfl, rfl, rfl, by decide, by decide⟩).2 (.tkReseek 15, 0x18) (by simp) rfl)⟩


theorem witness_MicrowordWaits (h : Says.MicrowordWaits) :
    exec (.aluAdd 15) (micro 3 (aluWord 3) { carry with free := 70002 }) = exec (.aluAdd 15) (runClk 70002 (micro 3 (aluWord 3) { carry with free := 70002 })) :=
  (h 15 (micro 3 (aluWord 3) { carry with free := 70002 }) _ rfl rfl (by decide) rfl rfl).2 (.aluAdd, 3) (by simp [Says.aluRows])
theorem witness_MicrowordStops (h : Says.MicrowordStops) :
    Runs (.aluAdd 15) (micro 3 (aluWord 3) { carry with mulDst := some 1, free := 70000 }) ∧
    Runs (.aluPassa 15) (micro 3 (memWord 2 17 [(80, 0x11)]) { carry with sb := List.replicate 16 (.st 3 4) }) ∧
    Runs (.aluPassa 15) (micro 0x1111_1111 (memWord 1 15 []) carry) :=
  ⟨ends_runs ((h 15 (aluWord 3) { q0 with running := true } (micro 3 (aluWord 3) { carry with mulDst := some 1, free := 70000 }) rfl rfl (by decide) (by decide) rfl rfl
     (.aluAdd, 3) (by simp [Says.aluRows]) rfl).1 (.inl (by decide))),
   ends_runs ((h 15 (memWord 2 17 [(80, 0x11)]) { q0 with running := true } (micro 3 (memWord 2 17 [(80, 0x11)]) { carry with sb := List.replicate 16 (.st 3 4) }) rfl rfl (by decide) (by decide) rfl rfl
     (.aluPassa, 1) (by simp [Says.aluRows]) rfl).2.1 (by decide) (by decide)),
   ends_runs ((h 15 (memWord 1 15 []) { q0 with running := true } (micro 0x1111_1111 (memWord 1 15 []) carry) rfl rfl (by decide) (by decide) rfl rfl
     (.aluPassa, 1) (by simp [Says.aluRows]) rfl).2.2 (by decide) (by decide) (fun a => absurd (a (by decide) (by decide)).1 (by decide)))⟩

def wheel (c : Word) (t : Fin 4) (x : Trk) : State := modWt t (fun _ => x) { up with win := up.win.set 5 { cfg := c } }
def winWaits (v : Word) (t : Trk) : State := { wheel 0xC601_9540 3 t with later := [.winCfg 5 v] }
theorem witness_WheelInputWritten (h : Says.WheelInputWritten) :
    Runs (.winCfgWrite p0 5 0) (wheel 0 3 { st := .lost, cfg := 0x0500_0000 }) ∧ Runs (.winCfgWrite p0 5 0xFFFF_FFFF) up ∧
    (advance 1 (winWaits 0x4000_0000 { level := true, cfg := 0x0500_0000 })).wt[(3 : Fin 4)].level = false ∧
    (advance 1 (winWaits 0xC000_0000 {})).win[(5 : Fin 8)].thr = 0 :=
  ⟨does_runs ((h p0 5 0 (wheel 0 3 { st := .lost, cfg := 0x0500_0000 }) rfl).1 rfl ⟨3, by decide, by decide, by decide⟩),
   does_runs ((h p0 5 0xFFFF_FFFF up rfl).2.1 rfl (by decide)),
   ((h p0 5 0x4000_0000 (winWaits 0x4000_0000 { level := true, cfg := 0x0500_0000 }) rfl).2.2 rfl rfl).2.2.2.2.2.1 (by decide) |>.2.2.2.2.2 3 (by decide) (by decide),
   (congrArg WheelIn.thr (((h p0 5 0xC000_0000 (winWaits 0xC000_0000 {}) rfl).2.2 rfl rfl).2.2.2.2.2.2.1 (by decide)).1).trans rfl⟩
def peaks (p : BitVec 10) : State := { up with win := up.win.set 7 { cfg := 0x4601_9501, peak := p } }
theorem witness_PeakDecays (h : Says.PeakDecays) : Runs (.peakDecay 7) (peaks 1023) ∧ Runs (.peakDecay 7) (peaks 0) :=
  ⟨ends_runs (h 7 (peaks 1023) _ rfl (by decide) rfl rfl), ends_runs (h 7 (peaks 0) _ rfl (by decide) rfl rfl)⟩
/-- A tracker in SYNCED on 60 teeth, 100,000 T64 units apart, the last one `d` units before time 0x60_0030. -/
def synced (d : Nat) : Trk :=
  { cfg := 0x0500_003B, st := .synced, valid := true, e := 100000 * 65536, p := 100000 * 65536, prev := some (0x60_0030 - BitVec.ofNat 64 d)
    toothAt := 0x60_0030 - BitVec.ofNat 64 d, baseT := 0x60_0030 - BitVec.ofNat 64 d, tooth := 58, noise := 255 }
def onInput (c : Word) (lv : Bool) : State := wheel c 3 { cfg := 0x0500_003B, level := lv }
theorem witness_InputTakesEdge (h : Says.InputTakesEdge) :
    Runs (.leadingEdgeJudge 3 0x60_0030 9) (onInput 0xC000_0000 true) ∧ Runs (.trailingEdgeClassify 3 0x60_0030) (onInput 0xC000_0000 true) ∧
    Runs (.leadingEdgeJudge 3 0x60_0030 9) (onInput 0x4601_9501 true) ∧ Runs (.leadingEdgeJudge 3 0x60_0030 9) (onInput 0x8601_9501 true) ∧
    Runs (.trailingEdgeClassify 3 0x60_0030) (onInput 0x4601_9501 false) :=
  ⟨ends_runs ((h 3 0x60_0030 9 (onInput 0xC000_0000 true)).1 (by decide)).1, ends_runs ((h 3 0x60_0030 9 (onInput 0xC000_0000 true)).1 (by decide)).2,
   ends_runs ((h 3 0x60_0030 9 (onInput 0x4601_9501 true)).2.1 (by decide) rfl), ends_runs ((h 3 0x60_0030 9 (onInput 0x8601_9501 true)).2.1 (by decide) rfl),
   ends_runs ((h 3 0x60_0030 9 (onInput 0x4601_9501 false)).2.2 (by decide) rfl)⟩
theorem witness_LeadingEdgeJudged (h : Says.LeadingEdgeJudged) :
    Runs (.leadingEdgeJudge 3 0x60_0030 0) (wheel 0 3 (synced 8191)) ∧ Runs (.leadingEdgeJudge 3 0x60_0030 0) (wheel 0 3 (synced 49999)) ∧
    Runs (.leadingEdgeJudge 3 0x60_0030 0) (wheel 0 3 (synced 50000)) ∧ Runs (.leadingEdgeJudge 3 0x60_0030 0) (wheel 0 3 (synced 174999)) ∧
    Runs (.leadingEdgeJudge 3 0x60_0030 0) (wheel 0 3 { cfg := 0x0500_003B, st := .seeking, good := 3 }) ∧
    Runs (.leadingEdgeJudge 3 0x60_0030 0) (wheel 0 3 { synced 12800 with st := .seeking }) :=
  have a (x : Trk) (f : bit (wheel 0 3 x).wt[3].cfg 30 = false) (g : fld ((wheel 0 3 x).win[(wheel 0 3 x).wt[3].wsel]).cfg 31 30 ≠ 3)
    (l : (wheel 0 3 x).wt[3].level = false) (q) (i) := h 3 0x60_0030 0 (wheel 0 3 x) _ rfl rfl f g l rfl q i
  ⟨ends_runs ((a (synced 8191) rfl (by decide) rfl (by decide) (by decide)).1 _ rfl rfl rfl |>.1 (.inl (by decide))),
   ends_runs ((a (synced 49999) rfl (by decide) rfl (by decide) (by decide)).1 _ rfl rfl rfl |>.1 (.inr (by decide))),
   ends_runs ((a (synced 50000) rfl (by decide) rfl (by decide) (by decide)).1 _ rfl rfl rfl |>.2 (by decide) (by decide) (by decide) rfl rfl rfl (by decide) rfl (by decide)),
   ends_runs ((a (synced 174999) rfl (by decide) rfl (by decide) (by decide)).1 _ rfl rfl rfl |>.2 (by decide) (by decide) (by decide) rfl rfl rfl (by decide) rfl (by decide)),
   ends_runs ((a { cfg := 0x0500_003B, st := .seeking, good := 3 } rfl (by decide) rfl (by decide) (by decide)).2.1 rfl rfl),
   ends_runs ((a { synced 12800 with st := .seeking } rfl (by decide) rfl (by decide) (by decide)).2.2 _ rfl rfl rfl (by decide) (by decide) rfl rfl rfl)⟩
def high (p : Nat) (w : Option Stamp) : State := wheel 0 3 { synced 0 with level := true, cfg := BitVec.ofNat 32 (p * 2 ^ 27 + 0x0500_003B), waitCls := w }
theorem witness_TrailingEdgeClassifies (h : Says.TrailingEdgeClassifies) :
    Runs (.trailingEdgeClassify 3 0x60_0030) (high 2 (some (0x60_0030 - 50000))) ∧ Runs (.trailingEdgeClassify 3 0x60_0030) (high 2 (some (0x60_0030 - 49999))) ∧
    Runs (.trailingEdgeClassify 3 0x60_0030) (high 0 none) :=
  ⟨ends_runs (h 3 0x60_0030 (high 2 (some (0x60_0030 - 50000))) _ rfl rfl rfl (by decide) rfl rfl),
   ends_runs (h 3 0x60_0030 (high 2 (some (0x60_0030 - 49999))) _ rfl rfl rfl (by decide) rfl rfl),
   ends_runs (h 3 0x60_0030 (high 0 none) _ rfl rfl rfl (by decide) rfl rfl)⟩
theorem witness_WindowCloses (h : Says.WindowCloses) :
    Runs (.windowClose 3) (wheel 0 3 { synced 175000 with missrun := 1 }) ∧ Runs (.windowClose 3) { wheel 0 3 { synced 175000 with missrun := 2 } with dom := { state := .run } } ∧
    Runs (.windowClose 3) (wheel 0 3 { synced 175000 with st := .seeking, good := 1 }) :=
  ⟨ends_runs ((h 3 _ (wheel 0 3 { synced 175000 with missrun := 1 }) _ rfl rfl rfl rfl rfl rfl (by decide) rfl rfl rfl).1 rfl (by decide) rfl (by decide) (by decide)),
   ends_runs ((h 3 _ { wheel 0 3 { synced 175000 with missrun := 2 } with dom := { state := .run } } _ rfl rfl rfl rfl rfl rfl (by decide) rfl rfl rfl).2.1 (.inl rfl) (by decide) rfl (by decide)),
   ends_runs ((h 3 _ (wheel 0 3 { synced 175000 with st := .seeking, good := 1 }) _ rfl rfl rfl rfl rfl rfl (by decide) rfl rfl rfl).2.2 rfl (by decide))⟩
def lostTrk : Trk := { st := .lost, cfg := 0x2000_003B, cause := 4, lostAt := 69000 }
theorem witness_AutoseekReturns (h : Says.AutoseekReturns) :
    Runs (.autoseekReturn 3) (wheel 0 3 lostTrk) ∧ Runs (.autoseekReturn 3) { wheel 0 3 lostTrk with tb := { running := true, clk := 70000, now := 0x60_0000 } } :=
  ⟨ends_runs (h 3 (wheel 0 3 lostTrk) _ rfl rfl (by decide) (.inr ⟨by decide, rfl, rfl⟩)),
   ends_runs (h 3 { wheel 0 3 lostTrk with tb := { running := true, clk := 70000, now := 0x60_0000 } } _ rfl rfl (by decide) (.inl ⟨by decide, rfl⟩))⟩
theorem witness_TrackerCommands (h : Says.TrackerCommands) :
    Runs (.wtStart p0 3) (wheel 0 3 { cfg := 0x0500_003B }) ∧ Runs (.wtStart p0 3) (wheel 0 3 { cfg := 0x4500_003B }) ∧
    Runs (.wtReseek p0 3) (wheel 0 3 (synced 0)) ∧ Runs (.wtStop p0 3) (wheel 0 3 (synced 0)) ∧
    Runs (.wtSetrev p0 3) (wheel 0 3 { synced 0 with rev := 9, table := [{ st := .committed }] }) ∧
    Runs (.wtStart p0 3) (wheel 0 3 { synced 0 with ie := 0x1_0000 }) ∧ Runs (.wtReseek p0 3) (wheel 0 3 {}) ∧ Runs (.wtStop p0 3) (wheel 0 3 {}) ∧
    Runs (.wtSetrev p0 3) (wheel 0 3 { synced 0 with table := [{ st := .waiting }] }) ∧ Runs (.wtStart p0 3) (wheel 0 3 { cfg := 0x0500_0000 }) :=
  ⟨ends_runs ((h p0 3 (wheel 0 3 { cfg := 0x0500_003B }) rfl).1 rfl (by decide)), ends_runs ((h p0 3 (wheel 0 3 { cfg := 0x4500_003B }) rfl).1 rfl (by decide)),
   ends_runs ((h p0 3 (wheel 0 3 (synced 0)) rfl).2.1 (by decide)), ends_runs ((h p0 3 (wheel 0 3 (synced 0)) rfl).2.2.1 (by decide)),
   ends_runs ((h p0 3 (wheel 0 3 { synced 0 with rev := 9, table := [{ st := .committed }] }) rfl).2.2.2.1 (.inl rfl) (by decide) (by decide)),
   ends_runs ((h p0 3 (wheel 0 3 { synced 0 with ie := 0x1_0000 }) rfl).2.2.2.2.1 (.inl (by decide)) (.inr (by decide))),
   ends_runs ((h p0 3 (wheel 0 3 {}) rfl).2.2.2.2.2.1 rfl).1, ends_runs ((h p0 3 (wheel 0 3 {}) rfl).2.2.2.2.2.1 rfl).2,
   ends_runs ((h p0 3 (wheel 0 3 { synced 0 with table := [{ st := .waiting }] }) rfl).2.2.2.2.2.2.1 (.inr (.inr ⟨_, .head _, .inl rfl⟩))),
   ends_runs ((h p0 3 (wheel 0 3 { cfg := 0x0500_0000 }) rfl).2.2.2.2.2.2.2 (by decide) (by decide))⟩
def withEvents (l : List EvEntry) : State :=
  { wheel 0 3 { synced 0 with table := l } with ch := up.ch.set 251 { cfg := 0x7800_0000, run := true }, sc := up.sc.set 1 { st := .run, trig := 7 } }
theorem witness_EventIssued (h : Says.EventIssued) :
    Runs (.eventIssue 3) (withEvents [{}, { st := .waiting, angle := 279620, action := 2, engine := 15, chan := 11, wcode := 5 }]) ∧
    Runs (.eventIssue 3) (withEvents [{}, { st := .waiting, angle := 279620, action := 5, engine := 15, chan := 11, wcode := 5 }]) :=
  ⟨ends_runs (h 3 1 (withEvents [{}, { st := .waiting, angle := 279620, action := 2, engine := 15, chan := 11, wcode := 5 }]) rfl (by decide) |>.2 (by decide) (by decide) (by decide)
     (by decide) (by decide) (by decide)),
   ends_runs (h 3 1 (withEvents [{}, { st := .waiting, angle := 279620, action := 5, engine := 15, chan := 11, wcode := 5 }]) rfl (by decide) |>.2 (by decide) (by decide) (by decide)
     (by decide) (by decide) (by decide))⟩
def leadWaits : State := modWt 3 (fun x => { x with evcfg := 0x1000_0000 }) (withEvents [{ st := .issued, width := 9, target := 0x70_0050 }])
theorem witness_EventCommits (h : Says.EventCommits) :
    Runs (.eventCommit 3 1) (withEvents [{}, { st := .issued, angle := 279620, action := 5, unit := true, width := 559240, target := 0x60_0050 }]) ∧
    Runs (.eventCommit 3 0) (withEvents [{ st := .issued, width := 9, target := 0x60_0050 }]) ∧ Runs (.eventCommit 3 0) leadWaits :=
  ⟨ends_runs (h 3 1 (withEvents [{}, { st := .issued, angle := 279620, action := 5, unit := true, width := 559240, target := 0x60_0050 }]) _ _ rfl rfl rfl rfl rfl),
   ends_runs (h 3 0 (withEvents [{ st := .issued, width := 9, target := 0x60_0050 }]) _ _ rfl rfl rfl rfl rfl),
   ends_runs (h 3 0 leadWaits _ _ rfl rfl rfl rfl rfl)⟩
theorem witness_ActionsWithoutChannel (h : Says.ActionsWithoutChannel) :
    Runs (.convertAction 3 1) (withEvents [{}, { st := .committed, angle := 279620, action := 4, chan := 3, tag := 5, target := 0x60_0050 }]) ∧
    Runs (.noticeAction 3 0) (withEvents [{ st := .committed, angle := 279620, action := 5, engine := 14, tag := 5, target := 0x60_0050 }]) :=
  ⟨ends_runs ((h 3 1 (withEvents [{}, { st := .committed, angle := 279620, action := 4, chan := 3, tag := 5, target := 0x60_0050 }]) _ rfl rfl rfl rfl).1 (by decide) 1 (by decide)
     (by decide) (by decide)),
   ends_runs ((h 3 0 (withEvents [{ st := .committed, angle := 279620, action := 5, engine := 14, tag := 5, target := 0x60_0050 }]) _ rfl rfl rfl rfl).2 (by decide))⟩
def events : State := { up with
  wt := up.wt.set 3 { synced 0 with table := [{ st := .committed, tag := 5 }, { st := .waiting, tag := 5 }, { st := .issued, tag := 6, action := 5, target := 0x70_0000 }], evarg := 5, evDisc := 254 } }
theorem witness_EventTableCommands (h : Says.EventTableCommands) : Runs (.evCmdFlush p0 3) events ∧ Runs (.evCmdCancel .spi 3) events :=
  ⟨ends_runs (h p0 3 events rfl (by decide)).1, ends_runs (h .spi 3 events rfl (by decide)).2⟩



def sh (x : Shift) : State := { up with se := up.se.set 31 x }
def busyShift (st : ShState) : Shift :=
  { cfg := 0x0001_0F82, st := st, pc := 5, entry := 9, sr := 0x8000_0001, scnt := 7, rem := 3, idle := 2, wait := .shift true true, tx := [1, 2], rx := [3], lo := 5
    side := 6, ckrun := true, ph := 100, phAt := 70000, divNow := 0x400, trg := true, f := true, trglost := 255, clkdiv := 0x100 }
theorem witness_ShiftCommandsAccepted (h : Says.ShiftCommandsAccepted) :
    Runs (.seStart p0 31) (sh (busyShift .stopped)) ∧ Runs (.seHalt p0 31) (sh (busyShift .run)) ∧ Runs (.seResume p0 31 false) (sh (busyShift .halted)) ∧
    Runs (.seResume p0 31 true) (sh (busyShift .halted)) ∧ Runs (.seResume p0 31 false) (sh { busyShift .halted with progchg := true }) ∧
    Runs (.seStop p0 31) (sh (busyShift .run)) ∧ Runs (.seTrig p0 31) (sh (busyShift .run)) ∧ Runs (.seTrig p0 31) (sh {}) ∧
    Runs (.seStart p0 31) (sh { busyShift .run with ie := 0x1_0000 }) ∧ Runs (.seHalt p0 31) (sh {}) ∧ Runs (.seResume p0 31 true) (sh {}) ∧
    Runs (.seStop p0 31) (sh {}) ∧ Runs (.seStart p0 31) (sh { cfg := 0x0006_0000 }) :=
  ⟨ends_runs ((h p0 31 false (sh (busyShift .stopped)) rfl).1 rfl (by decide)), ends_runs ((h p0 31 false (sh (busyShift .run)) rfl).2.1 rfl),
   ends_runs ((h p0 31 false (sh (busyShift .halted)) rfl).2.2.1 rfl), ends_runs ((h p0 31 true (sh (busyShift .halted)) rfl).2.2.1 rfl),
   ends_runs ((h p0 31 false (sh { busyShift .halted with progchg := true }) rfl).2.2.1 rfl),
   ends_runs ((h p0 31 false (sh (busyShift .run)) rfl).2.2.2.1 (by decide)), ends_runs (h p0 31 false (sh (busyShift .run)) rfl).2.2.2.2.1,
   ends_runs (h p0 31 false (sh {}) rfl).2.2.2.2.1, ends_runs ((h p0 31 false (sh { busyShift .run with ie := 0x1_0000 }) rfl).2.2.2.2.2.1 rfl (by decide) (by decide)),
   ends_runs ((h p0 31 false (sh {}) rfl).2.2.2.2.2.2.1 (by decide)), ends_runs ((h p0 31 true (sh {}) rfl).2.2.2.2.2.2.2.1 (by decide)),
   ends_runs ((h p0 31 false (sh {}) rfl).2.2.2.2.2.2.2.2.1 rfl), ends_runs ((h p0 31 false (sh { cfg := 0x0006_0000 }) rfl).2.2.2.2.2.2.2.2.2 rfl (by decide))⟩
def group (a b : ShState) : State :=
  { up with se := (up.se.set 31 { busyShift a with cfg := 0xF000_0000 }).set 0 { busyShift b with cfg := 0xF000_0001 } }
theorem member (a b : ShState) : Says.inGroup (group a b) 7 31 := by cases a <;> cases b <;> exact ⟨by decide, by decide⟩
theorem witness_GroupCommands (h : Says.GroupCommands) :
    Runs (.gstart p0 7) (group .stopped .stopped) ∧ Runs (.ghalt p0 7) (group .run .halted) ∧ Runs (.gresume p0 7 true) (group .halted .run) ∧
    Runs (.gstop p0 7) (group .stopped .run) ∧ Runs (.gstart p0 7) (group .stopped .run) ∧ Runs (.ghalt p0 7) (group .stopped .stopped) ∧
    Runs (.gresume p0 7 true) (group .stopped .run) ∧ Runs (.gstop p0 7) (group .stopped .stopped) :=
  ⟨ends_runs ((h p0 7 false (group .stopped .stopped) rfl ⟨31, member _ _⟩).1 (by unfold Says.inGroup; decide)),
   ends_runs ((h p0 7 false (group .run .halted) rfl ⟨31, member _ _⟩).2.1 ⟨31, member _ _, rfl⟩),
   ends_runs ((h p0 7 true (group .halted .run) rfl ⟨31, member _ _⟩).2.2.1 ⟨31, member _ _, rfl⟩),
   ends_runs ((h p0 7 true (group .stopped .run) rfl ⟨31, member _ _⟩).2.2.2.1 ⟨0, ⟨by decide, by decide⟩, by decide⟩),
   ends_runs ((h p0 7 true (group .stopped .run) rfl ⟨31, member _ _⟩).2.2.2.2.1 (by unfold Says.inGroup; decide) ⟨0, ⟨by decide, by decide⟩, by decide⟩),
   ends_runs ((h p0 7 true (group .stopped .stopped) rfl ⟨31, member _ _⟩).2.2.2.2.2.1 (by unfold Says.inGroup; decide)),
   ends_runs ((h p0 7 true (group .stopped .run) rfl ⟨31, member _ _⟩).2.2.2.2.2.2.1 (by unfold Says.inGroup; decide)),
   ends_runs ((h p0 7 true (group .stopped .stopped) rfl ⟨31, member _ _⟩).2.2.2.2.2.2.2 (by unfold Says.inGroup; decide))⟩
theorem witness_ShiftRegistersAndQueues (h : Obligations.ShiftRegistersAndQueues) :
    Runs (.seRegisterWrite p0 31 0x08 0xFF) up ∧ Runs (.seRegisterWrite p0 31 0x24 5) (sh (busyShift .halted)) ∧
    Runs (.seRegisterWrite p0 31 0x24 5) (sh (busyShift .run)) ∧ Runs (.seWrapWrite p0 31 0x1F03) (sh (busyShift .run)) ∧
    Runs (.seWrapWrite p0 31 0x1F03) (sh (busyShift .halted)) ∧ Runs (.seTxqWrite p0 31 5) (sh { tx := [1, 2, 3] }) ∧
    Runs (.seTxqWrite p0 31 5) (sh { cfg := 0x0004_0000, tx := [] }) ∧ Runs (.seTxqWrite .spi 31 5) (sh { cfg := 0x0002_0000, tx := [1, 2, 3, 4, 5, 6, 7] }) ∧
    Runs (.seRxqRead p0 31) (sh (busyShift .run)) ∧ Runs (.seRxqRead p0 31) up :=
  ⟨does_runs (h p0 31 0xFF up rfl rfl).1, does_runs ((h p0 31 5 (sh (busyShift .halted)) rfl rfl).2.2.1 (by decide)),
   does_runs ((h p0 31 5 (sh (busyShift .run)) rfl rfl).2.2.2.1 rfl), does_runs ((h p0 31 0x1F03 (sh (busyShift .run)) rfl rfl).2.2.2.2.1 rfl),
   does_runs ((h p0 31 0x1F03 (sh (busyShift .halted)) rfl rfl).2.2.2.2.2.1 (by decide)),
   does_runs ((h p0 31 5 (sh { tx := [1, 2, 3] }) rfl rfl).2.2.2.2.2.2.1 (by decide)),
   does_runs ((h p0 31 5 (sh { cfg := 0x0004_0000, tx := [] }) rfl rfl).2.2.2.2.2.2.2.1 (by decide)),
   does_runs ((h .spi 31 5 (sh { cfg := 0x0002_0000, tx := [1, 2, 3, 4, 5, 6, 7] }) rfl rfl).2.2.2.2.2.2.1 (by decide)),
   does_runs ((h p0 31 5 (sh (busyShift .run)) rfl rfl).2.2.2.2.2.2.2.2.1 3 [] rfl (by decide)), does_runs ((h p0 31 5 up rfl rfl).2.2.2.2.2.2.2.2.2 (.inl rfl))⟩
theorem witness_ShiftTakesPlace (h : Says.ShiftTakesPlace) :
    Runs (.shift 31 0x05) (sh (busyShift .run)) ∧ Runs (.shift 31 0) (sh { busyShift .run with cfg := 0x0001_0007, olv := 7, rem := 1, wait := .shift true false, idle := 0, pc := 31 }) ∧
    Runs (.shift 31 0xFF) (sh { busyShift .run with cfg := 0x0001_0006, rem := 1, ilv := 30, wait := .shift false true, wrapHi := 5, wrapLo := 2 }) :=
  ⟨ends_runs (h 31 0x05 true true (sh (busyShift .run)) _ rfl rfl rfl rfl (by decide) rfl rfl rfl rfl (by decide) (by decide)),
   ends_runs (h 31 0 true false (sh { busyShift .run with cfg := 0x0001_0007, olv := 7, rem := 1, wait := .shift true false, idle := 0, pc := 31 }) _ rfl rfl rfl rfl (by decide) rfl rfl rfl rfl (by decide) (by decide)),
   ends_runs (h 31 0xFF false true (sh { busyShift .run with cfg := 0x0001_0006, rem := 1, ilv := 30, wait := .shift false true, wrapHi := 5, wrapLo := 2 }) _ rfl rfl rfl rfl (by decide) rfl rfl rfl rfl (by decide) (by decide))⟩
theorem witness_TicksPass (h : Says.TicksPass) :
    Runs (.idleTick 31) (sh { busyShift .run with wait := .idle, idle := 1 }) ∧ Runs (.idleTick 31) (sh { busyShift .run with wait := .idle }) ∧
    Runs (.shiftClockTick 31) (sh { busyShift .run with wait := .fill }) ∧ Runs (.shiftClockTick 31) (sh { busyShift .run with wait := .none }) ∧
    Runs (.shiftClockTick 31) (sh { busyShift .run with wait := .idle, nextAt := 70005 }) :=
  ⟨ends_runs ((h 31 (sh { busyShift .run with wait := .idle, idle := 1 }) _ rfl rfl rfl rfl (by decide) rfl rfl).1 rfl (by decide)),
   ends_runs ((h 31 (sh { busyShift .run with wait := .idle }) _ rfl rfl rfl rfl (by decide) rfl rfl).1 rfl (by decide)),
   ends_runs ((h 31 (sh { busyShift .run with wait := .fill }) _ rfl rfl rfl rfl (by decide) rfl rfl).2 (.inr (.inr (.inl rfl)))),
   ends_runs ((h 31 (sh { busyShift .run with wait := .none }) _ rfl rfl rfl rfl (by decide) rfl rfl).2 (.inr (.inl rfl))),
   ends_runs ((h 31 (sh { busyShift .run with wait := .idle, nextAt := 70005 }) _ rfl rfl rfl rfl (by decide) rfl rfl).2 (.inl ⟨rfl, by decide⟩))⟩
/-- Engine 31 is at the instruction `op`, `a`, `b`, `d`. -/
def at31 (op a b d : Nat) (x : Shift) : State :=
  sh { x with st := .run, wait := .none, rem := 0, idle := 0, prog := x.prog.set x.pc.toNat (BitVec.ofNat 16 (4096 * op + 256 * a + 16 * b + d)) }
/-- The same, three cycles before it can issue. -/
def soon (op a : Nat) : State := at31 op a 0 3 { busyShift .run with nextAt := 70003 }
def due (s : State) : State := runClk s.se[(31 : Fin 32)].nextAt s
theorem witness_ShiftInstructionsWait (h : Says.ShiftInstructionsWait) :
    exec (.seNop 31) (soon 0 0) = exec (.seNop 31) (due (soon 0 0)) ∧
    exec (.seClkRun 31) (soon 5 1) = exec (.seClkRun 31) (due (soon 5 1)) ∧
    exec (.illop 31) (soon 13 0) = exec (.illop 31) (due (soon 13 0)) :=
  have a (op x : Nat) (p : (due (soon op x)).sys.pwr = .active) (q : Says.holdsInstr (soon op x).se[(31 : Fin 32)] op x 0 3) (l : op < 16)
    (n : (soon op x).tb.clk ≤ (soon op x).se[(31 : Fin 32)].nextAt) (e : (due (soon op x)).se[(31 : Fin 32)] = (soon op x).se[(31 : Fin 32)]) :=
    h 31 0 0 op x 0 3 (soon op x) (due (soon op x)) rfl p rfl q l n rfl e
  ⟨(a 0 0 rfl ⟨rfl, rfl, by decide, by decide, by decide, by decide⟩ (by decide) (by decide) rfl).2.1 (by decide) (.seNop 31, 0) (.head _) rfl,
   (a 5 1 rfl ⟨rfl, rfl, by decide, by decide, by decide, by decide⟩ (by decide) (by decide) rfl).2.2.1 rfl rfl (.seClkRun 31, 1) (by simp) rfl,
   (a 13 0 rfl ⟨rfl, rfl, by decide, by decide, by decide, by decide⟩ (by decide) (by decide) rfl).2.2.2 (by decide)⟩
theorem witness_ShiftInstructionsIssue (h : Says.ShiftInstructionsIssue) :
    Runs (.seSho 31) (at31 1 15 0 3 (busyShift .run)) ∧ Runs (.seShi 31) (at31 2 0 0 3 (busyShift .run)) ∧ Runs (.seShx 31) (at31 3 7 0 0 (busyShift .run)) :=
  ⟨ends_runs (h 31 15 3 (at31 1 15 0 3 (busyShift .run)) rfl (.seSho 31, 1, true, false) (by simp) ⟨⟨rfl, rfl, by decide, by decide, by decide, by decide⟩, by decide⟩),
   ends_runs (h 31 0 3 (at31 2 0 0 3 (busyShift .run)) rfl (.seShi 31, 2, false, true) (by simp) ⟨⟨rfl, rfl, by decide, by decide, by decide, by decide⟩, by decide⟩),
   ends_runs (h 31 7 0 (at31 3 7 0 0 (busyShift .run)) rfl (.seShx 31, 3, true, true) (by simp) ⟨⟨rfl, rfl, by decide, by decide, by decide, by decide⟩, by decide⟩)⟩
theorem witness_ShiftInstructionsComplete (h : Says.ShiftInstructionsComplete) :
    Runs (.seNop 31) (at31 0 0 0 3 (busyShift .run)) ∧ Runs (.seCmp 31) (at31 9 1 0 0 (busyShift .run)) ∧ Runs (.seMov 31 0 0) (at31 12 0 5 15 (busyShift .run)) ∧
    Runs (.seMov 31 0 0) (at31 12 1 2 0 (busyShift .run)) ∧ Runs (.seMov 31 0 0) (at31 12 2 2 0 (busyShift .run)) ∧ Runs (.seSig 31) (at31 11 7 3 0 (busyShift .run)) ∧
    Runs (.seClkHold 31) (at31 5 0 0 0 (busyShift .run)) ∧ Runs (.seClkRun 31) (at31 5 1 0 0 { busyShift .run with ckrun := false }) ∧
    Runs (.seClkRestart 31) (at31 5 2 0 0 (busyShift .run)) ∧ Runs (.sePut 31) (at31 4 0 9 0 (busyShift .run)) ∧
    Runs (.sePut 31) (at31 4 1 10 0 (busyShift .run)) ∧ Runs (.seBrc 31 1) (at31 10 11 15 2 (busyShift .run)) ∧ Runs (.seBrc 31 0) (at31 10 14 3 0 (busyShift .run)) :=
  have a (op a b d : Nat) (li : BitVec 8) (x : Shift) := h 31 a b d li 0 (at31 op a b d x) rfl
  ⟨ends_runs ((a 0 0 0 3 0 (busyShift .run)).1 ⟨⟨rfl, rfl, by decide, by decide, by decide, by decide⟩, by decide⟩),
   ends_runs ((a 9 1 0 0 0 (busyShift .run)).2.1 ⟨⟨rfl, rfl, by decide, by decide, by decide, by decide⟩, by decide⟩ (by decide)),
   ends_runs ((a 12 0 5 15 0 (busyShift .run)).2.2.1 ⟨⟨rfl, rfl, by decide, by decide, by decide, by decide⟩, by decide⟩ (by decide)),
   ends_runs ((a 12 1 2 0 0 (busyShift .run)).2.2.2.1 ⟨⟨rfl, rfl, by decide, by decide, by decide, by decide⟩, by decide⟩),
   ends_runs ((a 12 2 2 0 0 (busyShift .run)).2.2.2.2.1 ⟨⟨rfl, rfl, by decide, by decide, by decide, by decide⟩, by decide⟩),
   ends_runs ((a 11 7 3 0 0 (busyShift .run)).2.2.2.2.2.1 ⟨⟨rfl, rfl, by decide, by decide, by decide, by decide⟩, by decide⟩ (by decide) (by decide)),
   ends_runs ((a 5 0 0 0 0 (busyShift .run)).2.2.2.2.2.2.1 ⟨⟨rfl, rfl, by decide, by decide, by decide, by decide⟩, by decide⟩),
   ends_runs ((a 5 1 0 0 0 { busyShift .run with ckrun := false }).2.2.2.2.2.2.2.1 ⟨⟨rfl, rfl, by decide, by decide, by decide, by decide⟩, by decide⟩),
   ends_runs ((a 5 2 0 0 0 (busyShift .run)).2.2.2.2.2.2.2.2.1 ⟨⟨rfl, rfl, by decide, by decide, by decide, by decide⟩, by decide⟩),
   ends_runs ((a 4 0 9 0 0 (busyShift .run)).2.2.2.2.2.2.2.2.2.1 ⟨⟨rfl, rfl, by decide, by decide, by decide, by decide⟩, by decide⟩),
   ends_runs ((a 4 1 10 0 0 (busyShift .run)).2.2.2.2.2.2.2.2.2.2.1 ⟨⟨rfl, rfl, by decide, by decide, by decide, by decide⟩, by decide⟩),
   ends_runs ((a 10 11 15 2 1 (busyShift .run)).2.2.2.2.2.2.2.2.2.2.2 ⟨⟨rfl, rfl, by decide, by decide, by decide, by decide⟩, by decide⟩),
   ends_runs ((a 10 14 3 0 0 (busyShift .run)).2.2.2.2.2.2.2.2.2.2.2 ⟨⟨rfl, rfl, by decide, by decide, by decide, by decide⟩, by decide⟩)⟩
theorem witness_FillAndDrain (h : Says.FillAndDrain) :
    Runs (.seFill 31) (at31 7 1 0 3 (busyShift .run)) ∧ Runs (.seFill 31) (at31 7 1 0 3 { sr := 4 }) ∧ Runs (.seFill 31) (at31 7 0 0 3 { sr := 4 }) ∧
    Runs (.seDrain 31) (at31 8 0 0 3 (busyShift .run)) ∧ Runs (.seDrain 31) (at31 8 1 0 3 { sr := 4, rx := [1, 2, 3, 4] }) ∧
    Runs (.seDrain 31) (at31 8 0 0 3 { sr := 4, rx := [1, 2, 3, 4] }) ∧
    Runs (.fillComplete 31) (sh { busyShift .run with wait := .fill }) ∧ Runs (.drainComplete 31) (sh { busyShift .run with wait := .drain }) :=
  ⟨ends_runs (((h 31 1 3 1 [2] (at31 7 1 0 3 (busyShift .run)) rfl).1 ⟨⟨rfl, rfl, by decide, by decide, by decide, by decide⟩, by decide⟩ (by decide)).1 rfl),
   ends_runs (((h 31 1 3 1 [2] (at31 7 1 0 3 { sr := 4 }) rfl).1 ⟨⟨rfl, rfl, by decide, by decide, by decide, by decide⟩, by decide⟩ (by decide)).2.1 rfl rfl),
   ends_runs (((h 31 0 3 1 [2] (at31 7 0 0 3 { sr := 4 }) rfl).1 ⟨⟨rfl, rfl, by decide, by decide, by decide, by decide⟩, by decide⟩ (by decide)).2.2 rfl rfl),
   ends_runs (((h 31 0 3 1 [2] (at31 8 0 0 3 (busyShift .run)) rfl).2.1 ⟨⟨rfl, rfl, by decide, by decide, by decide, by decide⟩, by decide⟩ (by decide)).1 (by decide)),
   ends_runs (((h 31 1 3 1 [2] (at31 8 1 0 3 { sr := 4, rx := [1, 2, 3, 4] }) rfl).2.1 ⟨⟨rfl, rfl, by decide, by decide, by decide, by decide⟩, by decide⟩ (by decide)).2.1 (by decide) rfl),
   ends_runs (((h 31 0 3 1 [2] (at31 8 0 0 3 { sr := 4, rx := [1, 2, 3, 4] }) rfl).2.1 ⟨⟨rfl, rfl, by decide, by decide, by decide, by decide⟩, by decide⟩ (by decide)).2.2 (by decide) rfl),
   ends_runs (((h 31 0 0 1 [2] (sh { busyShift .run with wait := .fill }) rfl).2.2 rfl (by decide)).1 rfl rfl),
   ends_runs (((h 31 0 0 1 [2] (sh { busyShift .run with wait := .drain }) rfl).2.2 rfl (by decide)).2 rfl rfl (by decide))⟩
def barrier (b : Bool) : State :=
  { up with se := (up.se.set 31 { busyShift .run with cfg := 0xF000_0000, wait := .barrier b }).set 0 { busyShift .run with cfg := 0xF000_0001, wait := .barrier false } }
theorem witness_AwaitAndBarrier (h : Says.AwaitAndBarrier) :
    Runs (.seAwait 31 0 0) (at31 6 4 0 3 (busyShift .run)) ∧ Runs (.seAwait 31 0 0) (at31 6 4 0 3 {}) ∧ Runs (.seAwait 31 0 0) (at31 6 2 0 3 {}) ∧
    Runs (.seAwait 31 1 0) (at31 6 0 7 3 (busyShift .run)) ∧
    Runs (.awaitComplete 31 0 0) (sh { prog := (Vector.replicate 32 0).set 5 0x6403, pc := 5, st := .run, wait := .await 7, trg := true }) ∧
    Runs (.seAwait 31 0 0) (at31 6 3 0 3 { cfg := 0xF000_0000 }) ∧ Runs (.seAwait 31 0 0) (at31 6 3 0 3 {}) ∧
    Runs (.seClkRestartBarrier 31) (at31 5 3 0 3 { cfg := 0xF000_0000 }) ∧ Runs (.seClkRestartBarrier 31) (at31 5 3 0 3 {}) ∧
    Runs (.barrierRelease 7) (barrier true) :=
  have a (op a b d : Nat) (li : BitVec 8) (x : Shift) := h 31 b d li 0 7 (at31 op a b d x) rfl
  ⟨ends_runs (((a 6 4 0 3 0 (busyShift .run)).1 ⟨⟨rfl, rfl, by decide, by decide, by decide, by decide⟩, by decide⟩).1 rfl),
   ends_runs (((a 6 4 0 3 0 {}).1 ⟨⟨rfl, rfl, by decide, by decide, by decide, by decide⟩, by decide⟩).2 rfl),
   ends_runs ((a 6 2 0 3 0 {}).2.1 ⟨⟨rfl, rfl, by decide, by decide, by decide, by decide⟩, by decide⟩ (by decide)),
   ends_runs ((a 6 0 7 3 1 (busyShift .run)).2.2.1 ⟨⟨rfl, rfl, by decide, by decide, by decide, by decide⟩, by decide⟩ (by decide)),
   ends_runs ((h 31 0 3 0 0 7 (sh { prog := (Vector.replicate 32 0).set 5 0x6403, pc := 5, st := .run, wait := .await 7, trg := true }) rfl).2.2.2.1 rfl (by decide) (by decide) rfl ⟨7, rfl⟩),
   ends_runs (((a 6 3 0 3 0 { cfg := 0xF000_0000 }).2.2.2.2.1 ⟨⟨rfl, rfl, by decide, by decide, by decide, by decide⟩, by decide⟩).1 (by decide)),
   ends_runs (((a 6 3 0 3 0 {}).2.2.2.2.1 ⟨⟨rfl, rfl, by decide, by decide, by decide, by decide⟩, by decide⟩).2 (by decide)),
   ends_runs (((a 5 3 0 3 0 { cfg := 0xF000_0000 }).2.2.2.2.2.1 ⟨⟨rfl, rfl, by decide, by decide, by decide, by decide⟩, by decide⟩).1 (by decide)),
   ends_runs (((a 5 3 0 3 0 {}).2.2.2.2.2.1 ⟨⟨rfl, rfl, by decide, by decide, by decide, by decide⟩, by decide⟩).2 (by decide)),
   ends_runs ((h 31 0 0 0 0 7 (barrier true) rfl).2.2.2.2.2.2 ⟨31, true, ⟨by decide, by decide⟩, rfl, rfl⟩ (by unfold Says.inGroup; decide))⟩
theorem witness_ReservedCodeHalts (h : Says.ReservedCodeHalts) :
    Runs (.illop 31) (at31 13 0 0 0 (busyShift .run)) ∧ Runs (.illop 31) (at31 0 0 1 0 (busyShift .run)) ∧ Runs (.illop 31) (at31 3 0 1 0 (busyShift .run)) ∧
    Runs (.illop 31) (at31 4 5 0 0 (busyShift .run)) ∧ Runs (.illop 31) (at31 5 4 0 0 (busyShift .run)) ∧ Runs (.illop 31) (at31 6 7 0 0 (busyShift .run)) ∧
    Runs (.illop 31) (at31 6 5 9 0 (busyShift .run)) ∧ Runs (.illop 31) (at31 9 2 0 0 (busyShift .run)) ∧ Runs (.illop 31) (at31 11 0 4 0 (busyShift .run)) ∧
    Runs (.illop 31) (at31 12 0 7 0 (busyShift .run)) :=
  have a (op a b : Nat) (q : Says.atInstr (at31 op a b 0 (busyShift .run)).tb.clk (at31 op a b 0 (busyShift .run)).se[(31 : Fin 32)] op a b 0) (l : op < 16) := h 31 op a b 0 (at31 op a b 0 (busyShift .run)) rfl q l
  ⟨ends_runs (a 13 0 0 ⟨⟨rfl, rfl, by decide, by decide, by decide, by decide⟩, by decide⟩ (by decide) (by decide)),
   ends_runs (a 0 0 1 ⟨⟨rfl, rfl, by decide, by decide, by decide, by decide⟩, by decide⟩ (by decide) (by decide)),
   ends_runs (a 3 0 1 ⟨⟨rfl, rfl, by decide, by decide, by decide, by decide⟩, by decide⟩ (by decide) (by decide)),
   ends_runs (a 4 5 0 ⟨⟨rfl, rfl, by decide, by decide, by decide, by decide⟩, by decide⟩ (by decide) (by decide)),
   ends_runs (a 5 4 0 ⟨⟨rfl, rfl, by decide, by decide, by decide, by decide⟩, by decide⟩ (by decide) (by decide)),
   ends_runs (a 6 7 0 ⟨⟨rfl, rfl, by decide, by decide, by decide, by decide⟩, by decide⟩ (by decide) (by decide)),
   ends_runs (a 6 5 9 ⟨⟨rfl, rfl, by decide, by decide, by decide, by decide⟩, by decide⟩ (by decide) (by decide)),
   ends_runs (a 9 2 0 ⟨⟨rfl, rfl, by decide, by decide, by decide, by decide⟩, by decide⟩ (by decide) (by decide)),
   ends_runs (a 11 0 4 ⟨⟨rfl, rfl, by decide, by decide, by decide, by decide⟩, by decide⟩ (by decide) (by decide)),
   ends_runs (a 12 0 7 ⟨⟨rfl, rfl, by decide, by decide, by decide, by decide⟩, by decide⟩ (by decide) (by decide))⟩


def line (d : DomState) (x : Line) : State := { up with job := up.job.set 3 x, dom := { state := d } }
def ofs : Vector Word 6 := #v[0x10, 0x20, 0x20, 0x30, 0x40, 0x50]
def slot (v : Slot) : Line := { en := true, ofs := ofs, slots := (Vector.replicate 512 {}).set 1 v, psnNext := 8, lastAng := some 7 }
def someRec : JobRec := ⟨7, 1, 0, 0, 0, Vector.replicate 5 0, 4⟩
theorem slot_at (v : Slot) (j : Fin 512) : ((Vector.replicate 512 {} : Vector Slot 512).set 1 v)[j] = if j = 1 then v else {} := by
  simp only [Fin.getElem_fin, Vector.getElem_set, Vector.getElem_replicate, Fin.ext_iff]
  split <;> split <;> first | rfl | (exfalso; simp at *; omega)
theorem no_slot (i : Fin 512) : (line .armed { en := true, arg := 6 }).job[(3 : Fin 4)].slots[i].st = .free := by
  have e : (line .armed { en := true, arg := 6 }).job[(3 : Fin 4)].slots = Vector.replicate 512 {} := rfl
  rw [e]; simp

theorem witness_LineCommands (h : Says.LineCommands) :
    Runs (.jobEnable p0 3) (line .config { ofs := ofs, pitch := 1, ring := 0x8020_0000, inp := 3, wr := 5 }) ∧
    Runs (.jobDisable p0 3) (line .config (slot { st := .rejecting })) ∧ Runs (.setmark p0 3) (line .run { wr := 9, arg := 0xFFF9, ring := 0 }) ∧
    Runs (.rewind p0 3) (line .run { mark := 9, markv := true, inp := 9, delta := 4 }) ∧ Runs (.rewind p0 3) (line .run { mark := 3, markv := true, inp := 9, delta := 4 }) ∧
    Runs (.jobFlush p0 3) (line .run { slot {} with held := (Vector.replicate 64 none).set 7 (some someRec) }) ∧ Runs (.setpsn p0 3) (line .armed { en := true, arg := 6 }) ∧
    Runs (.jobEnable p0 3) (line .config {}) ∧ Runs (.jobEnable p0 3) (line .armed { ofs := ofs, pitch := 1, ring := 0x8020_0000 }) ∧
    Runs (.jobDisable p0 3) (line .config {}) ∧ Runs (.setmark p0 3) (line .run { wr := 9, arg := 0xFFF8, ring := 0 }) ∧
    Runs (.setmark p0 3) (line .run { wr := 9, arg := 9, rewinding := true }) ∧ Runs (.rewind p0 3) (line .run {}) ∧
    Runs (.rewind p0 3) (line .run { mark := 10, markv := true, inp := 9 }) ∧ Runs (.setpsn p0 3) (line .run {}) :=
  ⟨ends_runs ((h p0 3 (line .config { ofs := ofs, pitch := 1, ring := 0x8020_0000, inp := 3, wr := 5 }) _ rfl rfl).1 rfl rfl (by decide)),
   ends_runs ((h p0 3 (line .config (slot { st := .rejecting })) _ rfl rfl).2.1 rfl rfl),
   ends_runs ((h p0 3 (line .run { wr := 9, arg := 0xFFF9, ring := 0 }) _ rfl rfl).2.2.1 (by decide) rfl),
   ends_runs ((h p0 3 (line .run { mark := 9, markv := true, inp := 9, delta := 4 }) _ rfl rfl).2.2.2.1 rfl rfl (.inl rfl)),
   ends_runs ((h p0 3 (line .run { mark := 3, markv := true, inp := 9, delta := 4 }) _ rfl rfl).2.2.2.1 rfl rfl (.inr (by decide))),
   ends_runs (h p0 3 (line .run { slot {} with held := (Vector.replicate 64 none).set 7 (some someRec) }) _ rfl rfl).2.2.2.2.1,
   ends_runs ((h p0 3 (line .armed { en := true, arg := 6 }) _ rfl rfl).2.2.2.2.2.1 (fun i => no_slot i) (.inr rfl)),
   ends_runs ((h p0 3 (line .config {}) _ rfl rfl).2.2.2.2.2.2.1 (by decide)),
   ends_runs ((h p0 3 (line .armed { ofs := ofs, pitch := 1, ring := 0x8020_0000 }) _ rfl rfl).2.2.2.2.2.2.2.1 (by decide) (.inr (by decide))),
   ends_runs ((h p0 3 (line .config {}) _ rfl rfl).2.2.2.2.2.2.2.2.1 (.inl rfl)),
   ends_runs ((h p0 3 (line .run { wr := 9, arg := 0xFFF8, ring := 0 }) _ rfl rfl).2.2.2.2.2.2.2.2.2.1 (by decide)),
   ends_runs ((h p0 3 (line .run { wr := 9, arg := 9, rewinding := true }) _ rfl rfl).2.2.2.2.2.2.2.2.2.2.1 (by decide) rfl),
   ends_runs ((h p0 3 (line .run {}) _ rfl rfl).2.2.2.2.2.2.2.2.2.2.2.1 (.inl rfl)),
   ends_runs ((h p0 3 (line .run { mark := 10, markv := true, inp := 9 }) _ rfl rfl).2.2.2.2.2.2.2.2.2.2.2.1 (.inr (.inr (by decide)))),
   ends_runs ((h p0 3 (line .run {}) _ rfl rfl).2.2.2.2.2.2.2.2.2.2.2.2 (.inr (.inl rfl)))⟩
theorem witness_LineRegisters (h : Says.LineRegisters) :
    Runs (.jobRingWrWrite p0 3 0x10) (line .run { wr := 3, inp := 0, mark := 1, markv := true }) ∧
    Runs (.jobRingWrWrite p0 3 0x11) (line .run { wr := 3, inp := 0 }) ∧ Runs (.jobVrecPsnWrite .spi 3 5) (line .run {}) :=
  ⟨ends_runs ((h p0 3 0x10 (line .run { wr := 3, inp := 0, mark := 1, markv := true }) _ rfl rfl).1 (by decide) (by decide)),
   ends_runs ((h p0 3 0x11 (line .run { wr := 3, inp := 0 }) _ rfl rfl).2.1 (by decide)), ends_runs (h .spi 3 5 (line .run {}) _ rfl rfl).2.2⟩
theorem filter_one : (List.finRange 512).filter (fun i => decide (i = 1)) = [1] := by decide +kernel
theorem next_stage (d : DomState) (x : Line) (v : Slot) (g : Stage) (hs : x.slots = (Vector.replicate 512 {} : Vector Slot 512).set 1 v)
    (hg : x.dueStage 0 v = some g) : nextStage 3 (line d x) = some (1, g) := by
  have hf : ((List.finRange 512).filter fun i => (x.dueStage 0 x.slots[i]).isSome) = [1] := by
    rw [← filter_one]
    apply List.filter_congr
    intro i _
    rw [hs, slot_at]
    by_cases hi : i = 1
    · rw [if_pos hi, hg, hi]; rfl
    · rw [if_neg hi]; simp [hi, Line.dueStage]
  have hx : (line d x).job[(3 : Fin 4)] = x := rfl
  have ha : (line d x).wt[(3 : Fin 4)].published (line d x).tb.now = 0 := rfl
  have h1 : x.slots[(1 : Fin 512)] = v := by rw [hs, slot_at]; rfl
  simp only [nextStage, hx, ha, Line.oldestFirst, hf]
  show Option.map _ (x.dueStage 0 x.slots[(1 : Fin 512)]) = _
  rw [h1, hg]; rfl
theorem witness_LineStages (h : Says.LineStages) :
    Runs (.bind 3) (line .run { slot { st := .opened, ang := 0xFFFF_FFF0, psn := 7 } with held := (Vector.replicate 64 none).set 7 (some someRec) }) ∧
    Runs (.bind 3) (line .run (slot { st := .opened, ang := 0xFFFF_FFF0, psn := 7 })) ∧ Runs (.printStage 3) (line .hold (slot { st := .bound, ang := 0xFFFF_FFE0, psn := 7 })) ∧
    Runs (.decision 3) (line .run (slot { st := .bound, print := true, ang := 0xFFFF_FFC0, psn := 7, verdict := 1, printed := true })) ∧
    Runs (.decision 3) (line .run (slot { st := .bound, print := true, ang := 0xFFFF_FFC0, psn := 7, verdict := 2 })) ∧
    Runs (.gateAngle 3) (line .run (slot { st := .rejecting, ang := 0xFFFF_FFB0, psn := 7 })) :=
  ⟨ends_runs ((h 3 1 (line .run { slot { st := .opened, ang := 0xFFFF_FFF0, psn := 7 } with held := (Vector.replicate 64 none).set 7 (some someRec) }) _ rfl rfl rfl).1 (next_stage _ _ _ _ rfl (by decide))),
   ends_runs ((h 3 1 (line .run (slot { st := .opened, ang := 0xFFFF_FFF0, psn := 7 })) _ rfl rfl rfl).1 (next_stage _ _ _ _ rfl (by decide))),
   ends_runs ((h 3 1 (line .hold (slot { st := .bound, ang := 0xFFFF_FFE0, psn := 7 })) _ rfl rfl rfl).2.1 (next_stage _ _ _ _ rfl (by decide))),
   ends_runs ((h 3 1 (line .run (slot { st := .bound, print := true, ang := 0xFFFF_FFC0, psn := 7, verdict := 1, printed := true })) _ rfl rfl rfl).2.2.1 (next_stage _ _ _ _ rfl (by decide)) rfl rfl (fun _ => rfl)),
   ends_runs ((h 3 1 (line .run (slot { st := .bound, print := true, ang := 0xFFFF_FFC0, psn := 7, verdict := 2 })) _ rfl rfl rfl).2.2.2.1 (next_stage _ _ _ _ rfl (by decide)) rfl),
   ends_runs ((h 3 1 (line .run (slot { st := .rejecting, ang := 0xFFFF_FFB0, psn := 7 })) _ rfl rfl rfl).2.2.2.2 (next_stage _ _ _ _ rfl (by decide)))⟩
theorem witness_SafeClosesSlots (h : Says.SafeClosesSlots) : Runs (.safeSlotClose 3) (line .safe (slot { st := .bound, psn := 7 })) :=
  ends_runs (h 3 (line .safe (slot { st := .bound, psn := 7 })) _ rfl rfl rfl rfl)
def ring (m : List Host.Cell) : State := modCis (fun c => { c with mem := m }) (line .run { en := true, wr := 1, ring := 0 })
def zeros (v : BitVec 64) : Vector (BitVec 64) 8 := (Vector.replicate 8 0).set 7 v
theorem witness_IntakeTakesRecord (h : Says.IntakeTakesRecord) : Runs (.intake 3) (ring [(62, 0xDB), (63, 0xC9)]) :=
  ends_runs (h 3 (zeros 0xC9DB_0000_0000_0000) (ring [(62, 0xDB), (63, 0xC9)]) _ rfl rfl rfl (by decide) rfl rfl rfl rfl rfl rfl (by decide)
     (by intro q hq; exact nomatch hq) (by decide) (by unfold Says.clean; decide +kernel))
def taken (w : Vector (BitVec 64) 8) (b : Bool) : State :=
  { line .run { en := true, wr := 1, taken := some (w, b) } with later := [.line 3] }
theorem witness_RecordJudged (h : Says.RecordJudged) :
    (advance 1 (taken (zeros 0xC9DB_0000_0000_0000) false)).job[(3 : Fin 4)].inp = 1 ∧
    bit (advance 1 (taken (zeros 0xC9DB_0000_0000_0000) true)).job[(3 : Fin 4)].stat 1 = true ∧
    (advance 1 (taken (zeros 0xC9DB_0000_0000_0000) false)).job[(3 : Fin 4)].held[(0 : Fin 64)].isSome = true :=
  ⟨(h 3 _ _ (taken (zeros 0xC9DB_0000_0000_0000) false) _ rfl rfl rfl rfl rfl rfl).1,
   ((h 3 _ _ (taken (zeros 0xC9DB_0000_0000_0000) true) _ rfl rfl rfl rfl rfl rfl).2.2.2.2.2.2.2 (fun a => nomatch a.1)).1,
   by
     have e := (h 3 _ _ (taken (zeros 0xC9DB_0000_0000_0000) false) _ rfl rfl rfl rfl rfl rfl).2.2.2.2.2.2.1
       ⟨rfl, by decide +kernel⟩ (by decide +kernel) (by decide +kernel) rfl
     exact (congrArg Option.isSome e).trans rfl⟩
def report (code : Nat) (v : BitVec 2) : State :=
  modWell 4 (fun _ => { en := true, cfg := 0x00AC_0000, items := [mkItem (BitVec.ofNat 64 (7 * 2 ^ 32 + code * 2 ^ 28 + 1 * 2 ^ 16)) 0, mkItem 9 0] })
    (line .run { slot { st := .bound, psn := 7, verdict := v } with wells := 0x0084_0000, stagePcie := 7 })
theorem only_slot (j : Fin 512) (hj : (report 0 0).job[(3 : Fin 4)].slots[j].st ≠ .free) : j = 1 := by
  have e : (report 0 0).job[(3 : Fin 4)].slots = (slot { st := .bound, psn := 7, verdict := 0 }).slots := rfl
  rw [e] at hj
  simp only [slot, slot_at] at hj
  split at hj
  · assumption
  · exact absurd rfl hj
theorem witness_VerdictsAndReports (h : Says.VerdictsAndReports) :
    Runs (.verdictRecord p0 3 3) (report 0 0) ∧ Runs (.verdictRecord p0 3 4) (report 0 0) ∧ Runs (.reportWellItem 3) (report 1 0) ∧ Runs (.reportWellItem 3) (report 4 1) :=
  ⟨ends_runs ((h p0 3 1 (report 0 0) (.inr rfl)).1 rfl rfl (fun j a _ => only_slot j a)).1,
   ends_runs ((h p0 3 1 (report 0 0) (.inr rfl)).1 rfl rfl (fun j a _ => only_slot j a)).2,
   ends_runs (((h p0 3 1 (report 1 0) (.inr rfl)).2 4 _ _ rfl rfl (by decide) (by decide) (by decide) rfl (by decide) rfl (by decide +kernel) rfl (by decide +kernel) (by decide +kernel)).1 (by decide)),
   ends_runs (((h p0 3 1 (report 4 1) (.inr rfl)).2 4 _ _ rfl rfl (by decide) (by decide) (by decide) rfl (by decide) rfl (by decide +kernel) rfl (by decide +kernel) (by decide +kernel)).2 (by decide))⟩
def completing (w : BitVec 16) : State :=
  { line .run { crCfg := 0x8000_0000, crWr := w, crRd := 7, crBase := 0x1000, queue := [⟨7, 2, 4, 9⟩, ⟨8, 2, 4, 9⟩] } with sys := { ready := true, bme := true } }
theorem witness_CompletionRecordWritten (h : Says.CompletionRecordWritten) :
    Runs (.completionRecord 3) (completing 15) ∧ Runs (.completionRecord 3) (completing 0) :=
  ⟨ends_runs (h 3 ⟨7, 2, 4, 9⟩ [⟨8, 2, 4, 9⟩] (completing 15) rfl (by decide) (by decide) rfl (by decide) rfl),
   ends_runs (h 3 ⟨7, 2, 4, 9⟩ [⟨8, 2, 4, 9⟩] (completing 0) rfl (by decide) (by decide) rfl (by decide) rfl)⟩


set_option maxRecDepth 4000

theorem witness_MemoryReadsWhatWasPut (h : Obligations.MemoryReadsWhatWasPut) :
    Memory.wf (Memory.put [(3, 5)] 2 7) = true := (h [(3, 5)] 2 7 (by decide)).1
theorem witness_stored : Says.stored up := ⟨by decide, fun _ => by simp [up, State.reset]⟩

/-- One access waits at its port. -/
def waiting (l : List Access) : State := modCis (fun c => { c with waiting := l, banks := c.banks.set 0 { own := 0x4000_0000 } }) up
def acc (port word : Nat) (k : AccKind) : Access := ⟨port, word, k, .none⟩
theorem offered_one (a : Access) (hp : a.port < 26) (hb : bankOf a.word = 0) (hw : wayOf a.word = 0)
    (ha : admits (0x4000_0000 : Word) a.port a.kind.isWrite = true) : Says.offered (waiting [a]) 0 0 a :=
  ⟨hp, hb, hw, ha, [], [], rfl, by simp⟩
theorem offered_only (a q : Access) (h : Says.offered (waiting [a]) 0 0 q) : q = a := by
  obtain ⟨_, _, _, _, l, r, e, -⟩ := h
  cases l with
  | nil => simp [waiting, modCis] at e; exact e.1.symm
  | cons x l => simp [waiting, modCis] at e

theorem witness_WayGrants (h : Says.WayGrants) :
    Runs (.wayGrant 0 0) (waiting [acc 25 8 .read]) ∧ Runs (.wayGrant 0 0) (waiting [acc 23 8 (.write 5 false)]) ∧
    Runs (.wayGrant 0 0) (waiting [acc 16 8 (.part 5 0x0F false)]) ∧ Runs (.wayGrant 0 0) (waiting [acc 25 8 (.add 5)]) ∧
    Runs (.wayGrant 0 0) (waiting [acc 25 8 (.swap 5)]) := by
  have w (a : Access) (hp : a.port < 26) (hb : bankOf a.word = 0) (hw : wayOf a.word = 0)
      (ha : admits (0x4000_0000 : Word) a.port a.kind.isWrite = true) :=
    h 0 0 a [] [] (waiting [a]) (by simp [waiting, modCis, up]; decide) rfl (by simp) (offered_one a hp hb hw ha) (fun _ => by simp [waiting, modCis, up, State.reset])
      (fun q hq _ hn => absurd (offered_only a q hq) hn) (by simp [waiting, modCis, up]) ⟨rfl, by simp [waiting, modCis, up]⟩ rfl
  exact ⟨ends_runs ((w (acc 25 8 .read) (by decide) (by decide) (by decide) (by decide)).1 rfl),
    ends_runs ((w (acc 23 8 (.write 5 false)) (by decide) (by decide) (by decide) (by decide)).2.1 5 rfl (by decide)),
    ends_runs ((w (acc 16 8 (.part 5 0x0F false)) (by decide) (by decide) (by decide) (by decide)).2.2.1 5 0x0F rfl),
    ends_runs ((w (acc 25 8 (.add 5)) (by decide) (by decide) (by decide) (by decide)).2.2.2.1 5 rfl),
    ends_runs ((w (acc 25 8 (.swap 5)) (by decide) (by decide) (by decide) (by decide)).2.2.2.2 5 rfl)⟩
theorem witness_PoisonReported (h : Says.PoisonReported) :
    Runs (.wayGrant 0 0) (modCis (fun c => { c with poison := [8] }) (waiting [acc 16 8 .read])) :=
  ends_runs (h 0 0 (acc 16 8 .read) (modCis (fun c => { c with poison := [8] }) (waiting [acc 16 8 .read])) (by decide) rfl
    (offered_one _ (by decide) (by decide) (by decide) (by decide)) (fun _ => by simp [acc, waiting, modCis, up, State.reset]) rfl (by decide) (by decide))
theorem witness_LostWriteCounted (h : Says.LostWriteCounted) :
    Runs (.wayGrant 0 0) (waiting [acc 16 8 (.write 5 false), acc 25 8 (.write 6 false)]) :=
  ends_runs (h 0 0 16 25 8 5 6 .none .none (waiting [acc 16 8 (.write 5 false), acc 25 8 (.write 6 false)]) (by decide) (by decide) rfl
    ⟨by decide, by decide, by decide, by decide, [], [_], rfl, by simp⟩
    ⟨by decide, by decide, by decide, by decide, [_], [], rfl, by simp [acc]⟩ (fun _ => by simp [acc, waiting, modCis, up, State.reset]) (fun _ => by simp [acc, waiting, modCis, up, State.reset]) (.inl (by decide)) (by decide) rfl)
/-- A bank that only the host may use. -/
def mine (l : List Access) : State := modCis (fun c => { c with waiting := l }) up
/-- One that only the engines may use. -/
def mine' (l : List Access) : State := modCis (fun c => { c with waiting := l, banks := c.banks.set 0 { own := 0x8000_8000 } }) up
theorem witness_AccessRefusedAtBank (h : Says.AccessRefusedAtBank) :
    Runs (.accessRefused 2) (mine [acc 2 9 .read]) ∧ Runs (.accessRefused 23) (mine [acc 23 9 (.write 3 false)]) ∧
    Runs (.accessRefused 24) (mine [acc 24 9 (.write 3 false)]) ∧ Runs (.accessRefused 25) (mine' [⟨25, 9, .read, .job 3⟩]) :=
  ⟨ends_runs ((h 2 (acc 2 9 .read) [] [] (mine [acc 2 9 .read]) rfl (by simp) rfl (by decide) (by decide) (by decide)).1 2 rfl),
   ends_runs ((h 23 (acc 23 9 (.write 3 false)) [] [] (mine [acc 23 9 (.write 3 false)]) rfl (by simp) rfl (by decide) (by decide) (by decide)).2.1 7 rfl),
   ends_runs ((h 24 (acc 24 9 (.write 3 false)) [] [] (mine [acc 24 9 (.write 3 false)]) rfl (by simp) rfl (by decide) (by decide) (by decide)).2.2.2 (by decide) (by decide)),
   ends_runs ((h 25 ⟨25, 9, .read, .job 3⟩ [] [] (mine' [⟨25, 9, .read, .job 3⟩]) rfl (by simp) rfl (by decide) (by decide) (by decide)).2.2.1 3 (by decide) rfl)⟩
def returning (r : Return) : State :=
  modTe 3 (fun e => { e with pend := [{ id := 4, dst := some 1, load := true, owner := none }] }) (modCis (fun c => { c with returns := [r] }) up)
theorem witness_ReadDataReturns (h : Says.ReadDataReturns) :
    Runs (.readDataReturn 3) (returning ⟨3, .engine 4, 77, false, 9⟩) ∧ Runs (.readDataReturn 25) (returning ⟨25, .pcie 1 0 8, 0x1234, false, 9⟩) ∧
    Runs (.readDataReturn 17) (modPump 1 (fun x => { x with asked := true }) (returning ⟨17, .pump, 5, true, 9⟩)) :=
  ⟨ends_runs ((h 3 [] [] 77 false 9 (returning ⟨3, .engine 4, 77, false, 9⟩) (by simp) (by decide)).1 3 4 rfl rfl),
   ends_runs ((h 25 [] [] 0x1234 false 9 (returning ⟨25, .pcie 1 0 8, 0x1234, false, 9⟩) (by simp) (by decide)).2.2 1 0 8 (by decide) (by decide) rfl),
   ends_runs ((h 17 [] [] 5 true 9 (modPump 1 (fun x => { x with asked := true }) (returning ⟨17, .pump, 5, true, 9⟩)) (by simp) (by decide)).2.1 1 rfl rfl rfl)⟩
theorem witness_BankHandedOver (h : Says.BankHandedOver) :
    Runs (.bankHandover p0 7 0x8000_0000) up ∧ Runs (.bankHandover p0 0 0x4000_0000) (modRcd (fun r => { r with state := .record }) up) ∧
    Runs (.bankHandover p0 0 0x8000_0001) up ∧ Runs (.bankHandover p0 0 0) up :=
  ⟨ends_runs ((h p0 7 0x8000_0000 up rfl).1 (by decide)),
   ends_runs ((h p0 0 0x4000_0000 (modRcd (fun r => { r with state := .record }) up) rfl).2.1 (by decide) (.inr ⟨by decide, .inl rfl⟩)),
   ends_runs ((h p0 0 0x8000_0001 up rfl).2.2.2 (by decide) (by decide) (by decide)), ends_runs ((h p0 0 0 up rfl).2.2.1 (by decide) (by decide) (by decide))⟩
def scrubbing (f : List (Nat × BitVec 16)) : State :=
  modCis (fun c => { c with scrubAt := some 70000, scrubWord := 2 ^ 21 - 1, flipped := f, mem := [(2 ^ 24 - 8, 9)] }) up
theorem none_offered (f : List (Nat × BitVec 16)) (b : Fin 8) (w : Fin 4) (a : Access) : ¬ Says.offered (scrubbing f) b w a := by
  rintro ⟨_, _, _, _, l, r, e, _⟩
  have e : ([] : List Access) = l ++ a :: r := e
  cases l <;> exact nomatch e
theorem witness_ScrubberVisits (h : Says.ScrubberVisits) :
    Runs .scrubVisit (scrubbing []) ∧ Runs .scrubVisit (scrubbing [(2 ^ 21 - 1, 0x0030)]) :=
  ⟨ends_runs ((h 70000 (2 ^ 21 - 1) (scrubbing []) (by decide) rfl rfl rfl rfl (by decide) (none_offered _ _ _) (by decide) rfl rfl).1 (by simp [scrubbing, modCis])),
   ends_runs ((h 70000 (2 ^ 21 - 1) (scrubbing [(2 ^ 21 - 1, 0x0030)]) (by decide) rfl rfl rfl rfl (by decide) (none_offered _ _ _) (by decide) rfl rfl).2
     1 0x0030 [] [] (by decide) rfl (by simp) (by decide) (by decide))⟩
def held (l : List Access) (r : List Return) : State :=
  modCis (fun c => { c with waiting := l, returns := r, banks := c.banks.set 0 { own := 0x4000_0000, ways := Vector.replicate 4 { free := 70001 } } }) up
def elementDue : State :=
  modPump 1 (fun _ => { state := .run, desc := some ⟨0, 64, 32, 64⟩, moved := 56, next := 70002 }) up
/-- Port 2 was refused in this cycle, and offers `a` next. -/
def again (a : Access) : State :=
  modCis (fun c => { c with waiting := [a], turn := c.turn.set 2 70001, banks := c.banks.set 1 { own := 0x8000_0004 } }) up
theorem witness_CisternCommandsWait (h : Says.CisternCommandsWait) :
    exec (.wayGrant 0 0) (held [acc 25 8 .read] []) = exec (.wayGrant 0 0) (runClk 70001 (held [acc 25 8 .read] [])) ∧
    exec (.wayGrant 1 0) (again (acc 2 262144 .read)) = exec (.wayGrant 1 0) (runClk 70001 (again (acc 2 262144 .read))) ∧
    exec (.accessRefused 2) (again (acc 2 8 .read)) = exec (.accessRefused 2) (runClk 70001 (again (acc 2 8 .read))) ∧
    exec (.readDataReturn 25) (held [] [⟨25, .job 3, 5, false, 70004⟩]) = exec (.readDataReturn 25) (runClk 70004 (held [] [⟨25, .job 3, 5, false, 70004⟩])) ∧
    exec (.elementMove 1) elementDue = exec (.elementMove 1) (runClk 70002 elementDue) :=
  ⟨((h (held [acc 25 8 .read] []) (runClk 70001 (held [acc 25 8 .read] [])) rfl).1 0 0 (by decide) (by decide) (by decide) rfl rfl).2,
   (h (again (acc 2 262144 .read)) (runClk 70001 (again (acc 2 262144 .read))) rfl).2.1 1 0 (by decide) (by decide) (by decide) rfl rfl,
   ((h (again (acc 2 8 .read)) (runClk 70001 (again (acc 2 8 .read))) rfl).2.2.1 2 (acc 2 8 .read) [] [] rfl (by simp) rfl (by decide) rfl rfl).2,
   ((h (held [] [⟨25, .job 3, 5, false, 70004⟩]) (runClk 70004 (held [] [⟨25, .job 3, 5, false, 70004⟩])) rfl).2.2.2.1 25 ⟨25, .job 3, 5, false, 70004⟩ [] []
     rfl (by simp) rfl (by decide) rfl rfl).2,
   ((h elementDue (runClk 70002 elementDue) rfl).2.2.2.2 1 ⟨0, 64, 32, 64⟩ rfl rfl rfl (by decide) (by intro q hq; exact nomatch hq) (by decide) rfl rfl rfl).2⟩
theorem witness_InitialisationEnds (h : Says.InitialisationEnds) :
    Runs .cisternInitDone { State.reset with tb := { running := true, clk := 65536 } } ∧ Runs .cisternInitDone { State.reset with tb := { running := true, clk := 65000 } } :=
  ⟨ends_runs (h { State.reset with tb := { running := true, clk := 65536 } } _ (by decide) rfl (by decide) rfl),
   ends_runs (h { State.reset with tb := { running := true, clk := 65000 } } _ (by decide) rfl (by decide) rfl)⟩
theorem witness_HostWindowAccesses (h : Says.HostWindowAccesses) :
    Runs (.bar2Read 5 13 9) up ∧ Runs (.bar2Write 13 [some 1, none, some 3, some 4, some 5]) up ∧
    Runs (.bar2Write 16 (List.replicate 8 (some 7))) up :=
  ⟨ends_runs ((h 5 13 up rfl).1 9 (by decide)), ends_runs ((h 5 13 up rfl).2 [some 1, none, some 3, some 4, some 5] (by decide)),
   ends_runs ((h 5 16 up rfl).2 (List.replicate 8 (some 7)) (by decide))⟩
def well (k : Fin 64) (w : Well) : State := modWell k (fun _ => w) up
theorem witness_WellCommands (h : Says.WellCommands) :
    Runs (.wellEnable p0 63) (well 63 { cfg := 0xAC40_67C0 }) ∧ Runs (.wellFlush p0 3) (well 3 { en := true, gcnt := 2 }) ∧
    Runs (.wellDisable .spi 3) (well 3 { en := true, items := [mkItem 4 0] }) ∧ Runs (.wellEnable p0 63) (well 63 { en := true }) ∧
    Runs (.wellFlush p0 63) (well 63 {}) ∧ Runs (.wellDisable p0 63) (well 63 {}) ∧ Runs (.wellEnable p0 63) (well 63 { cfg := 0x7000 }) :=
  ⟨ends_runs ((h p0 63 (well 63 { cfg := 0xAC40_67C0 }) rfl).1 rfl (by decide) (by decide) (by decide) (.inr (by decide)) (.inr (by decide))),
   ends_runs ((h p0 3 (well 3 { en := true, gcnt := 2 }) rfl).2.1 rfl),
   ends_runs ((h .spi 3 (well 3 { en := true, items := [mkItem 4 0] }) rfl).2.2.1 rfl),
   ends_runs ((h p0 63 (well 63 { en := true }) rfl).2.2.2.1 rfl), ends_runs ((h p0 63 (well 63 {}) rfl).2.2.2.2.1 rfl).1,
   ends_runs ((h p0 63 (well 63 {}) rfl).2.2.2.2.1 rfl).2, ends_runs ((h p0 63 (well 63 { cfg := 0x7000 }) rfl).2.2.2.2.2 rfl (.inl (by decide)))⟩
def hostWell (gcnt : Word) (n : Nat) : State := well 2 { en := true, cfg := 0x0404_0000, gcnt := gcnt, items := List.replicate n (mkItem 9 0) }
theorem witness_WellPushes (h : Says.WellPushes) :
    Runs (.wellPushLoWrite .spi 2 7) up ∧ Runs (.wellPushHiWrite p0 2 7) (hostWell 0 15) ∧ Runs (.wellPushHiWrite p0 2 7) (hostWell 1 14) ∧
    Runs (.wellPushHiWrite p0 2 7) (hostWell 0 0) ∧
    Runs (.wellPushHiWrite p0 2 7) (hostWell 0 16) ∧ Runs (.wellPushHiWrite p0 2 7) (hostWell 1 15) ∧ Runs (.wellPushHiWrite p0 2 7) up :=
  ⟨ends_runs (h .spi 2 7 up rfl).1,
   ends_runs ((h p0 2 7 (hostWell 0 15) rfl).2.1 (by decide) (by decide)), ends_runs ((h p0 2 7 (hostWell 1 14) rfl).2.1 (by decide) (by decide)),
   ends_runs ((h p0 2 7 (hostWell 0 0) rfl).2.1 (by decide) (by decide)),
   ends_runs ((h p0 2 7 (hostWell 0 16) rfl).2.2.1 (by decide) (by decide)), ends_runs ((h p0 2 7 (hostWell 1 15) rfl).2.2.1 (by decide) (by decide)),
   ends_runs ((h p0 2 7 up rfl).2.2.2 (by decide))⟩
theorem witness_WellPops (h : Says.WellPops) :
    Runs (.wellPopLoRead p0 2) (hostWell 0 0) ∧ Runs (.wellPopLoRead p0 2) (hostWell 0 2) ∧
    Runs (.wellPopLoRead .spi 2) (well 2 { en := true, cfg := 0x0404_0000, items := [⟨5, 0, true⟩] }) ∧ Runs (.wellPopLoRead p0 2) up :=
  ⟨does_runs ((h p0 2 (hostWell 0 0) rfl rfl (by decide)).1 (by decide) rfl), does_runs (((h p0 2 (hostWell 0 2) rfl rfl (by decide)).2.1 (by decide) _ _ rfl).1 (by decide)),
   does_runs (((h .spi 2 (well 2 { en := true, cfg := 0x0404_0000, items := [⟨5, 0, true⟩] }) rfl rfl (by decide)).2.1 (by decide) _ _ rfl).2 (by decide)),
   does_runs ((h p0 2 up rfl rfl (by decide)).2.2 (by decide))⟩
def pump (x : Pump) : State := modPump 1 (fun _ => x) { up with sys := { ready := true, bme := true, dlact := true } }
theorem witness_PumpCommands (h : Says.PumpCommands) :
    Runs (.pumpStart p0 1) (pump { ringcfg := 10 }) ∧ Runs (.pumpStop p0 1) (pump { state := .run }) ∧
    Runs (.pumpStop p0 1) (pump { state := .error }) ∧ Runs (.pumpTailWrite p0 1 2) (pump { head := 0xFFFE }) ∧
    Runs (.pumpTailWrite p0 1 3) (pump { head := 0xFFFE }) ∧ Runs (.pumpStart p0 1) (pump { ringcfg := 11 }) ∧
    Runs (.pumpStart p0 1) (pump { state := .run }) ∧ Runs (.pumpStop p0 1) (pump {}) :=
  ⟨ends_runs ((h p0 1 0 (pump { ringcfg := 10 }) rfl).1 rfl (by decide)), ends_runs ((h p0 1 0 (pump { state := .run }) rfl).2.1 rfl),
   ends_runs ((h p0 1 0 (pump { state := .error }) rfl).2.2.1 rfl), ends_runs ((h p0 1 2 (pump { head := 0xFFFE }) rfl).2.2.2.1 (by decide)),
   ends_runs ((h p0 1 3 (pump { head := 0xFFFE }) rfl).2.2.2.2.1 (by decide)),
   ends_runs ((h p0 1 0 (pump { ringcfg := 11 }) rfl).2.2.2.2.2.1 rfl (by decide)), ends_runs ((h p0 1 0 (pump { state := .run }) rfl).2.2.2.2.2.2.1 rfl (by decide) (by decide)),
   ends_runs ((h p0 1 0 (pump {}) rfl).2.2.2.2.2.2.2 (.inl rfl))⟩
def pumpCis (x : Pump) : State :=
  modCis (fun c => { c with mem := [(32, 1), (36, 8), (40, 3)], banks := c.banks.set 0 { own := 0x4000_0000 } }) (pump x)
def fetching : Pump := { state := .run, fetching := true, hostOut := [24], ringcfg := 0x8000_0000 }
theorem witness_DescriptorTaken (h : Says.DescriptorTaken) :
    Runs (.descriptorTake 1) (pump { state := .run, ringcfg := 0x8000_0000, head := 0xFFFF }) ∧
    Runs (.descriptorTake 1) (pumpCis { state := .run, ring := 32, tail := 1 }) ∧
    Runs (.hostReadCompletion 1 (.data [(1, false), (0, false), (3, false), (4, false), (5, false), (6, false)])) (pump fetching) :=
  ⟨ends_runs (((h 1 (pump { state := .run, ringcfg := 0x8000_0000, head := 0xFFFF }) rfl).1 rfl rfl (by decide)).1 rfl rfl (by decide)),
   ends_runs (((h 1 (pumpCis { state := .run, ring := 32, tail := 1 }) rfl).1 rfl rfl (by decide)).2 rfl
     ⟨rfl, rfl, rfl, rfl, rfl, (by intro q hq; exact nomatch hq), by decide, by decide, by decide⟩
     (by decide) (fun i hi => ⟨⟨rfl, by intro q hq; exact nomatch hq⟩, by
       match i, hi with | 0, _ | 1, _ | 2, _ => decide⟩) (by decide)),
   ends_runs ((h 1 (pump fetching) rfl).2 1 0 3 4 5 6 rfl rfl rfl rfl)⟩
def desc (t : Word) : Desc := ⟨t, 64, 32, 64⟩
def moving (t : Word) (x : Pump) (well : Well) : State := modWell 5 (fun _ => well) (pumpCis { x with state := .run, desc := some (desc t) })
theorem works (t : Word) (x : Pump) (y : Well) (src dst : Nat) (a : x.fail = none) (b : x.half = none) (c : x.asked = false) (d : x.next ≤ 70000) (e : x.moved < 64)
    (f : bit t 30 = false) (g : fld t 28 26 = src) (i : fld t 25 23 = dst) : Says.working (moving t x y) 1 (desc t) src dst :=
  ⟨rfl, rfl, a, b, c, d, e, f, g, i, by intro q hq; exact nomatch hq⟩
def toWell : Well := { en := true, cfg := 0x0084_0000 }
theorem witness_ElementMoves (h : Says.ElementMoves) :
    Runs (.elementMove 1) (moving 0 { moved := 56, taken := 56 } {}) ∧ Runs (.elementMove 1) (moving 0 { moved := 56, got := some (5, false) } {}) ∧
    Runs (.elementMove 1) (moving 0x088A_0000 { moved := 56 } { toWell with items := [mkItem 3 0, mkItem 4 0] }) ∧
    Runs (.elementMove 1) (moving 0x088A_0000 { moved := 56 } toWell) ∧ Runs (.elementMove 1) (moving 0x0180_E600 { moved := 56, got := some (5, true) } {}) ∧
    Runs (.elementMove 1) (moving 0x0180_E600 { moved := 56, got := some (5, false), stale := [56] } {}) ∧
    Runs (.elementMove 1) { moving 0x0180_E600 { moved := 56, got := some (5, false) } {} with se := up.se.set 30 { tx := [1, 2, 3, 4] } } ∧
    Runs (.elementMove 1) (moving 0x0400_0000 {} {}) :=
  ⟨ends_runs ((h 1 (desc 0) (moving 0 { moved := 56, taken := 56 } {})).1 0 (by decide) (works _ _ _ _ _ rfl rfl rfl (by decide) (by decide) (by decide) (by decide) (by decide)) rfl (by decide)),
   ends_runs ((h 1 (desc 0) (moving 0 { moved := 56, got := some (5, false) } {})).2.1 5 false (works _ _ _ _ _ rfl rfl rfl (by decide) (by decide) (by decide) (by decide) (by decide)) rfl),
   ends_runs (((h 1 (desc 0x088A_0000) (moving 0x088A_0000 { moved := 56 } { toWell with items := [mkItem 3 0, mkItem 4 0] })).2.2.1 5 (by decide)
     (works _ _ _ _ _ rfl rfl rfl (by decide) (by decide) (by decide) (by decide) (by decide)) rfl (by decide) rfl (by decide) (by decide)).1 (mkItem 3 0) [mkItem 4 0] rfl (by decide) rfl),
   ends_runs (((h 1 (desc 0x088A_0000) (moving 0x088A_0000 { moved := 56 } toWell)).2.2.1 5 (by decide)
     (works _ _ _ _ _ rfl rfl rfl (by decide) (by decide) (by decide) (by decide) (by decide)) rfl (by decide) rfl (by decide) (by decide)).2 rfl),
   ends_runs (((h 1 (desc 0x0180_E600) (moving 0x0180_E600 { moved := 56, got := some (5, true) } {})).2.2.2.1 30 5 true (by decide)
     (works _ _ _ _ _ rfl rfl rfl (by decide) (by decide) (by decide) (by decide) (by decide)) rfl).1 (by decide) (by decide)),
   ends_runs (((h 1 (desc 0x0180_E600) (moving 0x0180_E600 { moved := 56, got := some (5, false), stale := [56] } {})).2.2.2.1 30 5 false (by decide)
     (works _ _ _ _ _ rfl rfl rfl (by decide) (by decide) (by decide) (by decide) (by decide)) rfl).2.1 (by decide)),
   ends_runs (((h 1 (desc 0x0180_E600) { moving 0x0180_E600 { moved := 56, got := some (5, false) } {} with se := up.se.set 30 { tx := [1, 2, 3, 4] } }).2.2.2.1 30 5 false (by decide)
     ⟨rfl, rfl, rfl, rfl, rfl, by decide, by decide, by decide, by decide, by decide, by intro q hq; exact nomatch hq⟩ rfl).2.2 (by decide) (by decide)),
   ends_runs ((h 1 (desc 0x0400_0000) (moving 0x0400_0000 {} {})).2.2.2.2 (works _ _ _ _ _ rfl rfl rfl (by decide) (by decide) (by decide) (by decide) (by decide)) rfl rfl rfl rfl
     (by decide) (by decide) (by decide))⟩
def ending (x : Pump) : State := pumpCis { x with desc := some (desc 0x8000_0000), moved := 64 }
theorem noneWait (x : Pump) : ∀ q ∈ (ending x).cis.waiting, q.port ≠ 16 + (1 : Fin 8).val := by intro q hq; exact nomatch hq
theorem witness_DescriptorEnds (h : Says.DescriptorEnds) :
    Runs (.descriptorEnd 1) (ending { state := .run, ringcfg := 0x8000_0000 }) ∧ Runs (.descriptorEnd 1) (ending { state := .run }) ∧
    Runs (.descriptorEnd 1) (ending { state := .run, ringcfg := 0x8000_0000, fail := some 2 }) ∧
    Runs (.descriptorEnd 1) (ending { state := .run, ringcfg := 0x8000_0000, fail := some 7, cfg := 0x4000_0000 }) ∧
    Runs (.stoppingEnd 1) (ending { state := .stopping, ringcfg := 0x8000_0000 }) ∧
    Runs (.stoppingEnd 1) (ending { state := .stopping, ringcfg := 0x8000_0000, fail := some 3 }) ∧
    Runs (.stoppingEnd 1) { ending { state := .stopping, ringcfg := 0x8000_0000 } with sys := {} } ∧ Runs (.stoppingEnd 1) (pump { state := .stopping }) ∧
    Runs (.hostReadCompletion 1 (.data [(7, false)])) (pump { state := .run, hostOut := [4, 8] }) ∧
    Runs (.hostReadCompletion 1 .error) (pump { state := .run, hostOut := [4, 8] }) :=
  ⟨ends_runs (((h 1 (desc 0x8000_0000) (ending { state := .run, ringcfg := 0x8000_0000 })).1 rfl rfl rfl).1 rfl (by decide) (by decide)
     ⟨by decide, rfl, by decide, noneWait _⟩),
   ends_runs (((h 1 (desc 0x8000_0000) (ending { state := .run })).1 rfl rfl rfl).2.1 rfl (by decide) (by decide) (by decide)
     ⟨rfl, rfl, rfl, rfl, rfl, (by intro q hq; exact nomatch hq), by decide, by decide, by decide⟩ ⟨rfl, by intro q hq; exact nomatch hq⟩ (by decide) rfl),
   ends_runs (((h 1 (desc 0x8000_0000) (ending { state := .run, ringcfg := 0x8000_0000, fail := some 2 })).1 rfl rfl rfl).2.2 2 (by decide) rfl
     ⟨by decide, rfl, by decide, noneWait _⟩),
   ends_runs (((h 1 (desc 0x8000_0000) (ending { state := .run, ringcfg := 0x8000_0000, fail := some 7, cfg := 0x4000_0000 })).1 rfl rfl rfl).2.2 7
     (by decide) rfl ⟨by decide, rfl, by decide, noneWait _⟩),
   ends_runs (((h 1 (desc 0x8000_0000) (ending { state := .stopping, ringcfg := 0x8000_0000 })).2.1 rfl rfl rfl rfl rfl).1 rfl rfl ⟨by decide, rfl, by decide, noneWait _⟩),
   ends_runs (((h 1 (desc 0x8000_0000) (ending { state := .stopping, ringcfg := 0x8000_0000, fail := some 3 })).2.1 rfl rfl rfl rfl rfl).2.1 3 (by decide) rfl rfl
     ⟨by decide, rfl, by decide, noneWait _⟩),
   ends_runs (((h 1 (desc 0x8000_0000) { ending { state := .stopping, ringcfg := 0x8000_0000 } with sys := {} }).2.1 rfl rfl rfl rfl rfl).2.2.1 rfl (by decide) rfl
     (by intro q hq; exact nomatch hq)),
   ends_runs (((h 1 (desc 0) (pump { state := .stopping })).2.1 rfl rfl rfl rfl rfl).2.2.2 rfl (by intro q hq; exact nomatch hq)),
   ends_runs (((h 1 (desc 0) (pump { state := .run, hostOut := [4, 8] })).2.2 4 [8] [(7, false)] rfl rfl rfl rfl).1 rfl),
   ends_runs ((h 1 (desc 0) (pump { state := .run, hostOut := [4, 8] })).2.2 4 [8] [] rfl rfl rfl rfl).2⟩

/-- Target `h` holds `t`, and source 5 alone is configured. -/
def irq (flat : Bool) (h : Fin 32) (x : Src) (t : Target) : State :=
  { up with ic := { flat := flat, src := (Vector.replicate 496 {}).set 5 x, tgt := (Vector.replicate 32 {}).set h t }, sys := { ready := true, bme := true } }
theorem only_five {flat : Bool} {x : Src} {t : Target} {fast : Bool} {m : Nat} (ht : t.priv = Vector.replicate 16 {})
    (c : Says.claimable (irq flat 3 x t) 3 fast m) : m = 5 := by
  obtain ⟨hm, -, -, he, -⟩ := c
  apply Decidable.byContradiction
  intro hn
  have e : icSrc (irq flat 3 x t) 3 m = {} := by
    unfold icSrc
    split
    · simp only [irq, Vector.getElem_set, Vector.getElem_replicate]
      rw [if_neg (by omega)]
    · have e3 : (irq flat 3 x t).ic.tgt[(3 : Fin 32)] = t := rfl
      simp only [e3, ht, Fin.getElem_fin, Vector.getElem_replicate]
  rw [e] at he
  exact absurd he (by decide)

def src5 : Src := { cfg := 0x9003_0004, pend := true }
theorem witness_ClaimTakesWinner (h : Says.ClaimTakesWinner) :
    Runs (.icClaimRead p0 3 false) (irq false 3 src5 { normal := { thr := 3, stack := [500] } }) ∧
    Runs (.icClaimRead p0 3 true) (irq true 3 { src5 with cfg := 0xC003_0001, live := true } {}) ∧ Runs (.icClaimRead p0 3 false) (irq false 3 {} {}) ∧
    Runs (.icClaimRead p0 3 false) (irq false 3 src5 { normal := { stack := List.replicate 8 500 } }) :=
  ⟨ends_runs ((h p0 3 false (irq false 3 src5 { normal := { thr := 3, stack := [500] } }) rfl).1 5 (.inr (by decide))
     ⟨by decide, .inr (by decide), by decide, by decide, by decide, rfl, by decide, by decide, fun top _ e => by
       have : top = 500 := by simpa [irq] using e.symm
       rw [this]; decide⟩ (fun m c n => absurd (only_five rfl c) n)),
   ends_runs ((h p0 3 true (irq true 3 { src5 with cfg := 0xC003_0001, live := true } {}) rfl).1 5 (.inl rfl)
     ⟨by decide, .inr (by decide), by decide, by decide, by decide, rfl, by decide, by decide, fun top e _ => absurd e (by decide)⟩
     (fun m c n => absurd (only_five rfl c) n)),
   ends_runs ((h p0 3 false (irq false 3 {} {}) rfl).2.1 (.inr (by decide)) (fun n c => by
     have := only_five rfl c; subst this; exact absurd c.2.2.2.1 (by decide))),
   ends_runs ((h p0 3 false (irq false 3 src5 { normal := { stack := List.replicate 8 500 } }) rfl).2.2 rfl (by decide))⟩
theorem only_idle (m : Nat) : icSrc (irq true 3 {} {}) 3 m = {} := by
  unfold icSrc
  split
  · simp only [irq, Vector.getElem_set, Vector.getElem_replicate, ite_self]
  · have e3 : (irq true 3 {} {}).ic.tgt[(3 : Fin 32)] = {} := rfl
    have e4 : ({} : Target).priv = Vector.replicate 16 {} := rfl
    simp only [e3, e4, Fin.getElem_fin, Vector.getElem_replicate]
theorem witness_CompletionRetires (h : Says.CompletionRetires) :
    Runs (.icCompleteWrite p0 3 false 5) (irq false 3 { src5 with active := true } { normal := { stack := [5, 500], cur := 255 } }) ∧
    Runs (.icCompleteWrite p0 3 false 5) (irq true 3 { src5 with active := true, pend := false } {}) ∧
    Runs (.icCompleteWrite p0 3 false 5) (irq true 3 src5 { stray := 255 }) ∧ Runs (.icCompleteWrite p0 3 false 5) (irq false 3 src5 { normal := { stack := [500, 5] } }) ∧
    Runs (.unwind p0 3 false) (irq true 3 { src5 with active := true } {}) ∧ Runs (.unwind p0 3 false) (irq true 3 {} {}) ∧
    Runs (.unwind p0 4 false) (irq false 4 {} {}) :=
  ⟨ends_runs ((h p0 3 false 5 (irq false 3 { src5 with active := true } { normal := { stack := [5, 500], cur := 255 } }) rfl).1 ⟨.inr (by decide), by decide, rfl⟩ (.inr (by decide))),
   ends_runs ((h p0 3 false 5 (irq true 3 { src5 with active := true, pend := false } {}) rfl).1 ⟨.inr (by decide), by decide, rfl⟩ (.inl rfl)),
   ends_runs ((h p0 3 false 5 (irq true 3 src5 { stray := 255 }) rfl).2.1 (fun c => absurd c.2.2 (by decide)) rfl),
   ends_runs ((h p0 3 false 5 (irq false 3 src5 { normal := { stack := [500, 5] } }) rfl).2.2.1 rfl (by decide)),
   ends_runs ((h p0 3 false 0 (irq true 3 { src5 with active := true } {}) rfl).2.2.2.1 rfl ⟨5, by decide, .inr (by decide), by decide, rfl⟩),
   ends_runs ((h p0 3 false 0 (irq true 3 {} {}) rfl).2.2.2.2.1 (.inl rfl) (fun m l c => by
     have a := c.2.2; rw [only_idle m] at a; exact absurd a (by decide))),
   ends_runs ((h p0 4 false 0 (irq false 4 {} {}) rfl).2.2.2.2.2 rfl (by decide))⟩
theorem five_only (flat : Bool) (x : Src) (t : Target) (f : Src → Prop) (f0 : ¬ f {}) (j : Fin 496) (hj : f (irq flat 3 x t).ic.src[j]) : f x := by
  simp only [irq, Fin.getElem_fin, Vector.getElem_set, Vector.getElem_replicate] at hj
  split at hj
  · exact hj
  · exact absurd hj f0
theorem none_active (flat : Bool) (x : Src) (hx : x.active = false) : ¬ ((∃ j : Fin 496, (irq flat 3 x {}).ic.src[j].active = true) ∨
    ∃ (h : Fin 32) (j : Fin 16), (((irq flat 3 x {}).ic.tgt[h]).priv[j]).active = true) := by
  rintro (⟨j, hj⟩ | ⟨h, j, hj⟩)
  · have := five_only flat x {} (fun s => s.active = true) (by decide) j hj
    rw [hx] at this; exact absurd this (by decide)
  · have e : (irq flat 3 x {}).ic.tgt[h] = {} := by
      simp only [irq, Fin.getElem_fin, Vector.getElem_set, Vector.getElem_replicate]
      split <;> rfl
    rw [e] at hj
    change ((Vector.replicate 16 ({} : Src))[j]).active = true at hj
    simp only [Fin.getElem_fin, Vector.getElem_replicate] at hj
    exact absurd hj (by decide)
theorem witness_IcConfigurationWrites (h : Says.IcConfigurationWrites) :
    Runs (.icModeWrite p0 0) (irq true 3 { cfg := 0x8004_0001 } {}) ∧ Runs (.icModeWrite p0 1) (irq false 3 { src5 with active := true } {}) ∧
    Runs (.icModeWrite p0 0x8000_0001) (irq false 3 src5 {}) ∧ Runs (.sourceConfigWrite p0 (.shared 5) 0x8004_0001) (irq false 3 src5 {}) ∧
    Runs (.sourceConfigWrite p0 (.shared 5) 0xD01F_000F) (irq true 3 { src5 with active := true } {}) ∧
    Runs (.sourceConfigWrite p0 (.shared 5) 0x9FFF_FFFF) (irq true 3 src5 {}) ∧ Runs (.sourceConfigWrite p0 (.shared 5) 0x1003_0001) (irq false 3 src5 {}) ∧
    Runs (.sourceConfigWrite p0 (.shared 5) 0x9003_0001) (irq false 3 { src5 with active := true } {}) ∧
    Runs (.sourceConfigWrite p0 (.shared 5) 0x9003_0001) (irq false 3 { src5 with cfg := 0x1003_0001 } {}) ∧
    Runs (.sourceConfigWrite p0 (.priv 31 15) 0xDFFF_FFFF) (irq false 3 src5 {}) :=
  ⟨ends_runs ((h p0 5 0 (irq true 3 { cfg := 0x8004_0001 } {}) rfl).1 ⟨by decide, 5, by decide, by decide⟩),
   ends_runs ((h p0 5 1 (irq false 3 { src5 with active := true } {}) rfl).2.1
     (fun c => absurd (five_only false { src5 with active := true } {} (fun s => 3 < fld s.cfg 20 16) (by decide) c.2.choose c.2.choose_spec.2) (by decide)) (.inl ⟨5, rfl⟩)),
   ends_runs ((h p0 5 0x8000_0001 (irq false 3 src5 {}) rfl).2.2.1 (fun c => absurd c.1 (by decide)) (none_active _ _ rfl)),
   ends_runs ((h p0 5 0x8004_0001 (irq false 3 src5 {}) rfl).2.2.2.1 rfl (by decide)),
   ends_runs ((h p0 5 0xD01F_000F (irq true 3 { src5 with active := true } {}) rfl).2.2.2.2.1 (.inl rfl) rfl (.inl (by decide))),
   ends_runs ((h p0 5 0x9FFF_FFFF (irq true 3 src5 {}) rfl).2.2.2.2.2.1 (.inl rfl) (.inl rfl)),
   ends_runs ((h p0 5 0x1003_0001 (irq false 3 src5 {}) rfl).2.2.2.2.2.1 (.inr (by decide)) (.inl rfl)),
   ends_runs ((h p0 5 0x9003_0001 (irq false 3 { src5 with active := true } {}) rfl).2.2.2.2.2.1 (.inr (by decide)) (.inr (by decide))),
   ends_runs ((h p0 5 0x9003_0001 (irq false 3 { src5 with cfg := 0x1003_0001 } {}) rfl).2.2.2.2.2.1 (.inr (by decide)) (.inl rfl)),
   ends_runs ((h p0 5 0xDFFF_FFFF (irq false 3 src5 {}) rfl).2.2.2.2.2.2 31 15 (by decide))⟩
/-- Interrupt messages are enabled and their vectors unmasked. -/
def sending (x : Src) (t : Target) (y : Sys) : State :=
  let s := irq false 3 x t
  { s with ic := { s.ic with msixEn := true, msix := Vector.replicate 64 { addr := 0x1000, data := 7, mask := false } }, sys := y }
def ready : Sys := { ready := true, bme := true }
theorem may_send (y : State) (a : y.ic.msixEn = true) (b : y.ic.funcMask = false) (c : (y.ic.msix[7]).mask = false) (d : y.sys.bme = true)
    (e : y.sys.dstate ≠ 3) : ¬ Says.held y 3 true false := by
  rintro (⟨f, -⟩ | f | f | f | f | f | f)
  · exact absurd f (by decide)
  · rw [a] at f; exact absurd f (by decide)
  · rw [b] at f; exact absurd f (by decide)
  · exact absurd (c.symm.trans f) (by decide)
  · exact absurd f (by decide)
  · rw [d] at f; exact absurd f (by decide)
  · exact e f
def messageDue (y : Sys) : State := sending {} { fast := { due := true, ready := 70001 }, msgf := 255 } y
def inMessage (y : Sys) : State := runClk ((messageDue y).tb.clk + 1) (messageDue y)
theorem inMessage_eq (y : Sys) : inMessage y = settle (tick 1 (settle (messageDue y))) := by
  rw [inMessage, runClk, Nat.add_sub_cancel_left, advance, if_neg (show ¬ (!(messageDue y).tb.running) = true from Bool.false_ne_true)]
  simp only [finish_of_served (show (messageDue y).dom.safeNow = false from rfl)]
  rw [if_pos (show (settle (messageDue y)).later.isEmpty = true from rfl), finish_of_served rfl]
theorem inMessage_ic (y : Sys) : IcKept (messageDue y).ic (inMessage y).ic := by
  rw [inMessage_eq]; exact Machine.IcKept.trans (settle_ic _) (Machine.IcKept.trans (tick_ic 1 _) (settle_ic _))
theorem inMessage_sys (y : Sys) : (inMessage y).sys = y := by rw [inMessage_eq]; rfl
theorem message_goes : ¬ Says.held (inMessage ready) 3 true false :=
  have k := inMessage_ic ready
  may_send _ k.msixEn k.funcMask (by rw [k.msix]; rfl) (by rw [inMessage_sys]; rfl) (by rw [inMessage_sys]; decide)
theorem message_stays : Says.held (inMessage { ready := true }) 3 true false :=
  .inr (.inr (.inr (.inr (.inr (.inl (by rw [inMessage_sys]))))))
theorem witness_MessagesGoOut (h : Says.MessagesGoOut) : Runs (.msixMessage 3 true) (messageDue ready) :=
  ends_runs (((h p0 3 true 0 (messageDue ready) (inMessage ready)).2.2.2.2.1 rfl (.inl rfl) rfl).1 message_goes)
theorem witness_MessagesGoOut_late (h : Says.MessagesGoOut) : Runs (.msixMessage 3 true) (messageDue { ready := true }) :=
  ends_runs (((h p0 3 true 0 (messageDue { ready := true }) (inMessage { ready := true })).2.2.2.2.1 rfl (.inl rfl) rfl).2 message_stays)
theorem witness_MessagesGoOut_held (h : Says.MessagesGoOut) :
    Runs (.msixMessage 3 true) (sending {} { fast := { held := true } } ready) ∧
    Runs (.msixMessage 3 true) (sending {} { sleep := true, fast := { held := true } } ready) :=
  ⟨ends_runs (((h p0 3 true 0 (sending {} { fast := { held := true } } ready) _).2.2.2.2.1 rfl (.inr rfl) rfl).1 (may_send _ rfl rfl rfl rfl (by decide))),
   ends_runs (((h p0 3 true 0 (sending {} { sleep := true, fast := { held := true } } ready) _).2.2.2.2.1 rfl (.inr rfl) rfl).2 (.inr (.inr (.inr (.inr (.inl rfl))))))⟩
theorem witness_MessagesGoOut_thresholds (h : Says.MessagesGoOut) :
    Runs (.coalescingThreshold 3 false) (sending {} { normal := { cur := 2, limit := 2, timer := some 1, timeF := 3 } } ready) ∧
    Runs (.coalescingThreshold 3 false) (sending { src5 with cfg := 0xC003_0001, active := true } { normal := { cur := 2, limit := 2, timer := some 0, timeF := 3 } } ready) ∧
    Runs (.coalescingThreshold 3 true) (sending {} { sleep := true, sleptAt := some 70000, slept := false, fast := { cur := 1, limit := 2, timer := some 3, timeF := 3 } } ready) ∧
    Runs (.coalescingThreshold 3 true) (sending {} { sleep := true, pmen := true, fast := { cur := 2, limit := 2, timer := some 0, timeF := 3 } } { ready with pmeEn := true, dlact := true }) ∧
    Runs (.coalescingThreshold 3 true) (sending {} { sleep := true, pmen := true, pmesent := true, fast := { cur := 2, limit := 2, timer := some 0, timeF := 3 } } ready) :=
  have a (f : Bool) (v : Word) (x : Src) (t : Target) (y : Sys) := h p0 3 f v (sending x t y)
  ⟨ends_runs ((a false 0 {} { normal := { cur := 2, limit := 2, timer := some 1, timeF := 3 } } ready up).1 (by decide)
     (by rintro ⟨n, e, l⟩; obtain rfl := Option.some.inj e; exact absurd l (by decide)) (by decide)),
   ends_runs ((a false 0 { src5 with cfg := 0xC003_0001, active := true } { normal := { cur := 2, limit := 2, timer := some 0, timeF := 3 } } ready up).1 (by decide)
     (by rintro ⟨n, e, l⟩; obtain rfl := Option.some.inj e; exact absurd l (by decide)) (by decide)),
   ends_runs ((a true 0 {} { sleep := true, sleptAt := some 70000, slept := false, fast := { cur := 1, limit := 2, timer := some 3, timeF := 3 } } ready up).2.1
     ⟨3, rfl, by decide⟩ (by decide)),
   ends_runs ((a true 0 {} { sleep := true, pmen := true, fast := { cur := 2, limit := 2, timer := some 0, timeF := 3 } } { ready with pmeEn := true, dlact := true } up).2.2.1 (by decide)
     (by rintro ⟨n, e, l⟩; obtain rfl := Option.some.inj e; exact absurd l (by decide)) (by decide) rfl rfl rfl),
   ends_runs ((a true 0 {} { sleep := true, pmen := true, pmesent := true, fast := { cur := 2, limit := 2, timer := some 0, timeF := 3 } } ready up).2.2.2.1 (by decide)
     (by rintro ⟨n, e, l⟩; obtain rfl := Option.some.inj e; exact absurd l (by decide)) (by decide) (.inr (.inl rfl)))⟩
theorem witness_MessagesGoOut_sleep (h : Says.MessagesGoOut) :
    Runs (.targetSleepWrite p0 3 0xC000_0000) (sending {} {} { ready := true }) ∧
    Runs (.targetSleepWrite p0 3 0) (sending {} { sleep := true, normal := { cur := 1 } } { ready := true }) ∧
    Runs .pmeRepeat (sending {} {} { ready with pmeAt := some 70000, pmeStat := true, pmeEn := true, dlact := true }) :=
  have a (f : Bool) (v : Word) (x : Src) (t : Target) (y : Sys) := h p0 3 f v (sending x t y)
  ⟨ends_runs ((a false 0xC000_0000 {} {} { ready := true } up).2.2.2.2.2.1 rfl rfl rfl),
   ends_runs ((a false 0 {} { sleep := true, normal := { cur := 1 } } { ready := true } up).2.2.2.2.2.2.1 rfl rfl (by decide) (by decide) rfl rfl rfl),
   ends_runs ((a false 0 {} {} { ready with pmeAt := some 70000, pmeStat := true, pmeEn := true, dlact := true } _).2.2.2.2.2.2.2
     70000 rfl rfl rfl rfl (by decide) rfl)⟩



def conv (x : Conv) : State := { up with sc := up.sc.set 1 x, sys := { ready := true, vanaOk := true } }
def runs : Conv := { st := .run, work := .scan, phase := .integrate 70010, scan := (Vector.replicate 16 0x0100_0000).set 2 0x0300_0007, entry := 2, input := 7, settled := true, tint := 40000, len := 40000 }
theorem witness_ConverterCommands (h : Says.ConverterCommands) :
    Runs (.scStart p0 1) (conv { cfg := 0, scan := Vector.replicate 16 5, tint := 40000, bufCfg := 0x8000_0000, bufLen := 32 }) ∧ Runs (.scStart p0 1) (conv { cfg := 0, tint := 39999 }) ∧
    Runs (.scStop p0 1) (conv { runs with queue := [.cal, .inject { kind := 1, input := 2 }], cntInj := 255 }) ∧ Runs (.scStop p0 1) (conv { runs with work := .cal }) ∧
    Runs (.selfCalibration p0 1) (conv {}) ∧ Runs (.selfCalibration p0 1) (conv runs) ∧ Runs (.trimCalibration p0 1) (conv runs) ∧ Runs (.inject p0 1) (conv runs) ∧
    Runs (.scBufLenWrite p0 1 0xFFFF_FFFF) (conv {}) ∧ Runs (.inject p0 1) (conv { runs with queue := List.replicate 8 (.inject { kind := 1, input := 2 }) }) ∧
    Runs (.selfCalibration p0 1) (conv { runs with queue := [.cal] }) ∧ Runs (.trimCalibration p0 1) (conv { runs with work := .cal }) ∧
    Runs (.scStart p0 1) (conv { runs with bufLen := 32 }) ∧ Runs (.scStop p0 1) (conv {}) ∧ Runs (.scBufLenWrite p0 1 4) (conv runs) :=
  ⟨ends_runs ((h p0 1 0 (conv { cfg := 0, scan := Vector.replicate 16 5, tint := 40000, bufCfg := 0x8000_0000, bufLen := 32 }) rfl).1 ⟨by decide, by decide, by decide, by decide⟩ rfl),
   ends_runs ((h p0 1 0 (conv { cfg := 0, tint := 39999 }) rfl).2.1 (fun c => absurd (c.1 (by decide)).1 (by decide))),
   ends_runs ((h p0 1 0 (conv { runs with queue := [.cal, .inject { kind := 1, input := 2 }], cntInj := 255 }) rfl).2.2.1 (by decide)),
   ends_runs ((h p0 1 0 (conv { runs with work := .cal }) rfl).2.2.1 (by decide)),
   ends_runs ((h p0 1 0 (conv {}) rfl).2.2.2.1 rfl (by decide) (by decide)), ends_runs ((h p0 1 0 (conv runs) rfl).2.2.2.2.1 (by decide) (by decide) (by decide)),
   ends_runs ((h p0 1 0 (conv runs) rfl).2.2.2.2.2.1 (by decide) (by decide)), ends_runs ((h p0 1 0 (conv runs) rfl).2.2.2.2.2.2.1 (by decide) (by decide)),
   ends_runs ((h p0 1 0xFFFF_FFFF (conv {}) rfl).2.2.2.2.2.2.2.1 rfl),
   ends_runs ((h p0 1 0 (conv { runs with queue := List.replicate 8 (.inject { kind := 1, input := 2 }) }) rfl).2.2.2.2.2.2.2.2 _ (.inr (.inl ⟨rfl, .inr (by decide)⟩))),
   ends_runs ((h p0 1 0 (conv { runs with queue := [.cal] }) rfl).2.2.2.2.2.2.2.2 (.selfCalibration p0 1) (.inl ⟨.head _, .inr (by decide)⟩)),
   ends_runs ((h p0 1 0 (conv { runs with work := .cal }) rfl).2.2.2.2.2.2.2.2 (.trimCalibration p0 1) (.inl ⟨.tail _ (.head _), .inl rfl⟩)),
   ends_runs ((h p0 1 0 (conv { runs with bufLen := 32 }) rfl).2.2.2.2.2.2.2.2 (.scStart p0 1) (.inr (.inr (.inl ⟨rfl, ⟨by decide, by decide, by decide, by decide⟩, by decide⟩)))),
   ends_runs ((h p0 1 0 (conv {}) rfl).2.2.2.2.2.2.2.2 (.scStop p0 1) (.inr (.inr (.inr (.inl ⟨rfl, rfl⟩))))),
   ends_runs ((h p0 1 4 (conv runs) rfl).2.2.2.2.2.2.2.2 (.scBufLenWrite p0 1 4) (.inr (.inr (.inr (.inr ⟨rfl, by decide⟩)))))⟩
theorem witness_FilterMeans (h : Says.FilterMeans) :
    Machine.cascade [7] [(3, 5), (4, -2)] = (sumOf (newest 7 [(3, 5), (4, -2)]), 7) ∧ sumOf (newest 8 [(3, 5), (4, -2)]) = sumOf [(3, 5), (4, -2)] :=
  ⟨(h 7 [(3, 5), (4, -2)]).1, (h 8 [(3, 5), (4, -2)]).2.2 (by decide)⟩
/-- A constant input over the integration. -/
def input (v : Int) : List (Nat × Int) := [(0, v)]
theorem witness_IntegrationDelivers (h : Says.IntegrationDelivers) :
    Runs (.integrationEnd 1 (input (-100)) none) (conv { runs with bufCfg := 0x8000_0000 }) ∧ Runs (.integrationEnd 1 (input 8388607) none) (conv runs) ∧
    Runs (.integrationEnd 1 (input 8388608) none) (conv runs) ∧ Runs (.integrationEnd 1 (input (-8388609)) none) (conv runs) ∧
    Runs (.integrationEnd 1 (input 5) none) (conv { runs with settled := false, settleAt := 70011 }) ∧
    Runs (.integrationEnd 1 (input 5) (some false)) (conv { runs with bufCfg := 0x8000_0000, results := List.replicate 16 ⟨1, 2, 3, 4⟩, cntOvr := 255 }) :=
  have a (v : Int) (x : Conv) (q : (conv x).sc[(1 : Fin 2)].phase = .integrate 70010) (z : (runClk 70010 (conv x)).sc[(1 : Fin 2)] = (conv x).sc[(1 : Fin 2)])
      (va : (runClk 70010 (conv x)).sys.vanaOk = true) (rc : (runClk 70010 (conv x)).rcd.state ≠ .replay) :=
    h 1 70010 (input v) (conv x) (runClk 70010 (conv x)) rfl rfl q rfl z va rc
  ⟨ends_runs ((a (-100) { runs with bufCfg := 0x8000_0000 } rfl rfl rfl (by decide) rfl (by decide) rfl (by decide)).1 (.inl rfl) (by decide +kernel) (by decide +kernel)),
   ends_runs ((a 8388607 runs rfl rfl rfl (by decide) rfl (by decide) rfl (by decide)).1 (.inl rfl) (by decide +kernel) (by decide +kernel)),
   ends_runs ((a 8388608 runs rfl rfl rfl (by decide) rfl (by decide) rfl (by decide)).2.1 (.inl rfl) (by decide +kernel)),
   ends_runs ((a (-8388609) runs rfl rfl rfl (by decide) rfl (by decide) rfl (by decide)).2.2.1 (.inl rfl) (by decide +kernel)),
   ends_runs ((a 5 { runs with settled := false, settleAt := 70011 } rfl rfl rfl (by decide) rfl (by decide) rfl (by decide)).2.2.2.1 rfl (by decide +kernel)),
   ends_runs ((a 5 { runs with bufCfg := 0x8000_0000, results := List.replicate 16 ⟨1, 2, 3, 4⟩, cntOvr := 255 } rfl rfl rfl (by decide) rfl (by decide) rfl (by decide)).2.2.2.2 false)⟩
def calibrating (a : Int) : Conv := { runs with st := .cal, work := .cal, calRaw := [(a * 40000, 40000), (a * 40000, 40000), (30, 1), (20, 1), (13, 1)] }
theorem witness_PhasesEnd (h : Says.PhasesEnd) :
    Runs (.switchEnd 1) (conv { runs with phase := .switch 70010, cfg := 0x8300_0000, filt := 0xD800_0000 }) ∧ Runs (.dumpEnd 1) (conv { runs with phase := .dump 70010 }) ∧
    Runs (.integrationEnd 1 (input 5) none) { conv runs with sys := { ready := true } } ∧
    Runs (.integrationEnd 1 (input 8388627) none) (conv (calibrating 8388627)) ∧ Runs (.integrationEnd 1 (input 100) none) (conv (calibrating 100)) :=
  ⟨ends_runs ((h 1 70010 (conv { runs with phase := .switch 70010, cfg := 0x8300_0000, filt := 0xD800_0000 }) _ rfl rfl rfl rfl).1 rfl),
   ends_runs ((h 1 70010 (conv { runs with phase := .dump 70010 }) _ rfl rfl rfl rfl).2.1 rfl),
   ends_runs ((h 1 70010 { conv runs with sys := { ready := true } } _ rfl rfl rfl rfl).2.2.1 rfl rfl (input 5) none),
   ends_runs ((h 1 70010 (conv (calibrating 8388627)) _ rfl rfl rfl rfl).2.2.2 13 20 30 _ _ 1 1 1 40000 40000 (input 8388627) rfl rfl rfl rfl rfl rfl (by decide)),
   ends_runs ((h 1 70010 (conv (calibrating 100)) _ rfl rfl rfl rfl).2.2.2 13 20 30 _ _ 1 1 1 40000 40000 (input 100) rfl rfl rfl rfl rfl rfl (by decide))⟩
/-- Time 2^30 cycles on, with the last edge of MAINS_SYNC `n` cycles before. -/
def mains (v : Bool) (l : List Nat) (n : Nat) : State :=
  { up with tb := { running := true, clk := 30000000, now := 0x7000_0000 }, scs := { valid := v, recent := l, since := 10000000, edge := some (30000000 - n) } }
theorem witness_MainsMeasured (h : Says.MainsMeasured) :
    Runs (.mainsSyncEdge 0x7000_0000) (mains false (List.replicate 7 8000000) 5714286) ∧ Runs (.mainsSyncEdge 0x7000_0000) (mains true (List.replicate 8 8000000) 10000000) ∧
    Runs (.mainsSyncEdge 0x7000_0000) (mains false [8000000] 8000000) ∧ Runs (.mainsSyncEdge 0x7000_0000) (mains true [8000000] 5714285) ∧
    Runs (.mainsSyncEdge 0x7000_0000) (mains false [8000000] 10000001) ∧ Runs .mainsSyncLoss (mains true [8000000] 20000000) :=
  ⟨ends_runs (((h 0x7000_0000 (mains false (List.replicate 7 8000000) 5714286) _ rfl rfl rfl).1 _ 5714286 rfl rfl rfl).1 _ _ _ _ _ _ _ _ (by decide) (by decide) rfl),
   ends_runs (((h 0x7000_0000 (mains true (List.replicate 8 8000000) 10000000) _ rfl rfl rfl).1 _ 10000000 rfl rfl rfl).1 _ _ _ _ _ _ _ _ (by decide) (by decide) rfl),
   ends_runs (((h 0x7000_0000 (mains false [8000000] 8000000) _ rfl rfl rfl).1 _ 8000000 rfl rfl rfl).2.1 (by decide) rfl (by decide) (by decide)),
   ends_runs (((h 0x7000_0000 (mains true [8000000] 5714285) _ rfl rfl rfl).1 _ 5714285 rfl rfl rfl).2.2 (.inl (by decide))),
   ends_runs (((h 0x7000_0000 (mains false [8000000] 10000001) _ rfl rfl rfl).1 _ 10000001 rfl rfl rfl).2.2 (.inr (by decide))),
   ends_runs ((h 0 (mains true [8000000] 20000000) _ rfl rfl rfl).2 rfl rfl)⟩
def plausible (r : ScShared) (x : Conv) : State :=
  { up with scs := r, sc := #v[runs, x], sys := { ready := true, vanaOk := true }, tb := { running := true, clk := 70000, now := 0x60_0000 } }
theorem witness_PlausibilityRounds (h : Says.PlausibilityRounds) :
    Runs .plausibilityRound (plausible { plsCfg := 0x8000_0020 } runs) ∧ Runs .plausibilityRound (plausible { plsCfg := 0x8000_0020, round := some 69000 } runs) ∧
    Runs .plausibilityRound (plausible { plsCfg := 0x8000_0020 } {}) ∧ Runs .plausibilityTimeout (plausible { round := some 69000, plsTmo := 3, failCnt := 255 } runs) :=
  ⟨ends_runs ((h (plausible { plsCfg := 0x8000_0020 } runs) _ rfl rfl).1 (by decide) (fun _ => rfl) (fun n => absurd (by decide) n)),
   ends_runs ((h (plausible { plsCfg := 0x8000_0020, round := some 69000 } runs) _ rfl rfl).1 (by decide) (fun _ => rfl) (fun n => absurd (by decide) n)),
   ends_runs ((h (plausible { plsCfg := 0x8000_0020 } {}) _ rfl rfl).1 (by decide) (fun _ => rfl) (fun n => absurd (by decide) n)),
   ends_runs ((h (plausible { round := some 69000, plsTmo := 3, failCnt := 255 } runs) _ rfl rfl).2 69000 rfl rfl rfl)⟩
def judged (a : Int) (o : Bool) (b : Nat) : State :=
  plausible { round := some 69000, r0 := some (a, o), plsLim := 10 } { runs with work := .inject { kind := 4, input := 15, round := b }, input := 15 }
theorem witness_PlausibilityJudged (h : Says.PlausibilityJudged) :
    Runs (.integrationEnd 1 (input 100) none) (judged 90 false 69000) ∧ Runs (.integrationEnd 1 (input 100) none) (judged 111 false 69000) ∧
    Runs (.integrationEnd 1 (input 100) none) (judged 100 true 69000) ∧ Runs (.integrationEnd 1 (input 100) none) (judged 100 true 68000) :=
  have a (n : Int) (o : Bool) (b : Nat) (z : (runClk 70010 (judged n o b)).sc[(1 : Fin 2)] = (judged n o b).sc[(1 : Fin 2)]) (va : (runClk 70010 (judged n o b)).sys.vanaOk = true)
      (rc : (runClk 70010 (judged n o b)).rcd.state ≠ .replay) :=
    h 1 70010 (input 100) n o { kind := 4, input := 15, round := b } (judged n o b) (runClk 70010 (judged n o b)) rfl rfl rfl rfl z va rc
  ⟨ends_runs ((a 90 false 69000 rfl rfl (by decide) rfl rfl rfl (by decide +kernel) (by decide +kernel)).1 rfl rfl),
   ends_runs ((a 111 false 69000 rfl rfl (by decide) rfl rfl rfl (by decide +kernel) (by decide +kernel)).1 rfl rfl),
   ends_runs ((a 100 true 69000 rfl rfl (by decide) rfl rfl rfl (by decide +kernel) (by decide +kernel)).1 rfl rfl),
   ends_runs ((a 100 true 68000 rfl rfl (by decide) rfl rfl rfl (by decide +kernel) (by decide +kernel)).2 (by decide))⟩

/-- The link with port `k` as `x`. -/
def linked (k : Fin 4) (x : LinkPort) (l : Link) : State := { up with link := { l with ports := l.ports.set k x } }
/-- Before the PLL has locked. -/
def early : State := { State.reset with link := { cfg := 0x8000_0000 } }
theorem witness_PortsTrain (h : Says.PortsTrain) :
    Runs (.linkCfgWrite p0 0x9800_0000) up ∧ Runs (.trainingStart 3) (linked 3 { state := .down } {}) ∧
    Runs (.portUp 3 false true 2) (linked 3 { state := .train } {}) ∧ Runs (.portUp 3 true false 2) (linked 3 { state := .train } {}) ∧
    Runs (.portUp 3 true true 2) (linked 3 { state := .train } { path := 0x8_1231 }) ∧ Runs (.portUp 3 true true 0) (linked 3 { state := .train } {}) ∧
    Runs (.portUp 3 true true 1) (linked 3 { state := .train } { path := 0x7_1231 }) ∧ Runs (.partnerSignalLoss 3) (linked 3 { state := .blocked, ver := 2 } {}) ∧
    Runs (.trainingStart 0) early ∧ Runs (.portUp 3 true true 1) early :=
  ⟨ends_runs ((h p0 0 0x9800_0000 up).1 rfl (by decide)), ends_runs ((h p0 3 0 (linked 3 { state := .down } {})).2.1 (.inl rfl) rfl),
   ends_runs (((h p0 3 0 (linked 3 { state := .train } {})).2.2.2.2.1 (.inl rfl) rfl).1 true 2), ends_runs ((((h p0 3 0 (linked 3 { state := .train } {})).2.2.2.2.1 (.inl rfl) rfl).2 (by decide)).1 2),
   ends_runs ((((h p0 3 0 (linked 3 { state := .train } { path := 0x8_1231 })).2.2.2.2.1 (.inl rfl) rfl).2 (by decide)).2.1 2 (by decide)),
   ends_runs ((((h p0 3 0 (linked 3 { state := .train } {})).2.2.2.2.1 (.inl rfl) rfl).2 (by decide)).2.2.1 (by decide)),
   ends_runs ((((h p0 3 0 (linked 3 { state := .train } { path := 0x7_1231 })).2.2.2.2.1 (.inl rfl) rfl).2 (by decide)).2.2.2 1 (by decide) (by decide)),
   ends_runs ((h p0 3 0 (linked 3 { state := .blocked, ver := 2 } {})).2.2.2.2.2 rfl),
   ends_runs ((h p0 0 0 early).2.2.1 (.inr ⟨rfl, rfl, rfl⟩) rfl (by decide) (by decide)),
   ends_runs ((h p0 3 0 early).2.2.2.1 (by decide) true true 1 _ (.tail _ (.head _)))⟩
def lost (m : Word) (d : DomState) : State :=
  { linked 0 { state := .up, queue := [{}, {}] } { path := 0x1_0001, tvalid := false } with dom := { state := d, mask := m }, tb := { src := true, running := true } }
theorem witness_PortsJoinAndLeave (h : Says.PortsJoinAndLeave) :
    Runs (.portUp 0 true false 3) (linked 0 { state := .train } { timef := true }) ∧ Runs (.portLoss 3 true) (linked 3 { state := .up, queue := [{}, {}], mdrop := 254 } {}) ∧
    Runs (.portLoss 3 false) (linked 3 { state := .up, queue := [{}, {}], missed := 2 } {}) ∧ Runs (.portLoss 0 true) (lost 0x20 .hold) ∧ Runs (.portLoss 0 true) (lost 0x20 .armed) ∧ Runs (.portLoss 0 true) (lost 0 .run) :=
  ⟨ends_runs ((h 0 3 (linked 0 { state := .train } { timef := true }) up).1 (.inl rfl) rfl (by decide) (by decide)),
   ends_runs ((h 3 0 (linked 3 { state := .up, queue := [{}, {}], mdrop := 254 } {}) up).2.1 (by decide) rfl),
   ends_runs ((h 3 0 (linked 3 { state := .up, queue := [{}, {}], missed := 2 } {}) _).2.2.1 (by decide) rfl (by decide) rfl rfl rfl rfl),
   ends_runs ((h 3 0 (lost 0x20 .hold) up).2.2.2 rfl), ends_runs ((h 3 0 (lost 0x20 .armed) up).2.2.2 rfl), ends_runs ((h 3 0 (lost 0 .run) up).2.2.2 rfl)⟩
theorem witness_LinkFrameJudged (h : Says.LinkFrameJudged) :
    Runs (.linkFrameReceive 3 {}) { linked 3 { state := .up } {} with rcd := { state := .replay } } ∧
    Runs (.linkFrameReceive 3 { codeOk := false }) (linked 3 { state := .up, code := 255 } {}) ∧ Runs (.linkFrameReceive 3 { crcOk := false }) (linked 3 { state := .up } {}) ∧
    Runs (.linkFrameReceive 3 { stamp := 0x60_0010, frame := 0x61 }) (linked 3 { state := .up } {}) :=
  ⟨ends_runs ((h 3 {} { linked 3 { state := .up } {} with rcd := { state := .replay } } rfl).1 rfl),
   ends_runs ((h 3 { codeOk := false } (linked 3 { state := .up, code := 255 } {}) rfl).2.1 (by decide) (.inr rfl)),
   ends_runs ((h 3 { crcOk := false } (linked 3 { state := .up } {}) rfl).2.2.1 (by decide) rfl rfl rfl),
   ends_runs ((h 3 { stamp := 0x60_0010, frame := 0x61 } (linked 3 { state := .up } {}) rfl).2.2.2 (by decide) rfl rfl rfl (.inl rfl))⟩
def parent (f : LinkFrame) (r : Int) (d : Domain) (l : Link) : State := { linked 0 { state := .up, frame := some f, r := r } l with dom := d }
def ctl (x : DownCtl) (v : Bool) : LinkFrame := { tvalid := v, down := { x with path := 0x2_0013 } }
def joining : State := parent (ctl { pend := true, pstate := 1, eff := 0x65, r2 := some 40 } false) 100 {} { tvalid := false, thetas := List.replicate 16 5, delays := [7] }
def drifting : State := parent (ctl { state := 3, r2 := some 40 } true) 65000 { state := .run } { hopadj := 4, badRun := 2 }
def unheard : State := parent (ctl { state := 2, digest := 5 } true) (-65000) { state := .run } {}
theorem witness_ParentFrameActs (h : Says.ParentFrameActs) :
    Runs (.linkFrameAct 0) joining ∧ Runs (.linkFrameAct 0) drifting ∧ Runs (.linkFrameAct 0) unheard :=
  ⟨ends_runs ((h (ctl { pend := true, pstate := 1, eff := 0x65, r2 := some 40 } false) joining _ rfl rfl rfl rfl rfl rfl (by decide) (by decide) rfl (by decide)).1 40 rfl
     (by decide) (.inl rfl)),
   ends_runs ((h (ctl { state := 3, r2 := some 40 } true) drifting _ rfl rfl rfl rfl rfl rfl (by decide) (by decide) rfl (by decide)).1 40 rfl (by decide) (.inr (by decide))),
   ends_runs ((h (ctl { state := 2, digest := 5 } true) unheard _ rfl rfl rfl rfl rfl rfl (by decide) (by decide) rfl (by decide)).2 rfl (.inr rfl))⟩
theorem witness_TimeFaultBegins (h : Says.TimeFaultBegins) :
    Runs (.linkFrameAct 0) (parent (ctl {} false) 100 { mask := 4 } {}) ∧ Runs (.linkFrameAct 0) (parent (ctl { r2 := some 40 } true) 65000 { mask := 4 } { badRun := 3 }) :=
  ⟨ends_runs (h (ctl {} false) (parent (ctl {} false) 100 { mask := 4 } {}) rfl rfl rfl (by decide) (by decide) (by decide) rfl (by decide) rfl (fun _ e => nomatch e) (.inl rfl)),
   ends_runs (h (ctl { r2 := some 40 } true) (parent (ctl { r2 := some 40 } true) 65000 { mask := 4 } { badRun := 3 }) rfl rfl rfl (by decide) (by decide) (by decide) rfl (by decide) rfl
     (by intro r e; obtain rfl := Option.some.inj e; decide) (.inr ⟨40, rfl, by decide, by decide⟩))⟩
def child (m : LinkMsg) (q : List LinkMsg) : State :=
  let s := linked 3 { state := .up, ver := 3, frame := some { msgs := [m] }, mdrop := 255 } { rxq := q, path := 0x1_0001 }
  { s with link := { s.link with ports := s.link.ports.set 0 { state := .up } } }
def toHere : LinkMsg := { dst := 0x1_0001, src := 0x2_0031 }
def toRoot : LinkMsg := { dst := 0, src := 0x2_0031 }
def toBelow : LinkMsg := { dst := 0x2_0005, src := 0x2_0031 }
theorem witness_LinkMessages (h : Says.LinkMessages) :
    Runs (.linkFrameAct 3) (child toHere []) ∧ Runs (.linkFrameAct 3) (child toHere (List.replicate 16 {})) ∧
    Runs (.linkFrameAct 3) (child toRoot []) ∧ Runs (.linkFrameAct 3) (child toBelow []) ∧
    Runs (.linkSend p0) { up with link := { txh := 0x8AB0_1234, txq := List.replicate 7 {} } } ∧ Runs (.linkSend p0) { up with link := { txq := List.replicate 8 {} } } ∧
    Runs (.linkRxpop p0) { up with link := { rxq := [{}, {}] } } ∧ Runs (.linkRxpop p0) up :=
  ⟨ends_runs (((h p0 3 _ _ (child toHere [])).1 (by decide) rfl rfl (by decide) rfl rfl (by decide) (by decide) rfl rfl).1 rfl (by decide)),
   ends_runs (((h p0 3 _ _ (child toHere (List.replicate 16 {}))).1 (by decide) rfl rfl (by decide) rfl rfl (by decide) (by decide) rfl rfl).2.1 rfl (by decide)),
   ends_runs ((((h p0 3 _ _ (child toRoot [])).1 (by decide) rfl rfl (by decide) rfl rfl (by decide) (by decide) rfl rfl).2.2 0 (by decide) (by decide) (by decide)).1
     (by decide) (by decide) (by decide)),
   ends_runs ((((h p0 3 _ _ (child toBelow [])).1 (by decide) rfl rfl (by decide) rfl rfl (by decide) (by decide) rfl rfl).2.2 2 (by decide) (by decide) (by decide)).2
     (.inl (by decide))),
   ends_runs (((h p0 3 {} {} { up with link := { txh := 0x8AB0_1234, txq := List.replicate 7 {} } }).2 rfl).1 (by decide)),
   ends_runs (((h p0 3 {} {} { up with link := { txq := List.replicate 8 {} } }).2 rfl).2.1 (by decide)),
   ends_runs (((h p0 3 {} {} { up with link := { rxq := [{}, {}] } }).2 rfl).2.2.1 (by decide)), ends_runs (((h p0 3 {} {} up).2 rfl).2.2.2 rfl)⟩
def leaving (st : PortState) (v : BitVec 2) : State := linked 3 { state := st, ver := v, queue := List.replicate 5 toHere, mdrop := 252 } { sending := #v[none, none, none, some {}] }
theorem witness_LinkFramesLeave (h : Says.LinkFramesLeave) :
    (frameCharacters 3 {}).length = 640 ∧ (sendFrames (leaving .up 3)).link.sending = Vector.replicate 4 none ∧
    (sendFrames (leaving .up 1)).link.ports[(3 : Fin 4)].mdrop = 255 ∧ (sendFrames (leaving .down 3)).out = [] :=
  ⟨(h.1 3 {}).1, by rw [((h.2 3 {} (leaving .up 3) rfl rfl (by decide)).1 rfl (by decide)).2],
   by rw [((h.2 3 {} (leaving .up 1) rfl rfl (by decide)).2.1 rfl rfl).2]; rfl, ((h.2 3 {} (leaving .down 3) rfl rfl (by decide)).2.2.1 (by decide)).1⟩
def staged (d : Domain) (k : Bool) : State :=
  { up with dom := d, link := { dcfgUser := Vector.replicate 16 7, dver := 9 }, sys := { ready := true, vkeepOk := k } }
theorem witness_ConfigurationCommitted (h : Says.ConfigurationCommitted) :
    Runs (.linkCommit p0) (staged {} true) ∧ Runs (.linkCommit p0) (staged { state := .run, observe := true } false) ∧ Runs (.linkCommit p0) (staged { state := .run } true) :=
  ⟨ends_runs ((h p0 (staged {} true) rfl).1 (.inl rfl)), ends_runs ((h p0 (staged { state := .run, observe := true } false) rfl).1 (.inr rfl)),
   ends_runs ((h p0 (staged { state := .run } true) rfl).2 (by decide) rfl)⟩
def boundary (d : Domain) (l : Link) (x : Trk) : State :=
  { up with tb := { running := true, frameDue := true, now := 0x60_0000, clk := 70000 }, dom := d, link := l, wt := up.wt.set 3 x }
def joined : Link := { obsRun := 15, ports := (Vector.replicate 4 {}).set 0 { state := .up }, rootCtl := { state := 4, pend := true, pstate := 0, eff := 0x60 } }
theorem witness_LinkTimeAndJoining (h : Says.LinkTimeAndJoining) :
    Runs .tbStep (boundary {} { stepDue := some (-3) } {}) ∧ Runs .observeExit (boundary { observe := true, state := .hold } { obsRun := 15 } {}) ∧ Runs .observeExit (boundary { observe := true, state := .hold } joined {}) ∧
    Runs (.followStale 3) (boundary { state := .run } { ports := (Vector.replicate 4 {}).set 0 { state := .up }, stale := Vector.replicate 4 3 } { cfg := 0x4000_0000, st := .synced, losts := 255 }) :=
  ⟨ends_runs ((h (-3) 3 (boundary {} { stepDue := some (-3) } {}) _ rfl rfl rfl).1 rfl),
   ends_runs ((h 0 3 (boundary { observe := true, state := .hold } { obsRun := 15 } {}) _ rfl rfl rfl).2.1 (by decide) rfl rfl rfl (by decide) rfl rfl (by decide) rfl rfl (by decide)
     (by decide) (by decide)),
   ends_runs ((h 0 3 (boundary { observe := true, state := .hold } joined {}) _ rfl rfl rfl).2.2.1 rfl rfl rfl rfl (by decide) rfl rfl (by decide) rfl rfl (by decide)
     (by decide) (by decide)),
   ends_runs ((h 0 3 (boundary { state := .run } { ports := (Vector.replicate 4 {}).set 0 { state := .up }, stale := Vector.replicate 4 3 }
     { cfg := 0x4000_0000, st := .synced, losts := 255 }) _ rfl rfl rfl).2.2.2 (by decide) (.inl rfl) rfl rfl rfl (by decide) (by decide))⟩


/-- Line-pin banks 0 to 2 supplied, one in each band. -/
def bands : Vector (Option VioBand) 8 := (((Vector.replicate 8 none).set 0 (some .v18)).set 1 (some .v25)).set 2 (some .v33)
def softly : State := { up with sys := { softAt := some 70016, strap := 3, dlact := true, bme := true } }
theorem witness_CoreResets (h : Says.CoreResets) :
    Runs (.powerOnReset ⟨5, bands⟩) { up with sys := { pwr := .sleep } } ∧ Runs (.powerOnReset ⟨2, bands⟩) up ∧ Runs (.nrstReset 1000 3) up ∧ Runs (.nrstReset 99 3) up ∧
    Runs (.wakeStartUp 3) { up with sys := { pwr := .sleep } } ∧ Runs (.clockLossReset 3) { up with sys := { noref := true } } ∧
    Runs .softReset softly ∧ Runs (.coreRailLoss .vsd09) up :=
  ⟨ends_runs (h 5 0 bands { up with sys := { pwr := .sleep } } up).1, ends_runs (h 2 0 bands up up).1,
   ends_runs ((h 3 1000 bands up up).2.1 rfl (.inl (by decide))), ends_runs ((h 3 99 bands up up).2.2.1 (.inl (by decide))),
   ends_runs ((h 3 0 bands { up with sys := { pwr := .sleep } } up).2.2.2.1 rfl rfl rfl), ends_runs ((h 3 0 bands { up with sys := { noref := true } } up).2.2.2.2.1 rfl),
   ends_runs ((h 0 70016 bands softly _).2.2.2.2.2.1 rfl rfl rfl), ends_runs ((h 0 0 bands up up).2.2.2.2.2.2 .vsd09)⟩
def dark (b : Bool) : State := { up with tb := {}, link := { ports := (Vector.replicate 4 {}).set 0 { state := if b then .up else .down } } }
theorem witness_StartUp (h : Says.StartUp) :
    Runs .pllLock (dark false) ∧ Runs .norefStart (dark true) ∧ Runs (.sysBootRelease p0) { up with sys := { ready := true, crshold := true } } ∧ Runs (.sysBootRelease p0) State.reset ∧
    Runs (.sysReset p0 0xC3) { up with dom := { state := .safe } } ∧ Runs (.sysReset p0 0xC3) { up with dom := { state := .hold } } ∧ Runs (.sysReset p0 0xC2) { up with dom := { state := .run } } :=
  ⟨ends_runs ((h p0 0 (dark false)).1 rfl rfl), ends_runs ((h p0 0 (dark true)).2.1 rfl rfl rfl), ends_runs ((h p0 0 { up with sys := { ready := true, crshold := true } }).2.2.1 rfl),
   ends_runs ((h p0 0 State.reset).2.2.2.1 rfl), ends_runs (((h p0 0xC3 { up with dom := { state := .safe } }).2.2.2.2 rfl).1 rfl (by decide)),
   ends_runs (((h p0 0xC3 { up with dom := { state := .hold } }).2.2.2.2 rfl).2.1 rfl (.inr (.inr rfl))),
   ends_runs (((h p0 0xC2 { up with dom := { state := .run } }).2.2.2.2 rfl).2.2 (by decide))⟩
theorem witness_PcieFunction (h : Says.PcieFunction) :
    Runs (.pcieConfigRequest (.read .identity)) State.reset ∧ Runs (.pcieConfigRequest (.read .identity)) { up with sys := { ready := true, crshold := true } } ∧ Runs (.pcieConfigRequest (.read .identity)) up :=
  ⟨ends_runs ((h true false 0 0 0 State.reset rfl (by decide)).1 (by decide) _), ends_runs ((h true false 0 0 0 { up with sys := { ready := true, crshold := true } } rfl (by decide)).1 (by decide) _),
   ends_runs ((h true false 0 0 0 up rfl (by decide)).2.1 ⟨rfl, rfl⟩).1⟩
theorem witness_PcieFunction_writes (h : Says.PcieFunction) :
    Runs (.pcieConfigRequest (.busMaster true)) up ∧ Runs (.pcieConfigRequest (.memorySpace true)) up ∧ Runs (.pcieConfigRequest (.bar true 0x1234_5678)) up ∧
    Runs (.pcieConfigRequest (.readRequest 5)) up ∧ Runs (.pcieConfigRequest (.payload 2)) up ∧ Runs (.pcieConfigRequest (.clearErrors 0x10_0000)) up ∧ Runs (.pcieConfigRequest (.dstate 3)) up ∧
    Runs (.pcieConfigRequest (.dstate 1)) up ∧ Runs (.pcieConfigRequest .clearPmeStatus) up ∧ Runs (.pcieConfigRequest (.msixControl true false)) up :=
  let ⟨_, _, _, _, _, _, _, _, _, _, _, _, _, _, _, m, n, _, a, d, e, f, _, k, l⟩ := (h true false 0 0 0 up rfl (by decide)).2.1 ⟨rfl, rfl⟩
  ⟨ends_runs m, ends_runs n, ends_runs (a _).2, ends_runs (d _).2, ends_runs (d _).1, ends_runs (e _), ends_runs (f _), ends_runs (f _), ends_runs k, ends_runs l⟩
theorem witness_PcieFunction_pme (h : Says.PcieFunction) :
    Runs (.pcieConfigRequest (.pmeEn false)) { up with sys := { ready := true, pmeAt := some 5, pmeEn := true } } :=
  let ⟨_, _, _, _, _, _, _, _, _, _, _, _, _, _, _, _, _, _, _, _, _, _, g, _, _⟩ :=
    (h false false 0 0 0 { up with sys := { ready := true, pmeAt := some 5, pmeEn := true } } rfl (by decide)).2.1 ⟨rfl, rfl⟩
  ends_runs g
theorem witness_PcieFunction_states (h : Says.PcieFunction) :
    Runs .d3hotEntry up ∧ Runs (.sysWake (.pcie 3)) { up with sys := { ready := true, dstate := 3 } } ∧ Runs (.dlActive 4 3) up ∧ Runs (.dlActive 4 3) { up with sys := { strap := 4, l23 := true } } ∧
    Runs (.dlActive 3 3) up :=
  ⟨ends_runs (h true false 0 4 3 up rfl (by decide)).2.2.1,
   ends_runs ((h true false 3 0 0 { up with sys := { ready := true, dstate := 3 } } rfl (by decide)).2.2.2.1 rfl rfl rfl _ (.tail _ (.head _))),
   ends_runs (((h true false 0 4 3 up rfl (by decide)).2.2.2.2.1 rfl).1 (by decide) (by decide)),
   ends_runs (((h true false 0 4 3 { up with sys := { strap := 4, l23 := true } } rfl (by decide)).2.2.2.2.1 rfl).1 (by decide) (by decide)),
   ends_runs (((h true false 0 3 3 up rfl (by decide)).2.2.2.2.1 rfl).2 (.inl (by decide)))⟩
theorem witness_PcieFunction_errors (h : Says.PcieFunction) :
    Runs (.pcieConfigRequest (.read .aerMask)) up ∧ Runs (.pcieConfigRequest (.read (.aerHeader 3))) { up with sys := { ready := true, fn := { logged := some 2 } } } ∧
    Runs (.pcieConfigRequest (.linkControl 3)) up ∧ Runs (.pcieConfigRequest (.errorMask 0x10_0000)) up :=
  let ⟨a, _, _, _, _, _, _, _, _, b, c⟩ := (h true false 0 0 0 up rfl (by decide)).2.2.2.2.2 ⟨rfl, rfl⟩
  let ⟨_, _, _, _, _, _, _, d, _, _, _⟩ := (h true false 0 0 0 { up with sys := { ready := true, fn := { logged := some 2 } } } rfl (by decide)).2.2.2.2.2 ⟨rfl, rfl⟩
  ⟨ends_runs a, ends_runs (d 3 2 rfl), ends_runs (b 3), ends_runs (c 0x10_0000).1⟩
def dozing : State :=
  { up with sys := { ready := true, pwr := .doze }, later := [.standing], se := up.se.set 31 { st := .run }, sc := up.sc.set 1 { st := .cal, phase := .switch 74000 } }
theorem witness_BlocksStand (h : Says.BlocksStand) :
    Runs .mainsSyncLoss dozing ∧ (advance 1 dozing).se[(31 : Fin 32)].nextAt = 70002 ∧ (advance 1 dozing).sc[(1 : Fin 2)].phase = .switch 74001 :=
  ⟨ends_runs ((h dozing (by decide)).1 0 0 0 0 0 0 0 [] none 0 .mainsSyncLoss (by simp)),
   by rw [((h dozing (by decide)).2 rfl rfl rfl).1 31]; rfl,
   by rw [((h dozing (by decide)).2 rfl rfl rfl).2.1 1 74000 rfl]; rfl⟩
/-- At rest, or with engine 15 in RUN. -/
def resting (e : EngState) (y : Sys) : State := { up with te := up.te.set 15 { state := e }, sys := { y with ready := true } }
theorem rests (y : Sys) : Says.restful (resting .halted y) := ⟨rfl, by
  intro e
  simp only [resting, up, State.reset, Fin.getElem_fin, Vector.getElem_set, Vector.getElem_replicate]
  split <;> simp, by simp [resting, up, State.reset], by simp [resting, up, State.reset], by simp [resting, up, State.reset], rfl, fun _ => rfl⟩
theorem atWork (y : Sys) : ¬ Says.restful (resting .run y) := fun c => by rcases c.2.1 15 with e | e <;> exact EngState.noConfusion e
theorem witness_SleepRequests (h : Says.SleepRequests) :
    Runs (.sysDoze p0) (resting .halted {}) ∧ Runs (.sysDoze p0) (resting .run {}) ∧ Runs (.sysSleep p0) (resting .halted { vkeepOk := true }) ∧
    Runs (.sysSleep p0) (resting .halted {}) ∧ Runs (.sysSleep p0) (resting .run { vkeepOk := true, wakeSeen := some 70000 }) ∧ Runs (.sysWake p0) (resting .halted { pwr := .doze }) ∧
    Runs (.sysWake p0) (resting .run {}) ∧ Runs .l23SleepRequest (resting .halted { dlact := true, width := 4 }) ∧
    Runs .l23SleepRequest (resting .halted { dlact := true, sleepL23 := true, vkeepOk := true }) :=
  ⟨ends_runs ((h p0 (resting .halted {}) rfl (by decide)).1 (by decide) (rests _)), ends_runs ((h p0 (resting .run {}) rfl (by decide)).2.1 (by decide) (atWork _)),
   ends_runs ((h p0 (resting .halted { vkeepOk := true }) rfl (by decide)).2.2.1 (by decide) (rests _) ⟨.inl rfl, rfl⟩),
   ends_runs ((h p0 (resting .halted {}) rfl (by decide)).2.2.2.1 (by decide) (fun c => absurd c.2.2 (by decide))),
   ends_runs ((h p0 (resting .run { vkeepOk := true, wakeSeen := some 70000 }) rfl (by decide)).2.2.2.2.1 rfl _ (.tail _ (.head _))),
   ends_runs ((h p0 (resting .halted { pwr := .doze }) rfl (by decide)).2.2.2.2.2.1 rfl), ends_runs ((h p0 (resting .run {}) rfl (by decide)).2.2.2.2.2.2.1 rfl),
   ends_runs (((h p0 (resting .halted { dlact := true, width := 4 }) rfl (by decide)).2.2.2.2.2.2.2 rfl (by decide) rfl).1 rfl),
   ends_runs (((h p0 (resting .halted { dlact := true, sleepL23 := true, vkeepOk := true }) rfl (by decide)).2.2.2.2.2.2.2 rfl (by decide) rfl).2 rfl (by decide) (rests _) rfl)⟩
def calm (c : Calm) (y : Sys) : State := { up with calm := c, sys := { y with vkeepOk := true } }
def stopped (c : Calm) : State := { calm c {} with tb := {} }
theorem witness_WakeSources (h : Says.WakeSources) :
    Runs (.wakePinEdge 3 true) (calm { wakecfg := 0x6000, wcount := 255 } { pwr := .doze }) ∧ Runs (.wakePinEdge 3 true) (stopped { wakecfg := 0x4000 }) ∧
    Runs (.wakePinEdge 3 true) (calm { wakecfg := 0x5000 } {}) ∧ Runs .calmTimerMatch (calm { wakecfg := 0x1_0000, wakecmp := 9 } {}) ∧ Runs .calmTimerMatch (calm { wakecmp := 9 } {}) :=
  ⟨ends_runs (((h 3 true (calm { wakecfg := 0x6000, wcount := 255 } { pwr := .doze }) _ rfl).1 (by decide) ⟨by decide, by decide⟩).2 rfl rfl),
   ends_runs (((h 3 true (stopped { wakecfg := 0x4000 }) up rfl).1 (by decide) ⟨by decide, by decide⟩).1 rfl),
   ends_runs ((h 3 true (calm { wakecfg := 0x5000 } {}) up rfl).2.1 (by decide) (fun c => absurd c.2 (by decide))),
   ends_runs (((h 3 true (calm { wakecfg := 0x1_0000, wakecmp := 9 } {}) _ rfl).2.2.1 (by decide)).2 rfl rfl), ends_runs ((h 3 true (calm { wakecmp := 9 } {}) up rfl).2.2.2.1 (by decide))⟩
theorem witness_WakeSources_sleep (h : Says.WakeSources) :
    (advance 1 { calm {} {} with later := [.slept] }).calm.slept = true ∧
    Runs .pwrenLow (calm {} { sleepAt := some 69990 }) ∧ Runs .pwrenHigh (calm { wsrc := 1, pwren := false } {}) ∧ Runs .pwrenHigh (calm {} {}) :=
  ⟨by rw [((h 3 true { calm {} {} with later := [.slept] } _ rfl).2.2.2.2.1 rfl rfl rfl rfl).1],
   ends_runs ((h 3 true (calm {} { sleepAt := some 69990 }) _ rfl).2.2.2.2.2.1 69990 rfl rfl rfl),
   ends_runs ((h 3 true (calm { wsrc := 1, pwren := false } {}) up rfl).2.2.2.2.2.2.1 (by decide) rfl (by decide)),
   ends_runs ((h 3 true (calm {} {}) up rfl).2.2.2.2.2.2.2 (.inl rfl))⟩
theorem witness_Supplies (h : Says.Supplies) :
    Runs (.vanaChange true) up ∧ Runs .vkeepLoss (calm {} {}) ∧ Runs .calmPor { up with calm := { scratch := Vector.replicate 16 3, wake := Vector.replicate 4 true } } :=
  ⟨ends_runs ((h true up).1 (by decide)), ends_runs ((h true (calm {} {})).2.1 rfl),
   ends_runs ((h true { up with calm := { scratch := Vector.replicate 16 3, wake := Vector.replicate 4 true } }).2.2 rfl)⟩



def recorder (r : Recorder) : State := { up with rcd := r, cis := { banks := Vector.replicate 8 { own := 0xC000_0000 }, init := 0 } }
theorem witness_RecorderCommands (h : Says.RecorderCommands) :
    Runs (.recStart p0) (recorder { cfg := 0xE800_0000, wr := 5 }) ∧ Runs (.recStart p0) up ∧ Runs (.recReplay p0) (recorder { divSeen := true }) ∧
    Runs (.recReplay p0) (recorder { startDue := true }) ∧ Runs (.recReplay p0) { recorder {} with dom := { state := .run } } ∧ Runs (.recStop p0) (recorder { state := .record, frozen := true }) ∧
    Runs (.recStop p0) (recorder { state := .replay, replayQ := [⟨1, 2, 3, 4⟩], inject := [(⟨9, 2, 3, 4⟩, 5)] }) ∧ Runs (.recStop p0) (recorder { state := .drain }) ∧
    Runs (.recFreeze p0) (recorder { state := .record, cfg := 0x1000_0000 }) ∧ Runs (.recFreeze p0) (recorder { state := .record, cfg := 0 }) :=
  ⟨ends_runs ((h p0 (recorder { cfg := 0xE800_0000, wr := 5 }) rfl).1 rfl rfl (by decide)),
   ends_runs ((h p0 up rfl).2.1 (fun c => absurd c.2.2 (by decide))), ends_runs ((h p0 (recorder { divSeen := true }) rfl).2.2.1 rfl rfl (by decide)),
   ends_runs ((h p0 (recorder { startDue := true }) rfl).2.2.1 rfl rfl (by decide)),
   ends_runs ((h p0 { recorder {} with dom := { state := .run } } rfl).2.2.2.1 (fun c => nomatch c.2.1)),
   ends_runs ((h p0 (recorder { state := .record, frozen := true }) rfl).2.2.2.2.1 rfl),
   ends_runs ((h p0 (recorder { state := .replay, replayQ := [⟨1, 2, 3, 4⟩], inject := [(⟨9, 2, 3, 4⟩, 5)] }) rfl).2.2.2.2.2.1 rfl),
   ends_runs ((h p0 (recorder { state := .drain }) rfl).2.2.2.2.2.2.1 (.inr rfl)),
   ends_runs ((h p0 (recorder { state := .record, cfg := 0x1000_0000 }) rfl).2.2.2.2.2.2.2.1 rfl (by decide) rfl),
   ends_runs ((h p0 (recorder { state := .record, cfg := 0 }) rfl).2.2.2.2.2.2.2.2 (.inr (.inl (by decide))))⟩
def rec1 : Record := ⟨6, 0x2FF, 0x1234_5678_9ABC, 0x1_0000_0007⟩
def starting : State := { recorder { startDue := true, timeHi := 4 } with tb := { running := true, frameDue := true, now := 0x0003_0000_0060_0000 } }
def filled : State := recorder { cfg := 0xE800_0000, state := .record, queue := [rec1, rec1], wr := 0x3_FFFF, rd := 0x3_FFF5, wm := 11, cross := 255 }
def drainsOne : State := recorder { cfg := 0x1800_0000, state := .drain, queue := [rec1], wm := 1 }
def awaiting (s : State) : State := { s with cis := { s.cis with waiting := [⟨24, 5, .write 0 false, .none⟩] } }
theorem witness_RecordingRuns (h : Says.RecordingRuns) :
    Runs .recordingBegin starting ∧ Runs .recordWrite filled ∧ Runs .recordWrite drainsOne ∧ Runs .recordWrite (awaiting filled) ∧
    Runs .postCountDone (recorder { state := .record, frozen := true }) ∧ Runs .drainEnd (recorder { state := .drain }) ∧ Runs .drainEnd (awaiting drainsOne) :=
  ⟨ends_runs ((h rec1 [] starting _ rfl rfl).1 rfl rfl rfl),
   ends_runs ((h rec1 [rec1] filled filled rfl rfl).2.1 rfl (.inl rfl) (.inr (by decide)) (by intro q hq; exact nomatch hq) rfl),
   ends_runs ((h rec1 [] drainsOne drainsOne rfl rfl).2.1 rfl (.inr rfl) (.inl (by decide)) (by intro q hq; exact nomatch hq) rfl),
   ends_runs ((h rec1 [] (awaiting filled) (awaiting filled) rfl rfl).2.2.1 (fun c => c _ (.head _) rfl)),
   ends_runs ((h rec1 [] (recorder { state := .record, frozen := true }) (recorder { state := .record, frozen := true }) rfl rfl).2.2.2.1 rfl rfl rfl),
   ends_runs ((h rec1 [] (recorder { state := .drain }) (recorder { state := .drain }) rfl rfl).2.2.2.2.1 rfl rfl (by intro q hq; exact nomatch hq)),
   ends_runs ((h rec1 [] (awaiting drainsOne) (awaiting drainsOne) rfl rfl).2.2.2.2.2 rfl (fun c => c _ (.head _) rfl))⟩
def replaying (q : List Record) (e : List (Record × Stamp × Nat)) : State := recorder { state := .replay, replayQ := q, shift := 0x100, extra := e, rpq := #v[0x1AFF_1234, 7, 8] }
def pastInput : State := recorder { cfg := 0, state := .replay, replayQ := [⟨9, 3, 0x5F_0000, 5⟩] }
def begins : State := { recorder { replayDue := some 0x60, origin := 0x70 } with tb := { running := true, now := 0x60_0000 } }
theorem witness_ReplayRuns (h : Says.ReplayRuns) :
    Runs .replayBegin begins ∧
    Runs (.recRpqAppend p0 9) (replaying (List.replicate 511 rec1) []) ∧ Runs (.recRpqAppend p0 9) (replaying (List.replicate 512 rec1) []) ∧
    Runs .replayQueueMove (replaying [⟨1, 0, 0, 5⟩] []) ∧ Runs .replayQueueMove (replaying [⟨9, 3, 0x60_0000, 5⟩] []) ∧ Runs .replayQueueMove pastInput :=
  ⟨ends_runs ((h p0 0 rec1 [] 0x60 begins begins).1 rfl rfl rfl rfl rfl),
   ends_runs ((h p0 9 rec1 [] 0 (replaying (List.replicate 511 rec1) []) up).2.1 rfl (Nat.lt_of_le_of_lt (Nat.le_of_eq List.length_replicate) (by decide))),
   ends_runs ((h p0 9 rec1 [] 0 (replaying (List.replicate 512 rec1) []) up).2.2.1 rfl (Nat.le_of_eq List.length_replicate.symm)),
   ends_runs (((h p0 0 ⟨1, 0, 0, 5⟩ [] 0 (replaying [⟨1, 0, 0, 5⟩] []) up).2.2.2.1 rfl rfl).1 rfl),
   ends_runs (((h p0 0 ⟨9, 3, 0x60_0000, 5⟩ [] 0 (replaying [⟨9, 3, 0x60_0000, 5⟩] []) up).2.2.2.1 rfl rfl).2.1 (.inl rfl) (by decide) (by decide)),
   ends_runs (((h p0 0 ⟨9, 3, 0x5F_0000, 5⟩ [] 0 pastInput up).2.2.2.1 rfl rfl).2.2.1 (.inl rfl) (by decide) (by decide) (by decide))⟩
theorem unlike {q x : Record} {t t' : Stamp} (h : q.type ≠ x.type) : ¬ Says.matched q x t t' := fun c => h c.1
def other : Record := ⟨5, 1, 1, 2⟩
def fullSet : State := recorder { state := .replay, replayQ := [⟨9, 3, 0, 5⟩], inject := List.replicate 64 (rec1, 0) }
theorem witness_ReplayRuns_matching (h : Says.ReplayRuns) :
    Runs .replayQueueMove fullSet ∧ Runs .replayQueueMove (replaying [rec1] []) ∧
    Runs .replayQueueMove (replaying [rec1] [(other, 3, 1), (rec1, 0x1234_5678_9BBC, 2)]) :=
  ⟨ends_runs (((h p0 0 ⟨9, 3, 0, 5⟩ [] 0 fullSet up).2.2.2.1 rfl rfl).2.2.2.1 (.inl rfl) (Nat.le_of_eq List.length_replicate.symm)),
   ends_runs (((h p0 0 rec1 [] 0 (replaying [rec1] []) up).2.2.2.1 rfl rfl).2.2.2.2.1 (.inr (.inr (.inl rfl))) (by intro q hq; exact nomatch hq) (by decide)),
   ends_runs (((h p0 0 rec1 [] 0 (replaying [rec1] [(other, 3, 1), (rec1, 0x1234_5678_9BBC, 2)]) up).2.2.2.1 rfl rfl).2.2.2.2.2 (.inr (.inr (.inl rfl)))
     rec1 2 [(other, 3, 1)] [] rfl ⟨rfl, rfl, rfl, rfl⟩ (fun e he => by cases he with | head => exact unlike (by decide) | tail _ hm => exact nomatch hm))⟩
def expecting (e : List (Record × Stamp)) : State := recorder { state := .replay, mask := 0xFFFF_FFFF, expect := e }
def domRec : Record := mkRec 4 0 0x77 3
theorem witness_ReplayRuns_outputs (h : Says.ReplayRuns) :
    (recordOut 4 0 0x77 3 (expecting [(other, 5), (domRec, 0x77)])).rcd.expect = [(other, 5)] ∧
    (recordOut 4 0 0x77 3 (expecting [(other, 5)])).rcd.extra = [(domRec, 0x77, 70000)] :=
  ⟨by rw [((h p0 0 rec1 [] 0 (expecting [(other, 5), (domRec, 0x77)]) up).2.2.2.2 4 0 0x77 3 rfl rfl).1 domRec [(other, 5)] [] rfl ⟨rfl, rfl, rfl, rfl⟩
      (fun e he => by cases he with | head => exact unlike (by decide) | tail _ hm => exact nomatch hm)]; rfl,
   by rw [((h p0 0 rec1 [] 0 (expecting [(other, 5)]) up).2.2.2.2 4 0 0x77 3 rfl rfl).2
      (fun e he => by cases he with | head => exact unlike (by decide) | tail _ hm => exact nomatch hm)]; rfl⟩
def injecting (x : Record) : State := modTe 15 (fun e => { e with state := .run, disp := Vector.replicate 64 0x8000_0000 }) (recorder { state := .replay, inject := [(x, 0x60_0040)] })
def waits (c : Word) (x : List (Record × Stamp × Nat)) (e : List (Record × Stamp)) : State := recorder { state := .replay, cfg := c, extra := x, expect := e, dcnt := 0xFFFF_FFFF }
theorem witness_ReplayInjectsAndDiverges (h : Says.ReplayInjectsAndDiverges) :
    Runs .inputInjection (injecting ⟨11, 127, 0, 9⟩) ∧ Runs .inputInjection (injecting ⟨15, 0, 0, 8⟩) ∧ Runs .inputInjection (injecting ⟨15, 0, 0, 4⟩) ∧
    Runs .divergenceTimeout (waits 0 [(rec1, 0x5F_0040, 68976)] []) ∧
    Runs .divergenceTimeout (waits 0 [] [(rec1, 0x5F_007F)]) ∧ Runs .divergenceTimeout (waits 0x0800_0000 [] [(rec1, 0x5F_007F)]) :=
  ⟨ends_runs (((h ⟨11, 127, 0, 9⟩ 0x60_0040 0 (injecting ⟨11, 127, 0, 9⟩) (injecting ⟨11, 127, 0, 9⟩) rfl rfl rfl).1 rfl rfl).1 15 7 rfl rfl rfl (by decide) rfl),
   ends_runs (((h ⟨15, 0, 0, 8⟩ 0x60_0040 0 (injecting ⟨15, 0, 0, 8⟩) (injecting ⟨15, 0, 0, 8⟩) rfl rfl rfl).1 rfl rfl).2.1 rfl (by decide)),
   ends_runs (((h ⟨15, 0, 0, 4⟩ 0x60_0040 0 (injecting ⟨15, 0, 0, 4⟩) (injecting ⟨15, 0, 0, 4⟩) rfl rfl rfl).1 rfl rfl).2.2 rfl),
   ends_runs ((h rec1 0x5F_0040 68976 (waits 0 [(rec1, 0x5F_0040, 68976)] []) (waits 0 [(rec1, 0x5F_0040, 68976)] []) rfl rfl rfl).2.1 rfl rfl (by decide) rfl),
   ends_runs (((h rec1 0x5F_007F 0 (waits 0 [] [(rec1, 0x5F_007F)]) (waits 0 [] [(rec1, 0x5F_007F)]) rfl rfl rfl).2.2 rfl rfl rfl).1 (by decide)),
   ends_runs (((h rec1 0x5F_007F 0 (waits 0x0800_0000 [] [(rec1, 0x5F_007F)]) (waits 0x0800_0000 [] [(rec1, 0x5F_007F)]) rfl rfl rfl).2.2 rfl rfl rfl).2 (by decide))⟩

/-! WellFormed refuses an ill-formed term of every check. -/

theorem test_smoke_calibration : wellFormed (.frameBoundary [1, 2, 3]) = false := by decide
theorem test_smoke_register_range : wellFormed (.rcRead p0 0x40_0000 0xF) = false := by decide
theorem test_smoke_register_aligned : wellFormed (.registerWrite p0 0x102 0xF 0) = false := by decide
theorem test_smoke_sideband_bytes : wellFormed (.registerWrite .spi 0x100 0x3 0) = false := by decide
theorem test_smoke_request_number : wellFormed (.requestPost 3 57 0) = false := by decide
theorem test_smoke_shift_register : wellFormed (.seRegisterWrite p0 3 0x34 0) = false := by decide
theorem test_smoke_shift_register_aligned : wellFormed (.seRegisterWrite p0 3 0x1E 0) = false := by decide
theorem test_smoke_pin_matrix : wellFormed (.pinMatrixWrite p0 0x2C_4830 0) = false := by decide
theorem test_smoke_pin_matrix_gap : wellFormed (.pinMatrixWrite p0 0x2C_4030 0) = false := by decide
theorem test_smoke_window_end : wellFormed (.bar2Read 0 0xFF_FFFC 8) = false := by decide
theorem test_smoke_window_empty : wellFormed (.bar2Write 0 []) = false := by decide
theorem test_smoke_completion_empty : wellFormed (.hostReadCompletion 0 (.data [])) = false := by decide
theorem test_smoke_link_messages : wellFormed (.linkFrameReceive 0 { msgs := [{}, {}, {}, {}, {}] }) = false := by decide
theorem test_smoke_width : wellFormed (.dlActive 3 1) = false := by decide
theorem test_smoke_speed : wellFormed (.dlActive 4 4) = false := by decide
theorem test_smoke_accepts : wellFormed (.registerWrite .spi 0x3F_FFFC 0xF 0) = true ∧ wellFormed (.dlActive 4 3) = true := by decide

/-! One command each, from a small state; what is expected is read off the rule that the comment names. -/

/-- What a command leaves of `f`, where it answers a next state. -/
def after {α : Type} (c : Instr) (s : State) (f : State → α) : Option α :=
  match exec c s with
  | .next t => some (f t)
  | _ => none
/-- R26, R27: the change takes effect 16 frames on. -/
theorem test_arm : after (.domainArm p0) (inDom .config) (fun t => (t.dom.pend, t.dom.pstate, t.dom.eff, t.dom.cmd.status)) = some (true, .armed, 0x70, .ok) := by decide
/-- R15, R16, Table 1.6. -/
theorem test_run_refused : after (.domainRun p0) (inDom .config) (fun t => (t.dom.pend, t.dom.cmd)) = some (false, ⟨.stateRefused, 1⟩) := by decide
/-- R39. -/
theorem test_load_while_following : after (.tbLoad p0) (tbAt true .config 0x1_0000) (fun t => (t.tb.loadPend, t.tb.cmd.status)) = some (false, .stateRefused) := by decide
/-- R36: one cycle of CCLK is 64 units. -/
theorem test_idle_counts : (match step up with | .next t => some (t.tb.now, t.tb.clk) | _ => none) = some (0x60_0040 + 64, 70001) := by decide
/-- R41, R42: from CH_TOP the counter steps to 0. -/
theorem test_counter_wraps : after (.counterStep 7) (chan 7 { cfg := 0x00400000, run := true, nextStep := 70000, cnt := 9, top := 9 }) (fun t => t.ch[7].cnt) = some 0 := by decide
/-- R42: a value written while the counter runs waits for the wrap. -/
theorem test_top_held : after (.chTopWrite p0 3 5) (chan 3 { run := true, top := 9 }) (fun t => (t.ch[3].top, t.ch[3].heldTop)) = some (9, some 5) := by decide
/-- Tables 2.12 and 2.14. -/
theorem test_count_written : after (.chCntWrite p0 3 5) up (fun t => (t.ch[3].cnt, t.ch[2].cnt)) = some (5, 0) := by decide
/-- Tables 1.8 and 1.9: the fault mask at reset. -/
theorem test_read_mask : after (.rcRead p0 0x110 0xF) up (fun t => t.out) = some [.readData p0 0x11] := by decide
/-- Table 4.5: G9 + G1 to G2. -/
theorem test_add : after (.aluAdd 15) (micro 0x1111_1111 (aluWord 3) carry) (fun t => (t.te[15].g[2], t.te[15].g[9])) = some (0xAAAA_AAAA, 0x9999_9999) := by decide
/-- Table 4.5: 9 × 2^29 is 2^29 modulo 2^32, and so the difference is 0. -/
theorem test_sub : after (.aluSub 15) (micro 0x2000_0000 (aluWord 5) carry) (fun t => (t.te[15].g[2], t.te[15].flags.getLsbD 0)) = some (0, true) := by decide
/-- Table 4.3: `GOTO`. -/
theorem test_goto : after (.seqGoto 15) (micro 3 (seqWord 1 []) carry) (fun t => t.te[15].pc) = some 0x7F5 := by decide
/-- Table 4.4: `AL` always holds, so `BRF` goes on at PC + 1, from the end of the store to its start. -/
theorem test_branch_falls : after (.seqBrf 15) (micro 3 (mw [(124, 3), (113, 0x7F5)]) carry) (fun t => t.te[15].pc) = some 0 := by decide
/-- R79, Table 3.3. -/
theorem test_engine_starts : after (.teStart p0 15) (eng 15 {}) (fun t => (t.te[15].state, t.te[14].state)) = some (.run, .stopped) := by decide
/-- R222: F shows the match. -/
theorem test_cmp : after (.seCmp 31) (at31 9 0 0 0 { scnt := 7, cmpv := 0x1_0007 }) (fun t => t.se[31].f) = some true := by decide
/-- R304: the write of the high half stores the item. -/
theorem test_push : after (.wellPushHiWrite p0 2 7) (modWell 2 (fun w => { w with stagePcie := 5 }) (hostWell 0 0)) (fun t => t.well[2].items.map (·.data)) = some [0x7_0000_0005] := by decide
/-- R300: a read of an empty well answers its IDLE value. -/
theorem test_pop_empty : after (.wellPopLoRead p0 2) (well 2 { en := true, cfg := 0x0404_0000, idle := 0x5_0000_0009 }) (fun t => t.out) = some [.readData p0 9] := by decide
/-- R306. -/
theorem test_pump_starts : after (.pumpStart p0 1) (pump { ringcfg := 10 }) (fun t => (t.pump[1].state, t.pump[0].state)) = some (.run, .stopped) := by decide
/-- R395, R397: a pop removes the oldest message. -/
theorem test_link_pop : after (.linkRxpop p0) { up with link := { rxq := [{ dst := 1 }, { dst := 2 }] } } (fun t => t.link.rxq) = some [{ dst := 2 }] := by decide
/-- R412. -/
theorem test_boot_release : after (.sysBootRelease p0) { up with sys := { ready := true, crshold := true, strap := 2 } } (fun t => t.sys.crshold) = some false := by decide
/-- R415. -/
theorem test_doze : after (.sysDoze p0) (resting .halted {}) (fun t => t.sys.pwr) = some .doze := by decide
/-- R437, Table 15.2. -/
theorem test_record_starts : after (.recStart p0) (recorder {}) (fun t => t.rcd.cmd.status) = some .ok := by decide
/-- R218: a reserved opcode halts the engine at its instruction. -/
theorem test_reserved_code : after (.illop 31) (at31 13 0 0 0 { pc := 4 }) (fun t => (t.se[31].st, t.se[31].pc)) = some (.halted, 4) := by decide
/-- R298: a well whose writer is not the host refuses it and counts. -/
theorem test_push_refused : after (.wellPushHiWrite p0 2 7) up (fun t => (t.well[2].items, t.well[2].refused)) = some ([], 1) := by decide
/-- R342: an interval outside its range is ignored. -/
theorem test_mains_interval : after (.mainsSyncEdge 0x7000_0000) (mains true [8000000] 10000001) (fun t => (t.scs.valid, t.scs.recent)) = some (true, [8000000]) := by decide
/-- R415, Table 14.7: nothing sleeps, so `WAKE` is refused. -/
theorem test_wake_refused : after (.sysWake p0) (resting .run {}) (fun t => t.sys.pwrcmd) = some ⟨.stateRefused, 1⟩ := by decide
/-- R140: a dword waits in the staging register of its port. -/
theorem test_microcode_stage : after (.microcodeDwordStage p0 3 0 2 7) up (fun t => (t.te[3].stagePcie[2], t.te[3].stageSpi[2])) = some (7, 0) := by decide
/-- R160, Table 5.13. -/
theorem test_tracker_starts : after (.wtStart p0 3) (wheel 0 3 { cfg := 0x0500_003B }) (fun t => t.wt[3].st) = some .seeking := by decide
/-- R372: a frame with a code error is counted and not acted on. -/
theorem test_bad_link_frame : after (.linkFrameReceive 3 { codeOk := false }) (linked 3 { state := .up } {}) (fun t => (t.link.ports[3].code, t.link.ports[3].frame)) = some (1, none) := by decide
/-- R417: the selected edge of a wake pin latches its bit and counts. -/
theorem test_wake_pin : after (.wakePinEdge 1 true) (calm { wakecfg := 0x40 } {}) (fun t => (t.calm.wsrc, t.calm.wcount)) = some (2, 1) := by decide
/-- R345, R354: a raw 100 of input 7 with unit gain and no offset. -/
theorem test_result : after (.integrationEnd 1 (input 100) none) (conv runs) (fun t => t.sc[1].last[7]) = some 0x6470 := by decide

end Sys2Proof.Tests
end

section
/-! The timebase: the command `LOAD` (R38, R39). -/

namespace Sys2Proof.Machine
open Claims

/-! A block's command register (R15, R16). -/

theorem CmdReg.answer_ok (r : CmdReg) : r.answer .ok = { r with status := .ok } := rfl

theorem CmdReg.answer_stateRefused (r : CmdReg) :
    r.answer .stateRefused = ⟨.stateRefused, BitVec.ofNat 8 (min 255 (r.refusals.toNat + 1))⟩ := rfl

/-! `LOAD` writes the timebase alone, with the answer that R39 gives it. -/

theorem tbLoadStatus_ok {s : State} (hconfig : s.dom.state = .config) (hsrc : s.tb.src = false)
    (hpend : s.tb.loadPend = false) : tbLoadStatus s = .ok := by
  simp [tbLoadStatus, hconfig, hsrc, hpend]

theorem tbLoadStatus_refused {s : State} (h : s.dom.state ≠ .config ∨ s.tb.src = true ∨ s.tb.loadPend = true) :
    tbLoadStatus s = .stateRefused := if_pos h

theorem tbLoad_tb_accepted {s : State} (h : tbLoadStatus s = .ok) :
    (tbLoad s).tb = { s.tb with
      loadPend := true, loadVal := (s.tb.setHi ++ s.tb.setLo) &&& 0xFFFF_FFFF_FFFF_0000
      cmd := { s.tb.cmd with status := .ok } } := by
  simp [tbLoad, h, join, CmdReg.answer_ok]

theorem tbLoad_tb_refused {s : State} (h : tbLoadStatus s = .stateRefused) :
    (tbLoad s).tb = { s.tb with
      cmd := ⟨.stateRefused, BitVec.ofNat 8 (min 255 (s.tb.cmd.refusals.toNat + 1))⟩ } := by
  simp [tbLoad, h, CmdReg.answer_stateRefused]

/-- A `LOAD` that the device takes leaves the timebase as `tbLoad` does, and every other part as it was. -/
theorem does_tbLoad {p : Port} {s : State} {v : Timebase} (hserved : Safety.safeServed s) (hok : hostOk p s = true)
    (htb : (tbLoad s).tb = v) : Does (.tbLoad p) s fun t => t.tb = v ∧ OnlyIn [.tb] s t := by
  have hexec : exec (.tbLoad p) s = done (tbLoad s) := congrArg done (host_ok hok tbLoad)
  exact does_done hexec hserved
    ⟨(settle_tb _).trans htb, onlyIn_settle (tbLoad_keeps (OnlyIn.refl _ _) (Covers.all (by decide)))⟩

/-- Settles O7: the two branches of R39's test, each with what `LOAD` then writes. -/
theorem tbLoadJudged : Obligations.TbLoadJudged := by
  intro p s hserved hok
  constructor
  · intro hconfig hsrc hpend
    exact does_tbLoad hserved hok (tbLoad_tb_accepted (tbLoadStatus_ok hconfig hsrc hpend))
  · intro hrefused
    exact does_tbLoad hserved hok (tbLoad_tb_refused (tbLoadStatus_refused hrefused))

end Sys2Proof.Machine
end

section
/-! The interrupt controller: claims, completions and UNWIND (R328 to R330, R336). -/

namespace Sys2Proof.Machine
open Claims Says

/-! A source and a target of the controller: what a read of one returns after a write of one. -/

@[simp] theorem modTgt_target (h : Fin 32) (f : Target → Target) (s : State) :
    (modTgt h f s).ic.tgt[h] = f s.ic.tgt[h] := vset_same ..

/-- A source's number is that of a shared source or of one of a target's own (R319). -/
theorem sourceNumber_cases {n : Nat} (hn : n < 512) : (∃ k : Fin 496, n = k.val) ∨ ∃ j : Fin 16, n = 496 + j.val := by
  by_cases hs : n < 496
  · exact .inl ⟨⟨n, hs⟩, rfl⟩
  · exact .inr ⟨⟨n - 496, by omega⟩, by simp only; omega⟩

theorem ofNat_privNumber (j : Fin 16) : Fin.ofNat 16 (496 + j.val - 496) = j := by
  apply Fin.ext; simp only [Fin.val_ofNat]; omega

theorem icSrc_shared (s : State) (h : Fin 32) (k : Fin 496) : icSrc s h k.val = s.ic.src[k] := dif_pos k.isLt

theorem icSrc_priv (s : State) (h : Fin 32) (j : Fin 16) : icSrc s h (496 + j.val) = s.ic.tgt[h].priv[j] := by
  rw [icSrc, dif_neg (by omega)]; simp only [ofNat_privNumber]

theorem modSrc_shared (h : Fin 32) (k : Fin 496) (f : Src → Src) (s : State) :
    modSrc h k.val f s = { s with ic := { s.ic with src := s.ic.src.set k (f s.ic.src[k]) } } := dif_pos k.isLt

theorem modSrc_priv (h : Fin 32) (j : Fin 16) (f : Src → Src) (s : State) :
    modSrc h (496 + j.val) f s = modTgt h (fun t => { t with priv := t.priv.set j (f t.priv[j]) }) s := by
  rw [modSrc, dif_neg (by omega)]; simp only [ofNat_privNumber]

theorem icSrc_modSrc_same (h : Fin 32) {n : Nat} (hn : n < 512) (f : Src → Src) (s : State) :
    icSrc (modSrc h n f s) h n = f (icSrc s h n) := by
  obtain ⟨k, rfl⟩ | ⟨j, rfl⟩ := sourceNumber_cases hn
  · simp only [modSrc_shared, icSrc_shared, vset_same]
  · simp only [modSrc_priv, icSrc_priv, modTgt_target, vset_same]

theorem icSrc_modTgt (h : Fin 32) (n : Nat) {f : Target → Target} (hf : ∀ t, (f t).priv = t.priv) (s : State) :
    icSrc (modTgt h f s) h n = icSrc s h n := by
  unfold icSrc
  split
  · rfl
  · rw [modTgt_target, hf]

theorem modSrc_out (h : Fin 32) (n : Nat) (f : Src → Src) (s : State) : (modSrc h n f s).out = s.out := by
  unfold modSrc; split <;> rfl

/-! The class of a target. -/

theorem Target.modCls_priv (fast : Bool) (f : IcClass → IcClass) (t : Target) : (t.modCls fast f).priv = t.priv := by
  cases fast <;> rfl

theorem Target.modCls_congr {fast : Bool} {f g : IcClass → IcClass} {t : Target} (h : f (t.cls fast) = g (t.cls fast)) :
    t.modCls fast f = t.modCls fast g := by
  cases fast
  · exact congrArg (fun c => { t with normal := c }) h
  · exact congrArg (fun c => { t with fast := c }) h

theorem classIs_iff (h : Fin 32) (fast : Bool) (s x : State) (f : IcClass → IcClass) :
    classIs h fast s x f ↔ x.ic.tgt[h] = { s.ic.tgt[h].modCls fast f with priv := x.ic.tgt[h].priv } := by
  cases fast <;> rfl

theorem classIs_refl (h : Fin 32) (fast : Bool) (s : State) : classIs h fast s s id := by cases fast <;> rfl

theorem classIs_congr {h : Fin 32} {fast : Bool} {s x : State} {f g : IcClass → IcClass}
    (hfg : f (s.ic.tgt[h].cls fast) = g (s.ic.tgt[h].cls fast)) (hx : classIs h fast s x f) : classIs h fast s x g := by
  rw [classIs_iff] at hx ⊢
  rwa [← Target.modCls_congr hfg]

theorem classIs_modSrc {h : Fin 32} {fast : Bool} {s x : State} {f : IcClass → IcClass} (hx : classIs h fast s x f)
    {n : Nat} (hn : n < 512) (g : Src → Src) : classIs h fast s (modSrc h n g x) f := by
  unfold classIs at hx ⊢
  obtain ⟨k, rfl⟩ | ⟨j, rfl⟩ := sourceNumber_cases hn
  · rw [modSrc_shared]; exact hx
  · rw [modSrc_priv, modTgt_target, hx]

/-- A further change of the class is made on top of the one before. -/
theorem classIs_modCls {h : Fin 32} {fast : Bool} {s x : State} {f : IcClass → IcClass} (hx : classIs h fast s x f)
    (g : IcClass → IcClass) : classIs h fast s (modTgt h (Target.modCls fast g) x) (g ∘ f) := by
  unfold classIs at hx ⊢
  rw [modTgt_target, hx]
  cases fast <;> rfl

/-! What of the controller is left as it was. -/

theorem otherSources_refl (h : Fin 32) (n : Nat) (s : State) : otherSources h n s s :=
  ⟨fun _ _ => rfl, fun _ _ => rfl, fun _ _ => rfl, rfl⟩

theorem otherSources_modSrc {h : Fin 32} {n : Nat} {s x : State} (hx : otherSources h n s x) (hn : n < 512)
    (f : Src → Src) : otherSources h n s (modSrc h n f x) := by
  obtain ⟨hsrc, hpriv, htgt, hic⟩ := hx
  obtain ⟨k, rfl⟩ | ⟨j, rfl⟩ := sourceNumber_cases hn
  · rw [modSrc_shared]
    refine ⟨fun i hi => ?_, hpriv, htgt, by rw [hic]⟩
    exact (vset_ne _ _ _ _ fun e => hi (congrArg Fin.val e)).trans (hsrc i hi)
  · rw [modSrc_priv]
    refine ⟨hsrc, fun i hi => ?_, fun g hg => (others_set _ _ _ g hg).trans (htgt g hg), by rw [modTgt, hic]⟩
    rw [modTgt_target]
    exact (vset_ne _ _ _ _ fun e => hi (by rw [e])).trans (hpriv i hi)

theorem otherSources_modTgt {h : Fin 32} {n : Nat} {s x : State} (hx : otherSources h n s x) {f : Target → Target}
    (hf : ∀ t, (f t).priv = t.priv) : otherSources h n s (modTgt h f x) := by
  obtain ⟨hsrc, hpriv, htgt, hic⟩ := hx
  refine ⟨hsrc, fun j hj => ?_, fun g hg => (others_set _ _ _ g hg).trans (htgt g hg), by rw [modTgt, hic]⟩
  rw [modTgt_target, hf]
  exact hpriv j hj

theorem otherSources_icSrc {h : Fin 32} {n m : Nat} {s x : State} (hx : otherSources h n s x) (hm : m < 512) (hne : m ≠ n) :
    icSrc x h m = icSrc s h m := by
  obtain ⟨hsrc, hpriv, -, -⟩ := hx
  obtain ⟨k, rfl⟩ | ⟨j, rfl⟩ := sourceNumber_cases hm
  · simpa only [icSrc_shared] using hsrc k hne
  · simpa only [icSrc_priv] using hpriv j hne

/-! The winner of a claim (R328). -/

theorem target_eq_iff (x : Src) (h : Fin 32) : x.target = h ↔ fld x.cfg 20 16 = h.val := by
  rw [Fin.ext_iff, Src.target, Fin.val_ofNat, Nat.mod_eq_of_lt]
  exact Nat.mod_lt _ (by decide)

theorem icRouted_iff (s : State) (h : Fin 32) (fast : Bool) (n : Nat) :
    icRouted s h fast n = true ↔ (496 ≤ n ∨ fld (icSrc s h n).cfg 20 16 = h.val) ∧ bit (icSrc s h n).cfg 30 = fast := by
  simp [icRouted, target_eq_iff, Src.isFast]

theorem claimBar_flat {s : State} {h : Fin 32} {fast : Bool} (hflat : s.ic.flat = true) :
    claimBar s h fast = (s.ic.tgt[h].cls fast).thr.toNat := by
  simp only [claimBar, hflat] <;> rfl

theorem claimBar_empty {s : State} {h : Fin 32} {fast : Bool} (hflat : s.ic.flat = false)
    (hstack : (s.ic.tgt[h].cls fast).stack = []) : claimBar s h fast = (s.ic.tgt[h].cls fast).thr.toNat := by
  simp only [claimBar, hflat, hstack] <;> rfl

theorem claimBar_top {s : State} {h : Fin 32} {fast : Bool} {top : Nat} {rest : List Nat} (hflat : s.ic.flat = false)
    (hstack : (s.ic.tgt[h].cls fast).stack = top :: rest) :
    claimBar s h fast = max (s.ic.tgt[h].cls fast).thr.toNat (fld (icSrc s h top).cfg 3 0) := by
  simp only [claimBar, hflat, hstack] <;> rfl

/-- A priority clears the bar of a claim when it is above the threshold, and in STACKED above the source on top. -/
theorem claimBar_lt_iff (s : State) (h : Fin 32) (fast : Bool) (p : Nat) : claimBar s h fast < p ↔
    (s.ic.tgt[h].cls fast).thr.toNat < p ∧
      ∀ top, s.ic.flat = false → (s.ic.tgt[h].cls fast).stack.head? = some top → fld (icSrc s h top).cfg 3 0 < p := by
  cases hflat : s.ic.flat with
  | true =>
    rw [claimBar_flat hflat]
    exact ⟨fun hp => ⟨hp, fun _ e => absurd e (by decide)⟩, And.left⟩
  | false =>
    cases hstack : (s.ic.tgt[h].cls fast).stack with
    | nil =>
      rw [claimBar_empty hflat hstack]
      exact ⟨fun hp => ⟨hp, fun _ _ e => absurd e (by simp only [List.head?_nil, reduceCtorEq, not_false_eq_true])⟩, And.left⟩
    | cons top rest =>
      rw [claimBar_top hflat hstack, Nat.max_lt]
      refine and_congr_right fun _ => ⟨fun hp t _ e => ?_, fun hp => hp top rfl rfl⟩
      rwa [← Option.some.inj e]

/-- The sources that a claim may take, as `claimWinner` tests them. -/
def mayClaim (s : State) (h : Fin 32) (fast : Bool) (n : Nat) : Bool :=
  let x := icSrc s h n
  icRouted s h fast n && bit x.cfg 31 && decide (fld x.cfg 3 0 ≠ 0) && !x.active && x.pending &&
    decide (claimBar s h fast < fld x.cfg 3 0)

theorem claimable_iff (s : State) (h : Fin 32) (fast : Bool) (n : Nat) :
    claimable s h fast n ↔ n < 512 ∧ mayClaim s h fast n = true := by
  simp only [claimable, mayClaim, Bool.and_eq_true, icRouted_iff, claimBar_lt_iff, decide_eq_true_eq, Bool.not_eq_true',
    Src.pending, Src.sense, Target.cls, and_assoc]
  exact Iff.rfl

/-- One turn of the loop of R328: source `n` is the best so far when it may be claimed and its priority is higher. -/
def claimStep (s : State) (h : Fin 32) (fast : Bool) (best : Option Nat) (n : Nat) : Option Nat :=
  if mayClaim s h fast n then
    match best with
    | none => some n
    | some b => if fld (icSrc s h b).cfg 3 0 < fld (icSrc s h n).cfg 3 0 then some n else some b
  else best

theorem claimWinner_eq_foldl (s : State) (h : Fin 32) (fast : Bool) :
    claimWinner s h fast = (List.range 512).foldl (claimStep s h fast) none := by
  unfold claimWinner claimStep mayClaim
  rfl

theorem claimStep_skips {s : State} {h : Fin 32} {fast : Bool} {n : Nat} (hn : ¬ mayClaim s h fast n = true)
    (best : Option Nat) : claimStep s h fast best n = best := if_neg hn

theorem claimStep_first {s : State} {h : Fin 32} {fast : Bool} {n : Nat} (hn : mayClaim s h fast n = true) :
    claimStep s h fast none n = some n := if_pos hn

theorem claimStep_better {s : State} {h : Fin 32} {fast : Bool} {n b : Nat} (hn : mayClaim s h fast n = true)
    (hlt : fld (icSrc s h b).cfg 3 0 < fld (icSrc s h n).cfg 3 0) : claimStep s h fast (some b) n = some n :=
  (if_pos hn).trans (if_pos hlt)

theorem claimStep_keeps {s : State} {h : Fin 32} {fast : Bool} {n b : Nat}
    (hle : ¬ fld (icSrc s h b).cfg 3 0 < fld (icSrc s h n).cfg 3 0) : claimStep s h fast (some b) n = some b := by
  by_cases hn : mayClaim s h fast n = true
  · exact (if_pos hn).trans (if_neg hle)
  · exact claimStep_skips hn _

/-- Source `b` goes before source `m` in a claim: a higher priority, or the lower number among equals. -/
def goesBefore (s : State) (h : Fin 32) (b m : Nat) : Prop :=
  fld (icSrc s h m).cfg 3 0 < fld (icSrc s h b).cfg 3 0 ∨ (fld (icSrc s h m).cfg 3 0 = fld (icSrc s h b).cfg 3 0 ∧ b < m)

theorem goesBefore_asymm {s : State} {h : Fin 32} {b m : Nat} (hbm : goesBefore s h b m) : ¬ goesBefore s h m b := by
  unfold goesBefore at *
  omega

/-- Source `b` may be claimed and goes before every other source below `k` that may be. -/
def winsBelow (s : State) (h : Fin 32) (fast : Bool) (k b : Nat) : Prop :=
  b < k ∧ mayClaim s h fast b = true ∧ ∀ m, m < k → mayClaim s h fast m = true → m ≠ b → goesBefore s h b m

/-- `best` is the winner among the sources below `k`, or there is none. -/
def winnerBelow (s : State) (h : Fin 32) (fast : Bool) (k : Nat) (best : Option Nat) : Prop :=
  (best = none → ∀ m, m < k → ¬ mayClaim s h fast m = true) ∧ ∀ b, best = some b → winsBelow s h fast k b

theorem winnerBelow_none {s : State} {h : Fin 32} {fast : Bool} {k : Nat}
    (hnone : ∀ m, m < k → ¬ mayClaim s h fast m = true) : winnerBelow s h fast k none :=
  ⟨fun _ => hnone, fun _ e => nomatch e⟩

theorem winnerBelow_some {s : State} {h : Fin 32} {fast : Bool} {k b : Nat} (hb : winsBelow s h fast k b) :
    winnerBelow s h fast k (some b) :=
  ⟨fun e => absurd e (Option.some_ne_none b), fun _ e => by rw [← Option.some.inj e]; exact hb⟩

/-- The last source wins over none, and over an earlier winner of a lower priority. -/
theorem winsBelow_last {s : State} {h : Fin 32} {fast : Bool} {k : Nat} (hk : mayClaim s h fast k = true)
    (hbeats : ∀ m, m < k → mayClaim s h fast m = true → goesBefore s h k m) : winsBelow s h fast (k + 1) k :=
  ⟨Nat.lt_succ_self k, hk, fun m hm hclaim hne => hbeats m (by omega) hclaim⟩

/-- An earlier winner stays, when the last source may not be claimed or has no higher priority. -/
theorem winsBelow_stays {s : State} {h : Fin 32} {fast : Bool} {k b : Nat} (hb : winsBelow s h fast k b)
    (hlast : mayClaim s h fast k = true → ¬ fld (icSrc s h b).cfg 3 0 < fld (icSrc s h k).cfg 3 0) :
    winsBelow s h fast (k + 1) b := by
  obtain ⟨hlt, hclaimb, hfirst⟩ := hb
  refine ⟨Nat.lt_succ_of_lt hlt, hclaimb, fun m hm hclaim hne => ?_⟩
  by_cases e : m = k
  · subst e
    have hle := hlast hclaim
    unfold goesBefore
    omega
  · exact hfirst m (by omega) hclaim hne

/-- A winner of a lower priority than source `k` gives way, and all that it goes before with it. -/
theorem goesBefore_of_winsBelow {s : State} {h : Fin 32} {fast : Bool} {k b m : Nat} (hb : winsBelow s h fast k b)
    (hlt : fld (icSrc s h b).cfg 3 0 < fld (icSrc s h k).cfg 3 0) (hm : m < k) (hclaim : mayClaim s h fast m = true) :
    goesBefore s h k m := by
  obtain ⟨-, -, hfirst⟩ := hb
  by_cases e : m = b
  · subst e
    exact .inl hlt
  · have hbm := hfirst m hm hclaim e
    unfold goesBefore at *
    omega

theorem winnerBelow_step {s : State} {h : Fin 32} {fast : Bool} {k : Nat} {best : Option Nat}
    (hbest : winnerBelow s h fast k best) : winnerBelow s h fast (k + 1) (claimStep s h fast best k) := by
  obtain ⟨hnone, hsome⟩ := hbest
  cases best with
  | none =>
    have hbelow := hnone rfl
    by_cases hk : mayClaim s h fast k = true
    · rw [claimStep_first hk]
      exact winnerBelow_some (winsBelow_last hk fun m hm hclaim => absurd hclaim (hbelow m hm))
    · rw [claimStep_skips hk]
      refine winnerBelow_none fun m hm => ?_
      obtain hm | rfl := Nat.lt_succ_iff_lt_or_eq.mp hm
      · exact hbelow m hm
      · exact hk
  | some b =>
    have hb := hsome b rfl
    by_cases hlt : fld (icSrc s h b).cfg 3 0 < fld (icSrc s h k).cfg 3 0
    · by_cases hk : mayClaim s h fast k = true
      · rw [claimStep_better hk hlt]
        exact winnerBelow_some (winsBelow_last hk fun m hm hclaim => goesBefore_of_winsBelow hb hlt hm hclaim)
      · rw [claimStep_skips hk]
        exact winnerBelow_some (winsBelow_stays hb fun hclaim => absurd hclaim hk)
    · rw [claimStep_keeps hlt]
      exact winnerBelow_some (winsBelow_stays hb fun _ => hlt)

theorem winnerBelow_foldl (s : State) (h : Fin 32) (fast : Bool) (k : Nat) :
    winnerBelow s h fast k ((List.range k).foldl (claimStep s h fast) none) := by
  induction k with
  | zero => exact winnerBelow_none fun m hm => absurd hm (Nat.not_lt_zero m)
  | succ k ih =>
    rw [List.range_succ, List.foldl_append]
    exact winnerBelow_step ih

theorem winnerBelow_claimWinner (s : State) (h : Fin 32) (fast : Bool) :
    winnerBelow s h fast 512 (claimWinner s h fast) := by
  rw [claimWinner_eq_foldl]
  exact winnerBelow_foldl s h fast 512

theorem claimWinner_eq_none {s : State} {h : Fin 32} {fast : Bool} (hnone : ∀ n, ¬ claimable s h fast n) :
    claimWinner s h fast = none := by
  obtain ⟨-, hsome⟩ := winnerBelow_claimWinner s h fast
  cases hbest : claimWinner s h fast with
  | none => rfl
  | some b =>
    obtain ⟨hb, hclaim, -⟩ := hsome b hbest
    exact absurd ((claimable_iff s h fast b).mpr ⟨hb, hclaim⟩) (hnone b)

/-- Of two claimable sources only one goes before the other, so the winner is the one that goes before all others. -/
theorem claimWinner_eq_some {s : State} {h : Fin 32} {fast : Bool} {n : Nat} (hn : claimable s h fast n)
    (hfirst : ∀ m, claimable s h fast m → m ≠ n → goesBefore s h n m) : claimWinner s h fast = some n := by
  obtain ⟨hnone, hsome⟩ := winnerBelow_claimWinner s h fast
  obtain ⟨hlt, hclaim⟩ := (claimable_iff s h fast n).mp hn
  cases hbest : claimWinner s h fast with
  | none => exact absurd hclaim (hnone hbest n hlt)
  | some b =>
    obtain ⟨hb, hclaimb, hbfirst⟩ := hsome b hbest
    by_cases e : n = b
    · rw [e]
    · exact absurd (hbfirst n hlt hclaim e)
        (goesBefore_asymm (hfirst b ((claimable_iff s h fast b).mpr ⟨hb, hclaimb⟩) (Ne.symm e)))

/-! A read of the claim register (R328). -/

theorem claimData_some {n : Nat} (hn : n < 512) : claimData (some n) = BitVec.ofNat 32 (2 ^ 31 + n) := by
  have hor := Nat.two_pow_add_eq_or_of_lt (i := 31) (b := n) (by omega) 1
  rw [Nat.mul_one] at hor
  rw [hor, BitVec.ofNat_or]
  simp [claimData, pack]

/-- In FLAT what only STACKED asks for is not met. -/
theorem not_stacked_and {s : State} {P : Prop} (h : s.ic.flat = true ∨ ¬ P) : ¬ ((!s.ic.flat) = true ∧ P) := by
  rintro ⟨hstacked, hP⟩
  obtain hflat | hnot := h
  · simp [hflat] at hstacked
  · exact hnot hP

theorem claim_stackFull {s : State} {h : Fin 32} {fast : Bool} (hflat : s.ic.flat = false)
    (hfull : 8 ≤ (s.ic.tgt[h].cls fast).stack.length) :
    claim h fast s = (modTgt h (fun t => { t with deep := true }) s, none) := if_pos ⟨by rw [hflat]; rfl, hfull⟩

theorem claim_noWinner {s : State} {h : Fin 32} {fast : Bool}
    (hroom : s.ic.flat = true ∨ (s.ic.tgt[h].cls fast).stack.length < 8) (hwin : claimWinner s h fast = none) :
    claim h fast s = (s, none) := by
  rw [claim, if_neg (not_stacked_and (hroom.imp_right Nat.not_le.mpr)), hwin]

/-- The winner of a claim becomes active, and in STACKED goes on top of the stack. -/
theorem claim_winner {s : State} {h : Fin 32} {fast : Bool} {n : Nat} (hn : n < 512)
    (hroom : s.ic.flat = true ∨ (s.ic.tgt[h].cls fast).stack.length < 8) (hwin : claimWinner s h fast = some n) :
    ∃ x, claim h fast s = (x, some n) ∧ x.out = s.out ∧
      icSrc x h n = { icSrc s h n with active := true, pend := false } ∧ otherSources h n s x ∧
      classIs h fast s x fun k => if s.ic.flat then k else { k with stack := n :: k.stack } := by
  have hsrc := icSrc_modSrc_same h hn (fun x => { x with active := true, pend := false }) s
  have hrest := otherSources_modSrc (otherSources_refl h n s) hn fun x => { x with active := true, pend := false }
  have hcls := classIs_modSrc (classIs_refl h fast s) hn fun x => { x with active := true, pend := false }
  refine ⟨_, by rw [claim, if_neg (not_stacked_and (hroom.imp_right Nat.not_le.mpr)), hwin], ?_⟩
  cases s.ic.flat with
  | true =>
    simp only [if_true]
    exact ⟨modSrc_out .., hsrc, hrest, hcls⟩
  | false =>
    simp only [Bool.false_eq_true, if_false]
    have hpriv := Target.modCls_priv fast fun c => { c with stack := n :: c.stack }
    exact ⟨modSrc_out .., (icSrc_modTgt h n hpriv _).trans hsrc, otherSources_modTgt hrest hpriv, classIs_modCls hcls _⟩

theorem ends_icClaimRead {p : Port} {h : Fin 32} {fast : Bool} {s x : State} {w : Option Nat} {P : State → Prop}
    (hok : hostOk p s = true) (hclaim : claim h fast s = (x, w)) (hP : P (emit (.readData p (claimData w)) x)) :
    Ends (.icClaimRead p h fast) s P := by
  refine ends_done (congrArg done ((hostRead_ok hok _).trans ?_)) hP
  rw [hclaim]

theorem claimTakesWinner : ClaimTakesWinner := by
  intro p h fast s hok c
  refine ⟨fun n hroom hn hbest => ?_, fun hroom hnone => ?_, fun hflat hfull => ?_⟩
  · obtain ⟨x, hclaim, hout, hsrc, hrest, hcls⟩ := claim_winner hn.1 hroom (claimWinner_eq_some hn hbest)
    have hkeeps : OnlyIn [.ic, .out] s x := by
      simpa only [hclaim] using claim_keeps (h0 := h) (fast := fast) (OnlyIn.refl _ s) (Covers.all (by decide))
    refine ends_icClaimRead hok hclaim ⟨?_, hsrc, hrest, hcls, emit_keeps hkeeps (Covers.all (by decide))⟩
    rw [emit, hout, claimData_some hn.1]
  · exact ends_icClaimRead hok (claim_noWinner hroom (claimWinner_eq_none hnone))
      ⟨rfl, rfl, emit_keeps (OnlyIn.refl _ s) (Covers.all (by decide))⟩
  · exact ends_icClaimRead hok (claim_stackFull hflat hfull)
      ⟨rfl, rfl, emit_keeps (modTgt_keeps (OnlyIn.refl _ s) (Covers.all (by decide))) (Covers.all (by decide))⟩

/-! The retirement of a source (R329, R330). -/

/-- The count of R332, with its timer running. -/
theorem IcClass.countOne_eq (c : IcClass) : c.countOne =
    { c with cur := BitVec.ofNat 8 (min 255 (c.cur.toNat + 1)), timer := some (c.timer.getD 0) } := by
  obtain ⟨_, _, _, _, timer, _, _, _, _⟩ := c
  cases timer <;> rfl

/-- A retired source counts one event: still pending, it is one that counts (R330, R332). -/
def countsAgain (n : Nat) (x : Src) : Bool := x.pending && x.counts && decide (n ≠ 498)

theorem countsAgain_iff (n : Nat) (x : Src) : countsAgain n x = true ↔
    (if fld x.cfg 29 28 = 0 then x.live else x.pend) = true ∧ bit x.cfg 31 = true ∧ fld x.cfg 3 0 ≠ 0 ∧ n ≠ 498 := by
  simp only [countsAgain, Src.pending, Src.sense, Src.counts, Bool.and_eq_true, decide_eq_true_eq, and_assoc]
  rfl

theorem retire_eq (h : Fin 32) {n : Nat} (hn : n < 512) (s : State) : retire h n s =
    if countsAgain n (icSrc s h n) then
      modTgt h (Target.modCls (icSrc s h n).isFast IcClass.countOne) (modSrc h n (fun x => { x with active := false }) s)
    else modSrc h n (fun x => { x with active := false }) s := by
  simp only [retire, icSrc_modSrc_same h hn]
  rfl

theorem icSrc_retire_same (h : Fin 32) {n : Nat} (hn : n < 512) (s : State) :
    icSrc (retire h n s) h n = { icSrc s h n with active := false } := by
  rw [retire_eq h hn]
  split
  · exact (icSrc_modTgt h n (Target.modCls_priv _ _) _).trans (icSrc_modSrc_same h hn _ s)
  · exact icSrc_modSrc_same h hn _ s

theorem otherSources_retire {h : Fin 32} {n : Nat} {s x : State} (hx : otherSources h n s x) (hn : n < 512) :
    otherSources h n s (retire h n x) := by
  have hmod := otherSources_modSrc hx hn fun x => { x with active := false }
  rw [retire_eq h hn]
  split
  · exact otherSources_modTgt hmod (Target.modCls_priv _ _)
  · exact hmod

theorem classIs_retire_quiet {h : Fin 32} {fast : Bool} {s x : State} {f : IcClass → IcClass} (hx : classIs h fast s x f)
    {n : Nat} (hn : n < 512) (hquiet : ¬ countsAgain n (icSrc x h n) = true) : classIs h fast s (retire h n x) f := by
  rw [retire_eq h hn, if_neg hquiet]
  exact classIs_modSrc hx hn _

theorem classIs_retire_counts {h : Fin 32} {fast : Bool} {s x : State} {f : IcClass → IcClass} (hx : classIs h fast s x f)
    {n : Nat} (hn : n < 512) (hcls : (icSrc x h n).isFast = fast) (hagain : countsAgain n (icSrc x h n) = true) :
    classIs h fast s (retire h n x) (IcClass.countOne ∘ f) := by
  rw [retire_eq h hn, if_pos hagain, hcls]
  exact classIs_modCls (classIs_modSrc hx hn _) _

/-! A completion (R329). -/

/-- Source `n` is routed to the target and class, and active. -/
theorem routedActive_iff (s : State) (h : Fin 32) (fast : Bool) (n : Nat) :
    (icRouted s h fast n && (icSrc s h n).active) = true ↔
      (496 ≤ n ∨ fld (icSrc s h n).cfg 20 16 = h.val) ∧ bit (icSrc s h n).cfg 30 = fast ∧ (icSrc s h n).active = true := by
  rw [Bool.and_eq_true, icRouted_iff, and_assoc]

/-- A completion that is taken retires the source; in STACKED the source has left the stack before. -/
theorem complete_takes {s : State} {h : Fin 32} {fast : Bool} {n : Nat}
    (hmine : (icRouted s h fast n && (icSrc s h n).active) = true)
    (htop : s.ic.flat = true ∨ (s.ic.tgt[h].cls fast).stack.head? = some n) :
    ∃ x, complete h fast n s = retire h n x ∧ icSrc x h n = icSrc s h n ∧ otherSources h n s x ∧
      classIs h fast s x fun k => if s.ic.flat then k else { k with stack := k.stack.drop 1 } := by
  cases hflat : s.ic.flat with
  | true =>
    refine ⟨s, ?_, rfl, otherSources_refl h n s, classIs_refl h fast s⟩
    simp only [complete, hflat, hmine, if_true]
  | false =>
    obtain ⟨rest, hstack⟩ := List.head?_eq_some_iff.mp (htop.resolve_left (by simp [hflat]))
    have hpriv := Target.modCls_priv fast fun c => { c with stack := rest }
    refine ⟨modTgt h (Target.modCls fast fun c => { c with stack := rest }) s, ?_, icSrc_modTgt h n hpriv s,
      otherSources_modTgt (otherSources_refl h n s) hpriv, ?_⟩
    · simp only [complete, hflat, hstack, hmine, Bool.and_true, decide_true, if_true] <;> rfl
    · exact classIs_congr (by simp only [hstack]; rfl) (classIs_modCls (classIs_refl h fast s) _)

theorem complete_stray {s : State} {h : Fin 32} {fast : Bool} {n : Nat}
    (hmine : ¬ (icRouted s h fast n && (icSrc s h n).active) = true) (hflat : s.ic.flat = true) :
    complete h fast n s = modTgt h (fun t => { t with stray := inc8 t.stray }) s := by
  simp only [complete, hflat, if_true, if_neg hmine]

theorem complete_order {s : State} {h : Fin 32} {fast : Bool} {n : Nat} (hflat : s.ic.flat = false)
    (htop : (s.ic.tgt[h].cls fast).stack.head? ≠ some n) :
    complete h fast n s = modTgt h (fun t => { t with order := true, orderN := inc8 t.orderN }) s := by
  cases hstack : (s.ic.tgt[h].cls fast).stack with
  | nil => simp only [complete, hflat, hstack] <;> rfl
  | cons top rest =>
    have hne : top ≠ n := fun e => htop (by rw [hstack, e]; rfl)
    simp only [complete, hflat, hstack, hne, decide_false, Bool.false_and] <;> rfl

theorem ends_icCompleteWrite {p : Port} {h : Fin 32} {fast : Bool} {v : Word} {s : State} {P : State → Prop}
    (hok : hostOk p s = true) (hP : P (complete h fast (fld v 8 0) s)) : Ends (.icCompleteWrite p h fast v) s P :=
  ends_done (congrArg done (host_ok hok _)) hP

/-! UNWIND (R336), and the answer of a command of the controller (R16). -/

theorem mem_activeOn (s : State) (h : Fin 32) (fast : Bool) (n : Nat) :
    n ∈ activeOn s h fast ↔ n < 512 ∧ (icRouted s h fast n && (icSrc s h n).active) = true := by
  simp [activeOn]

/-- Every source of a list is retired, in its order. -/
def retireAll (h : Fin 32) (l : List Nat) (s : State) : State := l.foldl (fun s n => retire h n s) s

theorem unwind_flat {s : State} (h : Fin 32) (fast : Bool) (hflat : s.ic.flat = true) : unwind h fast s =
    modTgt h (Target.modCls fast fun c => { c with stack := [] }) (retireAll h (activeOn s h fast) s) := by
  simp only [unwind, hflat, if_true]
  rfl

theorem icSrc_retireAll (h : Fin 32) (l : List Nat) (hl : ∀ n ∈ l, n < 512) {m : Nat} (hm : m < 512) (s : State) :
    icSrc (retireAll h l s) h m = if m ∈ l then { icSrc s h m with active := false } else icSrc s h m := by
  induction l generalizing s with
  | nil => rfl
  | cons n l ih =>
    have hn : n < 512 := hl n List.mem_cons_self
    have hrest := ih (fun k hk => hl k (List.mem_cons_of_mem n hk)) (retire h n s)
    rw [retireAll, List.foldl_cons, ← retireAll, hrest]
    by_cases e : m = n
    · subst e
      simp [icSrc_retire_same h hn]
    · simp [otherSources_icSrc (otherSources_retire (otherSources_refl h n s) hn) hm e, e]

theorem retireAll_rest (h : Fin 32) (l : List Nat) (hl : ∀ n ∈ l, n < 512) (s : State) :
    OthersKept h s.ic.tgt (retireAll h l s).ic.tgt ∧
      (retireAll h l s).ic = { s.ic with src := (retireAll h l s).ic.src, tgt := (retireAll h l s).ic.tgt } := by
  induction l generalizing s with
  | nil => exact ⟨fun _ _ => rfl, rfl⟩
  | cons n l ih =>
    obtain ⟨-, -, htgt, hic⟩ := otherSources_retire (otherSources_refl h n s) (hl n List.mem_cons_self)
    obtain ⟨htgt', hic'⟩ := ih (fun k hk => hl k (List.mem_cons_of_mem n hk)) (retire h n s)
    rw [retireAll, List.foldl_cons, ← retireAll]
    exact ⟨fun g hg => (htgt' g hg).trans (htgt g hg), hic'.trans (by rw [hic])⟩

theorem activeOn_lt (s : State) (h : Fin 32) (fast : Bool) : ∀ n ∈ activeOn s h fast, n < 512 :=
  fun n hn => ((mem_activeOn s h fast n).mp hn).1

theorem icSrc_unwind_flat {s : State} (h : Fin 32) (fast : Bool) (hflat : s.ic.flat = true) {m : Nat} (hm : m < 512) :
    icSrc (unwind h fast s) h m =
      if m ∈ activeOn s h fast then { icSrc s h m with active := false } else icSrc s h m := by
  rw [unwind_flat h fast hflat, icSrc_modTgt h m (Target.modCls_priv _ _)]
  exact icSrc_retireAll h _ (activeOn_lt s h fast) hm s

/-- Every source of the target and class is inactive after UNWIND: an active one is retired, another one was so. -/
theorem icSrc_unwind_flat_routed {s : State} {h : Fin 32} {fast : Bool} (hflat : s.ic.flat = true) {m : Nat} (hm : m < 512)
    (hroute : icRouted s h fast m = true) : icSrc (unwind h fast s) h m = { icSrc s h m with active := false } := by
  rw [icSrc_unwind_flat h fast hflat hm]
  split
  case isTrue => rfl
  case isFalse hidle =>
    have : (icSrc s h m).active = false := by simpa [mem_activeOn, hm, hroute] using hidle
    rw [← this]

theorem unwind_flat_elsewhere {s : State} {h : Fin 32} {fast : Bool} (hflat : s.ic.flat = true) {k : Fin 496}
    (hroute : ¬ icRouted s h fast k = true) : (unwind h fast s).ic.src[k] = s.ic.src[k] := by
  have hother : k.val ∉ activeOn s h fast := fun hmem =>
    hroute (Bool.and_eq_true_iff.mp ((mem_activeOn ..).mp hmem).2).1
  rw [← icSrc_shared _ h, icSrc_unwind_flat h fast hflat (Nat.lt_trans k.isLt (by decide)), if_neg hother, icSrc_shared]

theorem unwind_flat_rest {s : State} (h : Fin 32) (fast : Bool) (hflat : s.ic.flat = true) :
    OthersKept h s.ic.tgt (unwind h fast s).ic.tgt ∧
      (unwind h fast s).ic = { s.ic with src := (unwind h fast s).ic.src, tgt := (unwind h fast s).ic.tgt } := by
  obtain ⟨htgt, hic⟩ := retireAll_rest h _ (activeOn_lt s h fast) s
  rw [unwind_flat h fast hflat]
  exact ⟨fun g hg => (others_set _ _ _ g hg).trans (htgt g hg), by rw [modTgt, hic]⟩

/-- An answer other than a refusal is written to STATUS alone. -/
theorem icAnswer_taken {st : CmdStatus} (hst : st ≠ .stateRefused) (s : State) :
    icAnswer st s = { s with ic := { s.ic with cmd := { s.ic.cmd with status := st } } } := by
  rw [icAnswer, refuse_ok _ _ _ hst, CmdReg.answer, if_neg hst]

theorem Ic.input_src (k : Fin 496) (lv : Bool) (x : Ic) : (x.input k lv).src = x.src.set k (x.src[k].input lv) := by
  unfold Ic.input
  dsimp only
  split <;> rfl

theorem pulsed_pulse (k : Fin 496) (s : State) : Pulsed k s (pulse k s) := by
  refine ⟨?_, List.mem_cons_self⟩
  change (s.ic.input k true).src[k] = _
  rw [Ic.input_src, vset_same]

theorem icKept_withCmd {x y : Ic} (hxy : IcKept x y) (c : CmdReg) : IcKept { x with cmd := c } { y with cmd := c } :=
  { hxy with cmd := rfl }

/-- A refusal counts, pulses source 448 where REFIE is set, and moves nothing else of the controller (R16). -/
theorem icAnswer_refused (s : State) :
    (icAnswer .stateRefused s).ic.cmd = refused s.ic.cmd ∧
      (s.ic.refie = true → Pulsed 448 s (icAnswer .stateRefused s)) ∧
      IcKept s.ic { (icAnswer .stateRefused s).ic with cmd := s.ic.cmd } := by
  have hkept := refuse_ic s.ic.refie .stateRefused { s with ic := { s.ic with cmd := refused s.ic.cmd } }
  refine ⟨hkept.cmd, fun hrefie => ?_, icKept_withCmd hkept s.ic.cmd⟩
  rw [icAnswer, refuse, if_pos (by simp [hrefie])]
  exact pulsed_pulse 448 _

theorem unwindStatus_invalid {s : State} {h : Fin 32} (fast : Bool) (hflat : s.ic.flat = false) (hh : 3 < h.val) :
    unwindStatus h fast s = .argInvalid := if_pos ⟨by rw [hflat]; rfl, hh⟩

theorem unwindStatus_refused {s : State} {h : Fin 32} {fast : Bool} (hh : s.ic.flat = true ∨ h.val ≤ 3)
    (hnone : ∀ m, m ∉ activeOn s h fast) : unwindStatus h fast s = .stateRefused := by
  rw [unwindStatus, if_neg (not_stacked_and (hh.imp_right Nat.not_lt.mpr)), List.eq_nil_iff_forall_not_mem.mpr hnone]
  rfl

theorem unwindStatus_ok {s : State} {h : Fin 32} {fast : Bool} (hflat : s.ic.flat = true) {m : Nat}
    (hm : m ∈ activeOn s h fast) : unwindStatus h fast s = .ok := by
  rw [unwindStatus, if_neg (by simp [hflat]), if_neg (by simpa using List.ne_nil_of_mem hm)]

theorem ends_unwind {p : Port} {h : Fin 32} {fast : Bool} {s : State} {st : CmdStatus} {P : State → Prop}
    (hok : hostOk p s = true) (hst : unwindStatus h fast s = st)
    (hP : P (icAnswer st (if st = .ok then unwind h fast s else s))) : Ends (.unwind p h fast) s P := by
  subst hst
  exact ends_done (congrArg done (host_ok hok _)) hP

theorem completionRetires : CompletionRetires := by
  intro p h fast v s hok n c mine still
  have hn : n < 512 := Nat.mod_lt _ (by decide)
  have hactive : ∀ m, m ∈ activeOn s h fast ↔ m < 512 ∧ mine m := fun m => by rw [mem_activeOn, routedActive_iff]
  refine ⟨fun hmine htop => ?_, fun hmine hflat => ?_, fun hflat htop => ?_, fun hflat ⟨m, hm⟩ => ?_, fun hh hnone => ?_,
    fun hflat hh => ?_⟩
  · obtain ⟨x, hx, hsrc, hrest, hcls⟩ := complete_takes ((routedActive_iff s h fast n).mpr hmine) htop
    have hstill : still ↔ countsAgain n (icSrc x h n) = true := by rw [hsrc, countsAgain_iff]
    refine ends_icCompleteWrite hok ⟨?_, ?_, complete_keeps (OnlyIn.refl _ s) (Covers.all (by decide)), fun hquiet => ?_,
      fun hagain => ?_⟩ <;> rw [hx]
    · rw [icSrc_retire_same h hn, hsrc]
    · exact otherSources_retire hrest hn
    · exact classIs_retire_quiet hcls hn (fun e => hquiet (hstill.mpr e))
    · have hfast : (icSrc x h n).isFast = fast := by rw [hsrc]; exact hmine.2.1
      refine classIs_congr ?_ (classIs_retire_counts hcls hn hfast (hstill.mp hagain))
      rw [Function.comp_apply, IcClass.countOne_eq]
      cases s.ic.flat <;> rfl
  · exact ends_icCompleteWrite hok (by
      rw [complete_stray (fun e => hmine ((routedActive_iff s h fast n).mp e)) hflat]
      exact ⟨rfl, modTgt_keeps (OnlyIn.refl _ s) (Covers.all (by decide))⟩)
  · exact ends_icCompleteWrite hok (by
      rw [complete_order hflat htop]
      exact ⟨rfl, modTgt_keeps (OnlyIn.refl _ s) (Covers.all (by decide))⟩)
  · refine ends_unwind hok (unwindStatus_ok hflat ((hactive m).mpr hm)) ?_
    rw [if_pos rfl, icAnswer_taken (by decide)]
    obtain ⟨htgt, hic⟩ := unwind_flat_rest h fast hflat
    refine ⟨fun k hk hroute hcls => icSrc_unwind_flat_routed hflat hk ((icRouted_iff ..).mpr ⟨hroute, hcls⟩),
      fun k hk => unwind_flat_elsewhere hflat fun hrouted => ?_, htgt, by rw [hic], by rw [hic]; exact hflat,
      keeps_ic (unwind_keeps (OnlyIn.refl _ s) (Covers.all (by decide))) (Covers.all (by decide))⟩
    obtain ⟨hroute, hcls⟩ := (icRouted_iff ..).mp hrouted
    rw [icSrc_shared] at hroute hcls
    exact hk.elim (fun e => e (hroute.resolve_left (by omega))) (fun e => e hcls)
  · refine ends_unwind hok (unwindStatus_refused hh fun m hm => ?_) ?_
    · exact hnone m ((hactive m).mp hm).1 ((hactive m).mp hm).2
    · obtain ⟨hcmd, hpulse, hkept⟩ := icAnswer_refused s
      exact ⟨hcmd, hpulse, hkept, icAnswer_keeps (OnlyIn.refl _ s) (Covers.all (by decide))⟩
  · refine ends_unwind hok (unwindStatus_invalid fast hflat hh) ?_
    rw [icAnswer_taken (by decide)]
    exact ⟨rfl, keeps_ic (OnlyIn.refl _ s) (Covers.all (by decide))⟩

/-- Settles O49: what a claim read takes is `claimWinner`, which goes before every other claimable source
(`winnerBelow_claimWinner`); a completion and UNWIND both come down to `retire`, whose effect `retire_eq` says. -/
theorem interruptClaims : Obligations.InterruptClaims := ⟨claimTakesWinner, completionRetires⟩

end Sys2Proof.Machine
end

section
/-! The line link: messages (R16, R394, R395, R397) and COMMIT (R386, R424). -/

namespace Sys2Proof.Machine
open Claims Says

/-! The answer of a command of the link (R16). -/

theorem refuse_link (b : Bool) (st : CmdStatus) (s : State) : (refuse b st s).link = s.link := by
  unfold refuse; split <;> rfl

theorem pulsed_refuse {b : Bool} (hb : b = true) (s : State) : Pulsed 448 s (refuse b .stateRefused s) := by
  rw [refuse, if_pos (by simp [hb])]
  exact pulsed_pulse 448 s

theorem linkAnswer_ok (s : State) :
    linkAnswer .ok s = modLink (fun l => { l with cmd := { l.cmd with status := .ok } }) s :=
  refuse_ok _ _ _ (by decide)

theorem linkAnswer_refused (s : State) : (linkAnswer .stateRefused s).link = { s.link with cmd := refused s.link.cmd } :=
  refuse_link ..

/-- A command of the link that is only refused counts the refusal, and pulses source 448 where REFIE is set. -/
theorem ends_linkRefused {p : Port} {c : Instr} {f : State → State} {s : State} (hok : hostOk p s = true)
    (hexec : exec c s = done (host p f s)) (hf : f s = linkAnswer .stateRefused s) : Ends c s fun z =>
      z.link = { s.link with cmd := refused s.link.cmd } ∧ (bit s.link.ie 16 = true → Pulsed 448 s z) ∧ OnlyIn [.link] s z := by
  rw [host_ok hok, hf] at hexec
  exact ends_done hexec ⟨linkAnswer_refused s, fun hrefie => pulsed_refuse hrefie _,
    linkAnswer_keeps (OnlyIn.refl _ s) (Covers.all (by decide))⟩

/-- A command of the link that is taken makes the link what it says. -/
theorem ends_linkTaken {p : Port} {c : Instr} {f : State → State} {g : Link → Link} {s : State} (hok : hostOk p s = true)
    (hexec : exec c s = done (host p f s)) (hf : f s = modLink g s) :
    Ends c s fun z => z.link = g s.link ∧ OnlyIn [.link] s z := by
  rw [host_ok hok, hf] at hexec
  exact ends_done hexec ⟨rfl, modLink_keeps (OnlyIn.refl _ s) (Covers.all (by decide))⟩

/-! `SEND` and `RXPOP` (R395, R397). -/

theorem linkSend_taken {s : State} (hroom : s.link.txq.length < 8) : linkSend s =
    modLink (fun l => { l with cmd := { l.cmd with status := .ok }, txq := l.txq ++ [l.staged] }) s := by
  have hst : sendStatus s = .ok := if_neg (Nat.not_le.mpr hroom)
  rw [linkSend, hst, if_pos rfl, linkAnswer_ok]
  rfl

theorem linkSend_refused {s : State} (hfull : 8 ≤ s.link.txq.length) : linkSend s = linkAnswer .stateRefused s := by
  have hst : sendStatus s = .stateRefused := if_pos hfull
  rw [linkSend, hst, if_neg (by decide)]

theorem linkRxpop_taken {s : State} (hsome : s.link.rxq ≠ []) : linkRxpop s =
    modLink (fun l => { l with cmd := { l.cmd with status := .ok }, rxq := l.rxq.drop 1 }) s := by
  have hst : rxpopStatus s = .ok := if_neg (by simpa using hsome)
  rw [linkRxpop, hst, linkAnswer_ok]
  rfl

theorem linkRxpop_refused {s : State} (hnone : s.link.rxq = []) : linkRxpop s = linkAnswer .stateRefused s := by
  have hst : rxpopStatus s = .stateRefused := if_pos (by simp [hnone])
  have hdrop : s.link.rxq.drop 1 = s.link.rxq := by rw [hnone]; rfl
  rw [linkRxpop, hst, modLink, hdrop]

/-! A message at a port: dropped, delivered, queued (R394, R395). -/

theorem dropMsg_link (k : Fin 4) (s : State) : (dropMsg k s).link = { s.link with
    stat := s.link.stat ||| 64
    ports := s.link.ports.set k { s.link.ports[k] with mdrop := BitVec.ofNat 8 (min 255 (s.link.ports[k].mdrop.toNat + 1)) } } :=
  rfl

/-- A record of an input moves the recorder alone. -/
theorem recordIn_eq (type unit : Nat) (stamp : Stamp) (data : BitVec 64) (follow : List Record) (s : State) :
    ∃ r, recordIn type unit stamp data follow s = { s with rcd := r } := by
  unfold recordIn
  split
  · exact ⟨_, rfl⟩
  · exact ⟨s.rcd, rfl⟩

theorem deliverMsg_full {k : Fin 4} {m : LinkMsg} {s : State} (hfull : 16 ≤ s.link.rxq.length) :
    deliverMsg k m s = dropMsg k s := if_pos hfull

theorem deliverMsg_room {k : Fin 4} {m : LinkMsg} {s : State} (hroom : s.link.rxq.length < 16) :
    (deliverMsg k m s).link = { s.link with rxq := s.link.rxq ++ [m], stat := s.link.stat ||| 32 } ∧
      Pulsed 419 s (deliverMsg k m s) := by
  obtain ⟨r, hr⟩ := recordIn_eq 12 0 s.tb.now ((msgHead m).setWidth 64)
    ((List.finRange 4).map fun i => mkRec 14 i.val s.tb.now (msgQuad m i)) s
  rw [deliverMsg, if_neg (Nat.not_le.mpr hroom), hr]
  exact ⟨rfl, pulsed_pulse 419 _⟩

theorem deliverMsg_path (k : Fin 4) (m : LinkMsg) (s : State) : (deliverMsg k m s).link.path = s.link.path := by
  by_cases hroom : s.link.rxq.length < 16
  · rw [(deliverMsg_room hroom).1]
  · rw [deliverMsg_full (Nat.not_lt.mp hroom), dropMsg_link]

theorem queueMsg_room {j : Fin 4} {m : LinkMsg} {s : State} (hup : s.link.ports[j].state = .up)
    (hver : s.link.ports[j].ver ≠ 1) (hroom : s.link.ports[j].queue.length < 8) :
    queueMsg j m s = modPort j (fun x => { x with queue := x.queue ++ [m] }) s :=
  if_neg (not_or.mpr ⟨Classical.not_not.mpr hup, not_or.mpr ⟨hver, Nat.not_le.mpr hroom⟩⟩)

theorem queueMsg_drops {j : Fin 4} {m : LinkMsg} {s : State}
    (hshut : s.link.ports[j].state ≠ .up ∨ s.link.ports[j].ver = 1 ∨ 8 ≤ s.link.ports[j].queue.length) :
    queueMsg j m s = dropMsg j s := if_pos hshut

/-! The port by which a message goes on (R370, R394). -/

/-- The destination lies below the device: it is deeper, and its path begins with the device's. -/
def Link.isAbove (l : Link) (dst : BitVec 20) : Prop :=
  l.depth < fld dst 19 16 ∧ (l.depth = 0 ∨ fld dst (2 * l.depth - 1) 0 = fld l.path (2 * l.depth - 1) 0)

/-- The number of the child on the way to a destination below. -/
def Link.hop (l : Link) (dst : BitVec 20) : Nat := fld dst (2 * l.depth + 1) (2 * l.depth)

/-- Port `j` is that of the next hop to a destination below, and `UP` to any other. -/
def Link.goesBy (l : Link) (dst : BitVec 20) (j : Fin 4) : Prop :=
  (l.isAbove dst ∧ j.val = l.hop dst + 1) ∨ (¬ l.isAbove dst ∧ j.val = 0)

theorem hopTo_below {l : Link} {dst : BitVec 20} {j : Fin 4} (hbelow : l.isAbove dst) (hj : j.val = l.hop dst + 1) :
    l.hopTo dst = some j := by
  have hhop : fld dst (2 * l.depth + 1) (2 * l.depth) = j.val - 1 := by rw [hj]; rfl
  rw [Link.hopTo, hhop]
  refine (if_pos hbelow).trans ?_
  match j, hj with
  | 0, hj => exact absurd hj (Nat.succ_ne_zero _).symm
  | 1, _ => rfl
  | 2, _ => rfl
  | 3, _ => rfl

theorem hopTo_elsewhere {l : Link} {dst : BitVec 20} (hbelow : ¬ l.isAbove dst) : l.hopTo dst = none := if_neg hbelow

theorem forwardMsg_own {k : Option (Fin 4)} {m : LinkMsg} {s : State} (hbcast : m.bcast = false)
    (hdst : m.dst = s.link.path) : forwardMsg k m s = s := by
  rw [forwardMsg, if_neg (by simp [hbcast]), if_pos hdst]

theorem forwardMsg_other {k : Option (Fin 4)} {m : LinkMsg} {s : State} {j : Fin 4} (hbcast : m.bcast = false)
    (hdst : m.dst ≠ s.link.path)
    (hj : s.link.goesBy m.dst j) : forwardMsg k m s = queueMsg j m s := by
  rw [forwardMsg, if_neg (by simp [hbcast]), if_neg hdst]
  obtain ⟨hbelow, hj⟩ | ⟨hbelow, hj⟩ := hj
  · simp only [hopTo_below hbelow hj]
  · simp only [hopTo_elsewhere hbelow, Fin.ext (a := j) (b := 0) hj]

/-! The frame of a child acts (R393). -/

theorem atClk_now (f : State → State) (s : State) : atClk s.tb.clk f s = f s := by
  have hnow : runClk s.tb.clk s = s := by rw [runClk, Nat.sub_self]; rfl
  rw [atClk, hnow, if_neg (Nat.lt_irrefl _)]

/-- The device once the frame that port `k` accepted has been taken to act. -/
def frameTaken (k : Fin 4) (s : State) : State := modPort k (fun x => { x with frame := none }) s

theorem frameTaken_port_same (k : Fin 4) (s : State) :
    (frameTaken k s).link.ports[k] = { s.link.ports[k] with frame := none } := vset_same ..

theorem frameTaken_port_other {k j : Fin 4} (hj : j ≠ k) (s : State) :
    (frameTaken k s).link.ports[j] = s.link.ports[j] := vset_ne _ _ _ _ hj

theorem linkFrameAct_present {k : Fin 4} {f : LinkFrame} {s : State} (hup : s.link.ports[k].state = .up)
    (hframe : s.link.ports[k].frame = some f) (hgot : s.link.ports[k].got = false) (hlive : s.rcd.state ≠ .replay)
    (hcycle : (s.tb.now.toNat / 64) % 1024 ≠ 0) : linkFrameAct k s = actContents k f (frameTaken k s) := by
  have hacts : ¬ (s.link.ports[k].got = true ∨ s.link.ports[k].state ≠ .up ∨ ¬ live s = true) :=
    not_or.mpr ⟨by rw [hgot]; exact Bool.false_ne_true, not_or.mpr ⟨Classical.not_not.mpr hup, Classical.not_not.mpr (decide_eq_true hlive)⟩⟩
  have hlater : ¬ frameCycle s = 0 := hcycle
  simp only [linkFrameAct, hframe]
  rw [if_neg hacts, if_neg hlater, atClk_now]
  rfl

theorem forAll_skips {n : Nat} [NeZero n] {f : Fin n → State → State} {s : State} (hf : ∀ i, f i s = s) :
    forAll n f s = s := by
  unfold forAll
  induction List.finRange n with
  | nil => rfl
  | cons i l ih => rw [List.foldl_cons, hf i, ih]

/-- Of a child's frame a device under a parent takes the messages alone: what slots it follows are its parent's. -/
theorem actContents_child {k : Fin 4} {f : LinkFrame} {m : LinkMsg} {s : State} (hk : k ≠ 0) (hroot : isRoot s = false)
    (hver : s.link.ports[k].ver ≠ 1) (hmsgs : f.msgs = [m]) :
    actContents k f s = forwardMsg (some k) m (if isFor m s.link then deliverMsg k m s else s) := by
  have htaken : s.link.ports[k].msgs f = [m] := by rw [LinkPort.msgs, if_neg hver, hmsgs]; rfl
  unfold actContents
  rw [if_neg hk]
  dsimp only
  rw [forAll_skips, htaken]
  · rfl
  · intro w
    exact if_neg (by rw [if_neg hk, hroot]; exact Bool.false_ne_true)

section
variable {k : Fin 4} {f : LinkFrame} {m : LinkMsg} {s : State}

/-- A frame with one message waits at `DN` port `k`, to act in this cycle. -/
structure ChildSends (k : Fin 4) (f : LinkFrame) (m : LinkMsg) (s : State) : Prop where
  child : k.val ≠ 0
  follower : s.link.ports[0].state = .up
  up : s.link.ports[k].state = .up
  ver : s.link.ports[k].ver ≠ 1
  frame : s.link.ports[k].frame = some f
  waits : s.link.ports[k].got = false
  live : s.rcd.state ≠ .replay
  cycle : (s.tb.now.toNat / 64) % 1024 ≠ 0
  msgs : f.msgs = [m]
  bcast : m.bcast = false

theorem ChildSends.act (h : ChildSends k f m s) : linkFrameAct k s = forwardMsg (some k) m
    (if m.dst = s.link.path then deliverMsg k m (frameTaken k s) else frameTaken k s) := by
  have hk : k ≠ 0 := fun e => h.child (congrArg Fin.val e)
  have hroot : isRoot (frameTaken k s) = false := by
    have hport := frameTaken_port_other (j := 0) (Ne.symm hk) s
    exact decide_eq_false (Classical.not_not.mpr ((congrArg LinkPort.state hport).trans h.follower))
  have hver : (frameTaken k s).link.ports[k].ver ≠ 1 := by rw [frameTaken_port_same]; exact h.ver
  rw [linkFrameAct_present h.up h.frame h.waits h.live h.cycle, actContents_child hk hroot hver h.msgs]
  have hfor : isFor m (frameTaken k s).link = decide (m.dst = s.link.path) := by
    rw [isFor, if_neg (by rw [h.bcast]; exact Bool.false_ne_true)]
    rfl
  simp only [hfor, decide_eq_true_eq]

theorem ChildSends.act_own (h : ChildSends k f m s) (hdst : m.dst = s.link.path) :
    linkFrameAct k s = deliverMsg k m (frameTaken k s) := by
  rw [h.act, if_pos hdst]
  exact forwardMsg_own h.bcast (hdst.trans (deliverMsg_path k m (frameTaken k s)).symm)

theorem ChildSends.act_other (h : ChildSends k f m s) (hdst : m.dst ≠ s.link.path) {j : Fin 4}
    (hj : s.link.goesBy m.dst j) : linkFrameAct k s = queueMsg j m (frameTaken k s) := by
  rw [h.act, if_neg hdst]
  exact forwardMsg_other (s := frameTaken k s) h.bcast hdst hj

theorem frameTaken_keeps {l : List Part} (hl : Covers [.link] l) : OnlyIn l s (frameTaken k s) :=
  modPort_keeps (OnlyIn.refl _ s) hl

/-- A message dropped at a port is counted there, once the frame that brought it has been taken. -/
theorem dropMsg_frameTaken_same : (dropMsg k (frameTaken k s)).link = { s.link with
    stat := s.link.stat ||| 64
    ports := s.link.ports.set k { s.link.ports[k] with
      frame := none, mdrop := BitVec.ofNat 8 (min 255 (s.link.ports[k].mdrop.toNat + 1)) } } := by
  rw [dropMsg_link, frameTaken_port_same]
  simp [frameTaken, modPort]

theorem ChildSends.ends_delivered (h : ChildSends k f m s) (hdst : m.dst = s.link.path) (hroom : s.link.rxq.length < 16) :
    Ends (.linkFrameAct k) s fun z =>
      z.link = { s.link with
        rxq := s.link.rxq ++ [m], stat := s.link.stat ||| 32
        ports := s.link.ports.set k { s.link.ports[k] with frame := none } } ∧
      Pulsed 419 s z ∧ OnlyIn [.link, .rcd] s z := by
  obtain ⟨hlink, hpulse⟩ := deliverMsg_room (k := k) (m := m) (s := frameTaken k s) hroom
  exact ends_done (congrArg done (h.act_own hdst))
    ⟨hlink, hpulse, deliverMsg_keeps (frameTaken_keeps (Covers.all (by decide))) (Covers.all (by decide))⟩

theorem ChildSends.ends_notDelivered (h : ChildSends k f m s) (hdst : m.dst = s.link.path) (hfull : 16 ≤ s.link.rxq.length) :
    Ends (.linkFrameAct k) s fun z =>
      z.link = { s.link with
        stat := s.link.stat ||| 64
        ports := s.link.ports.set k { s.link.ports[k] with
          frame := none, mdrop := BitVec.ofNat 8 (min 255 (s.link.ports[k].mdrop.toNat + 1)) } } ∧
      OnlyIn [.link] s z :=
  ends_done (congrArg done ((h.act_own hdst).trans (deliverMsg_full hfull)))
    ⟨dropMsg_frameTaken_same, dropMsg_keeps (frameTaken_keeps (Covers.all (by decide))) (Covers.all (by decide))⟩

theorem ChildSends.ends_forwarded (h : ChildSends k f m s) (hdst : m.dst ≠ s.link.path) {j : Fin 4} (hjk : j ≠ k)
    (hj : s.link.goesBy m.dst j)
    (hup : s.link.ports[j].state = .up) (hver : s.link.ports[j].ver ≠ 1) (hroom : s.link.ports[j].queue.length < 8) :
    Ends (.linkFrameAct k) s fun z =>
      z.link = { s.link with
        ports := (s.link.ports.set k { s.link.ports[k] with frame := none }).set j
          { s.link.ports[j] with queue := s.link.ports[j].queue ++ [m] } } ∧ OnlyIn [.link] s z := by
  have hport := frameTaken_port_other hjk s
  have hqueue := queueMsg_room (m := m) (hport.symm ▸ hup) (hport.symm ▸ hver) (hport.symm ▸ hroom)
  refine ends_done (congrArg done ((h.act_other hdst hj).trans hqueue))
    ⟨?_, modPort_keeps (frameTaken_keeps (Covers.all (by decide))) (Covers.all (by decide))⟩
  rw [modPort, hport]
  rfl

theorem ChildSends.ends_notForwarded (h : ChildSends k f m s) (hdst : m.dst ≠ s.link.path) {j : Fin 4} (hjk : j ≠ k)
    (hj : s.link.goesBy m.dst j)
    (hshut : s.link.ports[j].state ≠ .up ∨ s.link.ports[j].ver = 1 ∨ 8 ≤ s.link.ports[j].queue.length) :
    Ends (.linkFrameAct k) s fun z =>
      z.link = { s.link with
        stat := s.link.stat ||| 64
        ports := (s.link.ports.set k { s.link.ports[k] with frame := none }).set j
          { s.link.ports[j] with mdrop := BitVec.ofNat 8 (min 255 (s.link.ports[j].mdrop.toNat + 1)) } } ∧
      OnlyIn [.link] s z := by
  have hport := frameTaken_port_other hjk s
  have hdrop := queueMsg_drops (m := m) (s := frameTaken k s) (j := j) (by rwa [hport])
  refine ends_done (congrArg done ((h.act_other hdst hj).trans hdrop))
    ⟨?_, dropMsg_keeps (frameTaken_keeps (Covers.all (by decide))) (Covers.all (by decide))⟩
  rw [dropMsg_link, hport]
  rfl

end

theorem linkMessages : LinkMessages := by
  intro p k f m s
  refine ⟨fun hk hroot hup hver hframe hgot hlive hcycle hmsgs hbcast => ?_, fun hok => ?_⟩
  · have h : ChildSends k f m s := ⟨hk, hroot, hup, hver, hframe, hgot, hlive, hcycle, hmsgs, hbcast⟩
    refine ⟨h.ends_delivered, h.ends_notDelivered, fun j hdst hjk hj => ?_⟩
    have hnext : s.link.goesBy m.dst j := hj.imp_left fun ⟨hbelow, _, hval⟩ => ⟨hbelow, hval⟩
    exact ⟨h.ends_forwarded hdst hjk hnext, h.ends_notForwarded hdst hjk hnext⟩
  · exact ⟨fun hroom => ends_linkTaken hok rfl (linkSend_taken hroom),
      fun hfull => ends_linkRefused hok rfl (linkSend_refused hfull),
      fun hsome => ends_linkTaken hok rfl (linkRxpop_taken hsome),
      fun hnone => ends_linkRefused hok rfl (linkRxpop_refused hnone)⟩

/-! `COMMIT` (R386, R424). -/

theorem commitStatus_ok {s : State} (h : s.dom.state = .config ∨ s.dom.observe = true) : commitStatus s = .ok := if_pos h

theorem commitStatus_refused {s : State} (hstate : s.dom.state ≠ .config) (hobserve : s.dom.observe = false) :
    commitStatus s = .stateRefused := if_neg (by simp [hstate, hobserve])

theorem linkCommit_refused {s : State} (hst : commitStatus s = .stateRefused) :
    linkCommit s = linkAnswer .stateRefused s := by
  rw [linkCommit, hst, if_neg (by decide)]

theorem linkCommit_link {s : State} (hst : commitStatus s = .ok) : (linkCommit s).link = { s.link with
    wheelAct := s.link.dcfgWheel, dverAct := s.link.dver, digest := s.link.stagedDigest
    cmd := { s.link.cmd with status := .ok } } := by
  rw [linkCommit, hst, if_pos rfl, linkAnswer_ok]
  cases hkeep : s.sys.vkeepOk <;> simp [hkeep]

/-- The Calm domain copies the digest and the version, while its supply is valid (R420, R424). -/
theorem linkCommit_calm {s : State} (hst : commitStatus s = .ok) : (linkCommit s).calm =
    if s.sys.vkeepOk then { s.calm with digest := s.link.stagedDigest, dver := s.link.dver } else s.calm := by
  rw [linkCommit, hst, if_pos rfl, linkAnswer_ok]
  cases hkeep : s.sys.vkeepOk <;> simp [hkeep]

theorem configurationCommitted : ConfigurationCommitted := by
  intro p s hok
  refine ⟨fun hallowed => ?_, fun hstate hobserve => ?_⟩
  · have hst := commitStatus_ok hallowed
    exact ends_done (congrArg done (host_ok hok linkCommit))
      ⟨linkCommit_link hst, linkCommit_calm hst, linkCommit_keeps (OnlyIn.refl _ s) (Covers.all (by decide))⟩
  · exact ends_linkRefused hok rfl (linkCommit_refused (commitStatus_refused hstate hobserve))

/-- Settles O55: a child's frame comes down to `deliverMsg` or to `queueMsg` at one port (`ChildSends.act`); the commands
either change the link alone or are answered with a refusal. -/
theorem linkDomain : Obligations.LinkDomain := ⟨linkMessages, configurationCommitted⟩

end Sys2Proof.Machine
end
